-- ==== Sys2Proof/Word.lean ====
section
/-!
DEFINITION. The word types of the CH16: bytes, 32-bit registers (R9), 64-bit registers (R10), 128-bit Basin words (R112).
-/

namespace Sys2Proof

abbrev Byte := BitVec 8
abbrev Half := BitVec 16
abbrev Word := BitVec 32
abbrev DWord := BitVec 64
abbrev Quad := BitVec 128

end Sys2Proof
end

