-- ==== Sys2Proof/Machine/Types/Base.lean ====
section
/-!
DEFINITION. Data types shared by the commands and the state: masters (R465), fault records (R643), access kinds, and the
record of what the die sends out of itself (`Out`).
-/

namespace Sys2Proof.Machine

/-- The masters of R465. The Warden is not a master; R10 counts it as one for latches and holding words, and R467 lets
its writes land whatever the ownership. -/
inductive Master where
  | m0 | m1 | m2 | m3 | warden
  deriving DecidableEq, Repr

/-- The master's index, as OWN_STAT.OWNER shows it; 4 is the Warden's latch (R10). -/
def Master.idx : Master → Nat
  | .m0 => 0 | .m1 => 1 | .m2 => 2 | .m3 => 3 | .warden => 4

/-- CHIP_ELOG.KIND (R488). -/
inductive ElogKind where
  | nonowner | locked | unaligned | domainOff | aperture | txnHeld | txnFull | badkey
  deriving DecidableEq, Repr

def ElogKind.code : ElogKind → Nat
  | .nonowner => 1 | .locked => 2 | .unaligned => 3 | .domainOff => 4 | .aperture => 5
  | .txnHeld => 6 | .txnFull => 7 | .badkey => 8

/-- The reset kinds of R654. -/
inductive ResetKind where
  | por | pin | warm | wdt | eng | chn
  deriving DecidableEq, Repr

/-- The bit of a reset kind in a field's Kept mask (R18). -/
def ResetKind.bit : ResetKind → Nat
  | .por => 1 | .pin => 2 | .warm => 4 | .wdt => 8 | .eng => 16 | .chn => 32

/-- Rank of a reset (R655), highest first; 0 is the highest. -/
def ResetKind.rank : ResetKind → Nat
  | .por => 0 | .pin => 1 | .wdt => 2 | .chn => 3 | .warm => 4 | .eng => 5

/-- The code of CRU_RST_STAT.LAST and BOOT_STAT.ENTRY (R675, R587). -/
def ResetKind.code : ResetKind → Nat
  | .por => 0 | .pin => 1 | .warm => 2 | .wdt => 3 | .chn => 4 | .eng => 0

/-- A fault record (R643) before it is written: SEQ is given at generation (R645). `d0` and `d1` are DETAIL, bytes
0x10 to 0x17 and 0x18 to 0x1F. -/
structure FaultRec where
  cls : Nat := 0
  cause : Nat := 0
  sub : Nat := 0
  src : Nat := 0
  aux : Nat := 0
  d0 : Nat := 0
  d1 : Nat := 0
  seq : Nat := 0
  tb : Nat := 0
  die : Nat := 0
  deriving DecidableEq, Repr

/-- Where an access goes (R22, R210): this die's DRAM, another die's DRAM (a DPA), host memory, or nowhere. -/
inductive Loc where
  | loc (a : Nat)
  | remote (dpa : Nat)
  | host (ba : Nat)
  | bad (a : Nat)
  deriving DecidableEq, Repr

/-- The status with which an access completes (R149, R177, R448, R518). -/
inductive Status where
  | ok | error | linkDown | timeout | unreachable | domainAsleep
  deriving DecidableEq, Repr

/-- What the die sends out of itself: host TLPs, chain messages, pin changes, transmissions. The list `State.out` records
them in order, newest last; nothing in the die reads it back. -/
inductive Out where
  /-- MSI-X message of a vector (R463). -/
  | msix (v : Nat)
  /-- A message on a chain port (R429): port, opcode, source, destination, tag, status, ARG, raw entries and data as bytes. -/
  | chl (port op src dst tag st arg : Nat) (data : List Nat)
  /-- A posted write to host memory (R174). -/
  | hostWrite (a : Nat) (data : List Nat)
  /-- A read request to host memory. -/
  | hostRead (a : Nat) (n : Nat)
  /-- A host-memory atomic (R158). -/
  | hostAtomic (op : Nat) (a : Nat) (args : List Nat)
  /-- ATS Translation Request (R214): stream tag, PASID, VA, write wanted. -/
  | atsReq (tag pasid va : Nat) (nw : Bool)
  /-- PRI Page Request (R225). -/
  | pageReq (prgi pasid va : Nat) (r w : Bool)
  /-- ATS Invalidation Completion (R231). -/
  | invDone (itags : List Nat)
  /-- A pin or pin group takes a value. -/
  | pin (name : String) (v : Nat)
  /-- A value shifted out of the TAP (R672, R674). -/
  | tdo (v : Nat)
  /-- A transfer on a serial bus (R625). -/
  | serial (inst : Nat) (bytes : List Nat)
  /-- A packet on a display link (R383). -/
  | dsi (chan : Nat) (bytes : List Nat)
  /-- A SYN command forwarded to the home die of its object (R283): die, OP, handle, ARG, ERR. -/
  | synCmd (die op h arg err : Nat)
  /-- A frame on a display link (R361, R376): channel, frame number, and its active pixels in raster order as R, G, B codes. -/
  | frame (chan n : Nat) (px : List (List Nat))
  /-- From a pixel of an active line on, that line of the frame repeats the line before (R377). -/
  | lineRepeat (chan n line x : Nat)
  /-- The answer to a host or port request: status ok, data. -/
  | reply (ok : Bool) (v : Nat)
  /-- An interrupt to the Warden (R639) or to the microcontroller (R401). -/
  | irqWarden (src : Nat)
  | irqMcu (src : Nat)
  deriving DecidableEq, Repr

end Sys2Proof.Machine
end

