-- ==== Sys2Proof/Machine/Types/Dtu.lean ====
section
/-!
DEFINITION. State of the DTU (R206 to R248) that no register field holds, and the kinds and outcomes of VA accesses.
-/

namespace Sys2Proof.Machine

/-- Access kinds, coded as SUB of a TRANSLATION record (R644), and the two kinds that never fault: prf and
pre-translation (R216, R219). -/
inductive VaKind where
  | load | store | atomic | fetch | texture | wspRead | dcoRead | cifWrite | prf | pretrans
  deriving DecidableEq, Repr

def VaKind.code : VaKind → Nat
  | .load => 0 | .store => 1 | .atomic => 2 | .fetch => 3 | .texture => 4 | .wspRead => 5 | .dcoRead => 6
  | .cifWrite => 7 | .prf => 0 | .pretrans => 5

/-- The permissions an access needs (R215): read, write. -/
def VaKind.needs : VaKind → Bool × Bool
  | .store | .cifWrite => (false, true)
  | .atomic => (true, true)
  | _ => (true, false)

/-- What a translation gives: a translated address, an access to send untranslated with its PASID (R214), or an
unrecoverable fault with its cause (R223). -/
inductive VaOut where
  | at_ (ta : Nat)
  | untranslated (va pasid : Nat)
  | err (cause : Nat)
  deriving DecidableEq, Repr

/-- One waiting access: who waits, the kind, and its stream. -/
structure VaWho where
  id : List Nat
  kind : VaKind
  stream : Nat
  deriving DecidableEq, Repr

/-- An ATC entry (R213): PASID, page base, log2 of the size, translated base, R, W, G. -/
structure AtcEnt where
  pasid : Nat
  base : Nat
  lg : Nat
  tbase : Nat
  r : Bool
  w : Bool
  g : Bool
  deriving DecidableEq, Repr

/-- A pinned slot (R217): PASID and 4 KiB page, the translation, and the stream of each reference. -/
structure PinSlot where
  pasid : Nat
  page : Nat
  ent : Option AtcEnt := none
  refs : List Nat
  deriving DecidableEq, Repr

/-- A miss that waits for a handler, or the handler that carries it (R220): stream, PASID, page, No Write, the accesses
waiting, and for a park entry's retranslation its PRG index. -/
structure DtuMiss where
  stream : Nat
  pasid : Nat
  page : Nat
  nw : Bool
  who : List VaWho
  retr : Option Nat := none
  deriving DecidableEq, Repr

/-- A miss handler: its tag, what it carries, and the ranges of the invalidations accepted since it was sent (R230). -/
structure DtuHnd where
  tag : Nat
  miss : DtuMiss
  inv : List (Nat × Nat) := []
  deriving DecidableEq, Repr

/-- A park entry (R224): PRG index, stream, PASID, page, write intent, the accesses, whether its Page Request is out, and
whether its response has come. -/
structure DtuPark where
  prgi : Nat
  stream : Nat
  pasid : Nat
  page : Nat
  w : Bool
  who : List VaWho
  sent : Bool := false
  answered : Bool := false
  deriving DecidableEq, Repr

/-- An invalidation accepted and not done (R230 to R235): its sequence number, range, the host's ITag or the die that
forwarded it with its sequence (none: the driver's command), and the dies that have yet to report. -/
structure DtuInv where
  seq : Nat
  lo : Nat
  hi : Nat
  itag : Option Nat
  fwd : Option Nat
  wait : List Nat
  deriving DecidableEq, Repr

/-- A request die 0 issues for another die (R234): the die, the tag or PRG index there, whether a Page Request. -/
structure DtuPrx where
  die : Nat
  tag : Nat
  page : Bool
  deriving DecidableEq, Repr

structure DtuSt where
  /-- PASID of each active stream (R207). -/
  pasid : List (Nat × Nat) := []
  atc : List AtcEnt := []
  pins : List PinSlot := []
  miss : List DtuMiss := []
  hnd : List DtuHnd := []
  park : List DtuPark := []
  last : Nat := 69
  /-- Outcomes of waiting accesses, each taken once by its access. -/
  outc : List (List Nat × VaOut) := []
  invq : List DtuInv := []
  invSeq : Nat := 0
  /-- PRI Control Enable and Outstanding Page Request Allocation, as the host's configuration holds them. -/
  priEnable : Bool := false
  priAlloc : Nat := 0
  /-- Die 0: proxy entries by index (R234). -/
  prx : List (Nat × DtuPrx) := []
  /-- Counter cache (R237), the least recent first. -/
  ac : List (Nat × Nat) := []
  /-- Records dropped since the previous summary (R239). -/
  mnDropped : Nat := 0
  deriving DecidableEq, Repr

end Sys2Proof.Machine
end

