-- ==== Sys2Proof/Machine/Types/Sin.lean ====
section
/-!
DEFINITION. State of the Sinter cache (R179 to R205) that no register field holds, and its clients.
-/

namespace Sys2Proof.Machine

/-- Who makes a request (R21, R187); `die` is another die's request at the home die. -/
inductive SinClient where
  | ember | texture | wellspring | dtu | binner | tvu | resolve | dco | cif | hif | die
  deriving DecidableEq, Repr

/-- What a request does. -/
inductive SinKind where
  | read | write | atomic
  deriving DecidableEq, Repr

/-- An ECC outcome of a read (R195): none, corrected, uncorrected, and the same two in the tag entry. -/
inductive SinEcc where
  | none_ | corr | unc | tagCorr | tagUnc
  deriving DecidableEq, Repr

/-- A valid line. `State.mem` always holds the newest bytes of a line homed here, so a Dirty line keeps the older bytes that
DRAM holds (`under`); a copy of a remote or host line keeps its own bytes (`data`). -/
structure SinLine where
  line : Nat
  host : Bool := false
  remote : Bool := false
  age : Nat := 0
  ins3 : Bool := false
  under : Option (List Nat) := none
  data : List Nat := []
  deriving DecidableEq, Repr

/-- A fill requested and not returned; `keep` falls when an acquire invalidates it in flight (R166). -/
structure SinFill where
  line : Nat
  host : Bool
  remote : Bool
  age : Nat
  under : Option (List Nat) := none
  keep : Bool := true
  deriving DecidableEq, Repr

/-- A combining buffer (R183): its slice, line, the bytes written (bit i for byte i) and the bytes DRAM holds. -/
structure WcBuf where
  slice : Nat
  line : Nat
  mask : Nat
  under : List Nat
  deriving DecidableEq, Repr

/-- A stream tracker (R189, R190): expected line, accepted lines beyond it, the run, the run's lines within the window
reached, and whether it is a stream. -/
structure SinTrk where
  exp : Nat
  acc : List Nat := []
  run : Nat := 1
  win : Nat := 1
  stream : Bool := false
  deriving DecidableEq, Repr

/-- Region and default policies before a transition (R184): (EN, BASE, LIM, POL) of each region, and DEFPOL. -/
structure SinPol where
  rgn : List (Bool × Nat × Nat × Nat)
  defpol : Nat
  deriving DecidableEq, Repr

structure SinSt where
  /-- slice × 4096 + set × 16 + way ↦ line. -/
  lines : List (Nat × SinLine) := []
  fills : List SinFill := []
  /-- Combining buffers, the least recently written first. -/
  wc : List WcBuf := []
  /-- Trackers, the longest idle first. -/
  trk : List SinTrk := []
  /-- slice × 16 + way ↦ accesses and corrected errors in the window (R197). -/
  win : List (Nat × (Nat × Nat)) := []
  trans : Option SinPol := none
  /-- The running maintenance operation: lines written back, a line poisoned, IRQ. -/
  maint : Option (Nat × Bool × Bool) := none
  deriving DecidableEq, Repr

end Sys2Proof.Machine
end

