-- ==== Sys2Proof/Operand.lean ====
section
/-!
DEFINITION. Operand types of the commands.
-/

namespace Sys2Proof

/-- What a bring-up meets outside the die's registers (R559 to R564, R579): the strap pins, what answers on the flash bus,
which training, self-tests and ramps pass, and which signatures verify. Environment input of a reset's release. -/
structure BootEnv where
  /-- BOOT_MODE0, BOOT_MODE1, CHL_ROOT, CHL_SEC in bits 0 to 3 (R550). -/
  straps : BitVec 4 := 4
  /-- First FLASH variant that answers (R579); none: no flash. -/
  flash : Option Nat := some 0
  /-- DRAM training passes at variants 0 to 3 (R579), and the channel of a failure. -/
  dram : List Bool := [true, true, true, true]
  dramChan : Nat := 0
  /-- Fitted DRAM in GiB by the mode registers (R553). -/
  modeGiB : Nat := 8
  /-- 64 KiB granules the memory self-test finds wrong (R561). -/
  memBad : List Nat := []
  /-- Physical Embers that fail their self-test, and those whose ramp aborts (true: by current) (R563, R522). -/
  embBad : List Nat := []
  embAbort : List (Nat × Bool) := []
  /-- Warm quick-check failures (R582). -/
  quickBad : List Nat := []
  /-- Failing Sinter ways (slice, way) and Caldera banks (physical Ember, bank) (R564). -/
  wayBad : List (Nat × Nat) := []
  bankBad : List (Nat × Nat) := []
  /-- Named domains whose ramp aborts at POWER or HIF_EARLY (true: by current). -/
  domAbort : List (Nat × Bool) := []
  /-- Flash offsets of the blobs (images, licences, board configuration) whose key is valid and signature verifies, and
  whose body digest matches (R554, R556, R592, R604). -/
  sigOk : List Nat := []
  /-- Offsets of licence blobs whose issuer key is unknown or revoked (R592). -/
  keyBad : List Nat := []
  /-- The step TIMEBASE sees LOCK = 1 (R559); the PCI Express link trains: speed code and width. -/
  link : Option (Nat × Nat) := some (4, 4)
  /-- The step at whose BEGIN the bring-up hangs (R578), and the resource under test then: KIND, INDEX, SUB as in R597. -/
  hang : Option Nat := none
  hangAt : Nat × Nat × Nat := (0, 0, 0)
  deriving DecidableEq, Repr

/-- What a register write may meet outside the die's registers: the bring-up of a reset it starts, whether the memory of the fault ring
acknowledges a record (R648), the dies that M1 owns (R474), the lines whose data a maintenance walk finds uncorrectable (R204), and
the answer of another die about a memory object: outcome of R250, BASE, SIZE, HOSTVIS, RDONLY. -/
structure BusEnv where
  boot : BootEnv := {}
  ack : Bool := true
  m1dies : List Nat := []
  unc : List Nat := []
  obj : Nat × Nat × Nat × Bool × Bool := (1, 0, 0, false, false)
  deriving DecidableEq, Repr

/-- What the arrival of chain messages meets outside the die's registers: the outcomes of the cryptographic checks (R440 to R442, R567),
the stamps of a TSYNC message (R506), what the PCI Express header of a proxy message says (R431), and what a register write meets. -/
structure ChlEnv where
  certOk : Bool := true
  hashOk : Bool := true
  proofOk : Bool := true
  tagOk : Bool := true
  bundleOk : Bool := true
  t2 : Nat := 0
  t3 : Nat := 0
  tlp : List Nat := []
  bus : BusEnv := {}
  deriving DecidableEq, Repr

/-- A die that roll call finds (R443): its UID, the side of die 0 it lies on (true: port 1), the port by which it was reached, what its
ROLLINFO says (number held, CHAIN8, root, image pending, generation and accepted range), and its variant's chain limit (R5). -/
structure RollDie where
  uid : Nat
  side : Bool := false
  inPort : Nat := 0
  held : Option Nat := none
  chain8 : Bool := true
  root : Bool := false
  pending : Bool := false
  gen : Nat := 1
  min : Nat := 0
  max : Nat := 4294967295
  limit : Nat := 8
  deriving DecidableEq, Repr

end Sys2Proof
end

