-- ==== Sys2Proof/Syntax.lean ====
section
/-!
DEFINITION. The commands of the block: one constructor per row of spec/opcode_table.json, with its operands.
-/

namespace Sys2Proof
open Machine

/-- A command or event. Each docstring gives the row and its rule. -/
inductive Instr where
  /-- REGISTER_WRITE (R14). -/
  | registerWrite (m : Master) (off : BitVec 25) (size : Fin 9) (val : Word) (e : BusEnv)
  /-- RWIN_WINDOW_ACCESS (R25). -/
  | rwinWindowAccess (m : Master) (w : BitVec 23) (size : Fin 9) (write : Bool) (val : Word) (e : BusEnv)
  /-- RWIN_FORWARD_TIMEOUT (R27). -/
  | rwinForwardTimeout
  /-- BLOCK_PLACEMENT (R305). -/
  | blockPlacement
  /-- ISSUE_AGE_LIMIT (R38). -/
  | issueAgeLimit (e : Fin 16) (slot : Fin 128)
  /-- RECONVERGENCE (R40). -/
  | reconvergence (e : Fin 16) (b : Fin 32) (c : Fin 32)
  /-- REPACK (R45). -/
  | repack (e : Fin 16) (sched : Fin 4)
  /-- COHORT_DEADLOCK (R51). -/
  | cohortDeadlock (e : Fin 16) (b : Fin 32) (c : Fin 32)
  /-- PREEMPT_REQUEST (R54). -/
  | preemptRequest (e : Fin 16)
  /-- PREEMPT_SAVE (R57). -/
  | preemptSave (e : Fin 16)
  /-- BLOCK_RESTORE (R55). -/
  | blockRestore (e : Fin 16) (n : BitVec 16) (ext : List Host.Cell)
  /-- BLOCK_TERMINATION (R60). -/
  | blockTermination (e : Fin 16) (b : Fin 32) (fetched : Option (Fin 128 × DWord))
  /-- BLOCK_RETIRE (R93). -/
  | blockRetire (e : Fin 16) (b : Fin 32)
  /-- LOAD_COMPLETION (R151). -/
  | loadCompletion (e : Fin 16) (id : BitVec 32) (ext : List Host.Cell)
  /-- ATOMIC_COMPLETION (R157). -/
  | atomicCompletion (e : Fin 16) (id : BitVec 32) (old : DWord) (ok : Bool)
  /-- XFER_COPY_COMPLETE (R102). -/
  | xferCopyComplete (e : Fin 16) (id : BitVec 32) (ext : List Host.Cell)
  /-- IADD (R78). -/
  | iadd (e : Fin 16) (slot : Fin 128) (w : BitVec 56)
  /-- ISUB (R78). -/
  | isub (e : Fin 16) (slot : Fin 128) (w : BitVec 56)
  /-- IMUL (R78). -/
  | imul (e : Fin 16) (slot : Fin 128) (w : BitVec 56)
  /-- IMAD (R76). -/
  | imad (e : Fin 16) (slot : Fin 128) (w : BitVec 56)
  /-- IMIN (R78). -/
  | imin (e : Fin 16) (slot : Fin 128) (w : BitVec 56)
  /-- IMAX (R78). -/
  | imax (e : Fin 16) (slot : Fin 128) (w : BitVec 56)
  /-- AND (R76). -/
  | iand (e : Fin 16) (slot : Fin 128) (w : BitVec 56)
  /-- OR (R76). -/
  | ior (e : Fin 16) (slot : Fin 128) (w : BitVec 56)
  /-- XOR (R76). -/
  | ixor (e : Fin 16) (slot : Fin 128) (w : BitVec 56)
  /-- SHL (R79). -/
  | shl (e : Fin 16) (slot : Fin 128) (w : BitVec 56)
  /-- SHR (R79). -/
  | shr (e : Fin 16) (slot : Fin 128) (w : BitVec 56)
  /-- POPC (R76). -/
  | popc (e : Fin 16) (slot : Fin 128) (w : BitVec 56)
  /-- CLZ (R76). -/
  | clz (e : Fin 16) (slot : Fin 128) (w : BitVec 56)
  /-- BFE (R79). -/
  | bfe (e : Fin 16) (slot : Fin 128) (w : BitVec 56)
  /-- SETP_I (R78). -/
  | setpI (e : Fin 16) (slot : Fin 128) (w : BitVec 56)
  /-- SEL (R78). -/
  | sel (e : Fin 16) (slot : Fin 128) (w : BitVec 56)
  /-- FADD (R80). -/
  | fadd (e : Fin 16) (slot : Fin 128) (w : BitVec 56)
  /-- FMUL (R80). -/
  | fmul (e : Fin 16) (slot : Fin 128) (w : BitVec 56)
  /-- FFMA (R80). -/
  | ffma (e : Fin 16) (slot : Fin 128) (w : BitVec 56)
  /-- FMIN (R81). -/
  | fmin (e : Fin 16) (slot : Fin 128) (w : BitVec 56)
  /-- FMAX (R81). -/
  | fmax (e : Fin 16) (slot : Fin 128) (w : BitVec 56)
  /-- SETP_F (R80). -/
  | setpF (e : Fin 16) (slot : Fin 128) (w : BitVec 56)
  /-- FRND (R76). -/
  | frnd (e : Fin 16) (slot : Fin 128) (w : BitVec 56)
  /-- HADD2 (R80). -/
  | hadd2 (e : Fin 16) (slot : Fin 128) (w : BitVec 56)
  /-- HMUL2 (R80). -/
  | hmul2 (e : Fin 16) (slot : Fin 128) (w : BitVec 56)
  /-- HFMA2 (R80). -/
  | hfma2 (e : Fin 16) (slot : Fin 128) (w : BitVec 56)
  /-- HMIN2 (R81). -/
  | hmin2 (e : Fin 16) (slot : Fin 128) (w : BitVec 56)
  /-- HMAX2 (R81). -/
  | hmax2 (e : Fin 16) (slot : Fin 128) (w : BitVec 56)
  /-- SETP_H2 (R81). -/
  | setpH2 (e : Fin 16) (slot : Fin 128) (w : BitVec 56)
  /-- HDOT2 (R76). -/
  | hdot2 (e : Fin 16) (slot : Fin 128) (w : BitVec 56)
  /-- CVT (R83). -/
  | cvt (e : Fin 16) (slot : Fin 128) (w : BitVec 56)
  /-- RCP (R82). -/
  | rcp (e : Fin 16) (slot : Fin 128) (w : BitVec 56)
  /-- RSQ (R82). -/
  | rsq (e : Fin 16) (slot : Fin 128) (w : BitVec 56)
  /-- SQRT (R82). -/
  | sqrt (e : Fin 16) (slot : Fin 128) (w : BitVec 56)
  /-- EXP2 (R82). -/
  | exp2 (e : Fin 16) (slot : Fin 128) (w : BitVec 56)
  /-- LOG2 (R82). -/
  | log2 (e : Fin 16) (slot : Fin 128) (w : BitVec 56)
  /-- SIN (R82). -/
  | sin (e : Fin 16) (slot : Fin 128) (w : BitVec 56)
  /-- COS (R82). -/
  | cos (e : Fin 16) (slot : Fin 128) (w : BitVec 56)
  /-- TANH (R82). -/
  | tanh (e : Fin 16) (slot : Fin 128) (w : BitVec 56)
  /-- LD (R85). -/
  | ld (e : Fin 16) (slot : Fin 128) (w : BitVec 56)
  /-- ST (R87). -/
  | st (e : Fin 16) (slot : Fin 128) (w : BitVec 56)
  /-- PRF (R216). -/
  | prf (e : Fin 16) (slot : Fin 128) (w : BitVec 56) (ext : List Host.Cell)
  /-- ATOM_ADD (R89). -/
  | atomAdd (e : Fin 16) (slot : Fin 128) (w : BitVec 56)
  /-- ATOM_MIN (R89). -/
  | atomMin (e : Fin 16) (slot : Fin 128) (w : BitVec 56)
  /-- ATOM_MAX (R89). -/
  | atomMax (e : Fin 16) (slot : Fin 128) (w : BitVec 56)
  /-- ATOM_AND (R89). -/
  | atomAnd (e : Fin 16) (slot : Fin 128) (w : BitVec 56)
  /-- ATOM_OR (R89). -/
  | atomOr (e : Fin 16) (slot : Fin 128) (w : BitVec 56)
  /-- ATOM_XOR (R89). -/
  | atomXor (e : Fin 16) (slot : Fin 128) (w : BitVec 56)
  /-- ATOM_EXCH (R89). -/
  | atomExch (e : Fin 16) (slot : Fin 128) (w : BitVec 56)
  /-- ATOM_CAS (R89). -/
  | atomCas (e : Fin 16) (slot : Fin 128) (w : BitVec 56)
  /-- ATOM_FADD (R89). -/
  | atomFadd (e : Fin 16) (slot : Fin 128) (w : BitVec 56)
  /-- ATOM_INC (R89). -/
  | atomInc (e : Fin 16) (slot : Fin 128) (w : BitVec 56)
  /-- BRA (R91). -/
  | bra (e : Fin 16) (slot : Fin 128) (w : BitVec 56)
  /-- BRX (R92). -/
  | brx (e : Fin 16) (slot : Fin 128) (w : BitVec 56)
  /-- CALL (R92). -/
  | call (e : Fin 16) (slot : Fin 128) (w : BitVec 56)
  /-- RET (R92). -/
  | ret (e : Fin 16) (slot : Fin 128) (w : BitVec 56)
  /-- EXIT (R93). -/
  | exit (e : Fin 16) (slot : Fin 128) (w : BitVec 56)
  /-- BAR_BLOCK (R53). -/
  | barBlock (e : Fin 16) (slot : Fin 128) (w : BitVec 56)
  /-- NOP (R76). -/
  | nop (e : Fin 16) (slot : Fin 128) (w : BitVec 56)
  /-- TRAP (R106). -/
  | trap (e : Fin 16) (slot : Fin 128) (w : BitVec 56)
  /-- SHFL (R96). -/
  | shfl (e : Fin 16) (slot : Fin 128) (w : BitVec 56)
  /-- VOTE (R98). -/
  | vote (e : Fin 16) (slot : Fin 128) (w : BitVec 56)
  /-- BALLOT (R98). -/
  | ballot (e : Fin 16) (slot : Fin 128) (w : BitVec 56)
  /-- RED (R97). -/
  | red (e : Fin 16) (slot : Fin 128) (w : BitVec 56)
  /-- SCAN (R97). -/
  | scan (e : Fin 16) (slot : Fin 128) (w : BitVec 56)
  /-- MATCH (R98). -/
  | matchLanes (e : Fin 16) (slot : Fin 128) (w : BitVec 56)
  /-- TEX (R99). -/
  | tex (e : Fin 16) (slot : Fin 128) (w : BitVec 56) (ext : List Host.Cell)
  /-- SURF_LD (R99). -/
  | surfLd (e : Fin 16) (slot : Fin 128) (w : BitVec 56) (ext : List Host.Cell)
  /-- SURF_ST (R99). -/
  | surfSt (e : Fin 16) (slot : Fin 128) (w : BitVec 56) (ext : List Host.Cell)
  /-- TILE_LD (R101). -/
  | tileLd (e : Fin 16) (slot : Fin 128) (w : BitVec 56)
  /-- TILE_ST (R101). -/
  | tileSt (e : Fin 16) (slot : Fin 128) (w : BitVec 56)
  /-- XFER (R102). -/
  | xfer (e : Fin 16) (slot : Fin 128) (w : BitVec 56)
  /-- XFER_WAIT (R102). -/
  | xferWait (e : Fin 16) (slot : Fin 128) (w : BitVec 56)
  /-- FRAG_KILL (R103). -/
  | fragKill (e : Fin 16) (slot : Fin 128) (w : BitVec 56)
  /-- MOV (R76). -/
  | mov (e : Fin 16) (slot : Fin 128) (w : BitVec 56)
  /-- RDSR (R104). -/
  | rdsr (e : Fin 16) (slot : Fin 128) (w : BitVec 56)
  /-- FENCE (R160). -/
  | fence (e : Fin 16) (slot : Fin 128) (w : BitVec 56)
  /-- PLOP (R76). -/
  | plop (e : Fin 16) (slot : Fin 128) (w : BitVec 56)
  /-- P2R (R76). -/
  | p2r (e : Fin 16) (slot : Fin 128) (w : BitVec 56)
  /-- REG_TO_PREDICATE (R76). -/
  | regToPredicate (e : Fin 16) (slot : Fin 128) (w : BitVec 56)
  /-- TMA_MM (R122). -/
  | tmaMm (e : Fin 16) (slot : Fin 128) (w : BitVec 56) (w2 : DWord)
  /-- ACC_DRAIN (R130). -/
  | accDrain (e : Fin 16) (slot : Fin 128) (w : BitVec 56) (w2 : DWord)
  /-- ACC_COPY (R136). -/
  | accCopy (e : Fin 16) (slot : Fin 128) (w : BitVec 56) (w2 : DWord)
  /-- TMA_MMF (R128). -/
  | tmaMmf (e : Fin 16) (slot : Fin 128) (w : BitVec 56)
  /-- ACC_SWAP (R121). -/
  | accSwap (e : Fin 16) (slot : Fin 128) (w : BitVec 56)
  /-- ACC_ZERO (R135). -/
  | accZero (e : Fin 16) (slot : Fin 128) (w : BitVec 56)
  /-- ACC_LD (R135). -/
  | accLd (e : Fin 16) (slot : Fin 128) (w : BitVec 56)
  /-- ACC_ST (R135). -/
  | accSt (e : Fin 16) (slot : Fin 128) (w : BitVec 56)
  /-- ACC_MAX (R138). -/
  | accMax (e : Fin 16) (slot : Fin 128) (w : BitVec 56)
  /-- ACC_MIN (R138). -/
  | accMin (e : Fin 16) (slot : Fin 128) (w : BitVec 56)
  /-- ACC_TOPK (R138). -/
  | accTopk (e : Fin 16) (slot : Fin 128) (w : BitVec 56)
  /-- ACC_FLAGS (R135). -/
  | accFlags (e : Fin 16) (slot : Fin 128) (w : BitVec 56)
  /-- TMA_WAIT (R143). -/
  | tmaWait (e : Fin 16) (slot : Fin 128) (w : BitVec 56)
  /-- FRAG_LD (R127). -/
  | fragLd (e : Fin 16) (slot : Fin 128) (w : BitVec 56)
  /-- FRAG_ST (R137). -/
  | fragSt (e : Fin 16) (slot : Fin 128) (w : BitVec 56)
  /-- TEPHRA_OP_START (R142). -/
  | tephraOpStart (e : Fin 16)
  /-- TEPHRA_OP_COMPLETE (R142). -/
  | tephraOpComplete (e : Fin 16)
  /-- GEYSER_OP_START (R142). -/
  | geyserOpStart (e : Fin 16)
  /-- GEYSER_OP_COMPLETE (R142). -/
  | geyserOpComplete (e : Fin 16)
  /-- TPH_SEED_WRITE (R148). -/
  | tphSeedWrite (m : Master) (e : Fin 16) (v : DWord)
  /-- SINTER_ACCESS (R182). -/
  | sinterAccess (cl : SinClient) (k : SinKind) (addr : DWord) (host : Bool) (n : BitVec 8) (hint : BitVec 2) (data : List Byte) (ecc : SinEcc) (sector : BitVec 2) (stream : BitVec 8)
  /-- SINTER_FILL (R187). -/
  | sinterFill (line : DWord) (host : Bool) (data : List Byte)
  /-- WC_BUFFER_IDLE_FLUSH (R183). -/
  | wcBufferIdleFlush (line : DWord)
  /-- STREAM_TRACKER_TIMEOUT (R191). -/
  | streamTrackerTimeout (k : Fin 16)
  /-- WAY_WINDOW_RESTART (R197). -/
  | wayWindowRestart (slice way : Fin 16)
  /-- SIN_MAINT_CLEAN (R192). -/
  | sinMaintClean (m : Master) (scope : BitVec 2) (irq : Bool) (unc : List DWord)
  /-- SIN_MAINT_CLEAN_INVALIDATE (R192). -/
  | sinMaintCleanInvalidate (m : Master) (scope : BitVec 2) (irq : Bool) (unc : List DWord)
  /-- SIN_MAINT_DISCARD (R192). -/
  | sinMaintDiscard (m : Master) (scope : BitVec 2) (irq : Bool)
  /-- SIN_MAINT_DONE (R193). -/
  | sinMaintDone
  /-- SIN_POLICY_WRITE (R184). -/
  | sinPolicyWrite (m : Master) (n : Fin 17) (val : Word)
  /-- SIN_TRANSITION_DONE (R184). -/
  | sinTransitionDone
  /-- VA_TRANSLATE (R213). -/
  | vaTranslate (id : BitVec 16) (stream : Fin 70) (va : DWord) (kind : VaKind)
  /-- MISS_HANDLER_GRANT (R221). -/
  | missHandlerGrant
  /-- ATS_COMPLETION (R214). -/
  | atsCompletion (tag : BitVec 7) (ok : Bool) (tbase : DWord) (lg : BitVec 6) (r w u g : Bool)
  /-- ATS_COMPLETION_TIMEOUT (R221). -/
  | atsCompletionTimeout (tag : Fin 32)
  /-- PAGE_REQUEST_SEND (R224). -/
  | pageRequestSend
  /-- PRG_RESPONSE (R225). -/
  | prgResponse (prgi : BitVec 9) (code : BitVec 4)
  /-- PRI_RESET (R228). -/
  | priReset (enable : Bool) (alloc : BitVec 9)
  /-- ATS_INVALIDATE_REQUEST (R230). -/
  | atsInvalidateRequest (itag : BitVec 5) (va : DWord) (npg : BitVec 6) (pasid : Option (BitVec 20)) (global : Bool)
  /-- INVALIDATE_DONE (R231). -/
  | invalidateDone (seqs : List Nat)
  /-- DTU_INV_RANGE (R245). -/
  | dtuInvRange (m : Master) (npg : BitVec 5) (pasid : BitVec 20)
  /-- DTU_INV_PASID (R245). -/
  | dtuInvPasid (m : Master) (pasid : BitVec 20)
  /-- DTU_INV_ALL (R245). -/
  | dtuInvAll (m : Master)
  /-- DTU_AC_FLUSH (R237). -/
  | dtuAcFlush (m : Master)
  /-- DTU_MN_ENABLE (R247). -/
  | dtuMnEnable (m : Master) (log2sz : BitVec 5)
  /-- DTU_MN_CONS_WRITE (R240). -/
  | dtuMnConsWrite (m : Master) (cons : Word)
  /-- DTU_DMWIN_WRITE (R212). -/
  | dtuDmwinWrite (m : Master) (lim : Bool) (value : DWord)
  /-- SYN_SIGNAL (R257). -/
  | synSignal (m : Master) (err : BitVec 16)
  /-- SYN_QUERY (R283). -/
  | synQuery (m : Master)
  /-- SYN_CLEAR_ERR (R260). -/
  | synClearErr (m : Master)
  /-- SYN_DESTROY (R260). -/
  | synDestroy (m : Master)
  /-- SYN_RESUME (R283). -/
  | synResume (m : Master)
  /-- SYN_FLUSH (R272). -/
  | synFlush (m : Master)
  /-- IMPORT_PORT_SIGNAL (R270). -/
  | importPortSignal (m : Master) (k : Fin 8) (value : DWord)
  /-- TEARDOWN_QUEUE (R279). -/
  | teardownQueue (m : Master)
  /-- TEARDOWN_CONTEXT (R277). -/
  | teardownContext (m : Option Master)
  /-- TEARDOWN_COMPLETE (R277). -/
  | teardownComplete (res unreach : BitVec 3)
  /-- QUEUE_MAKE_RESIDENT (R273). -/
  | queueMakeResident (ext : List Host.Cell)
  /-- QUEUE_EVICT (R274). -/
  | queueEvict (ext : List Host.Cell)
  /-- DOORBELL (R287). -/
  | doorbell (m : Master) (k : BitVec 17) (handle tail : Word)
  /-- PACKET_FETCH (R297). -/
  | packetFetch (slot : Fin 64) (ext : List Host.Cell)
  /-- PACKET_PARSE (R293). -/
  | packetParse (slot : Fin 64) (ext : List Host.Cell)
  /-- PACKET_COMMIT (R298). -/
  | packetCommit (slot : Fin 64) (ext : List Host.Cell)
  /-- PACKET_RETIRE (R296). -/
  | packetRetire (id : BitVec 32) (ext : List Host.Cell)
  /-- PKT_NOP (R292). -/
  | pktNop (id : BitVec 32)
  /-- DISPATCH (R303). -/
  | pktDispatch (id : BitVec 32)
  /-- COND (R301). -/
  | pktCond (id : BitVec 32) (value : DWord) (err : BitVec 16)
  /-- RECORD (R308). -/
  | pktRecord (id : BitVec 32)
  /-- PKT_WRITE (R309). -/
  | pktWrite (id : BitVec 32)
  /-- GRAPH_LAUNCH (R312). -/
  | graphLaunch (id : BitVec 32)
  /-- GRAPH_PATCH (R313). -/
  | graphPatch (id : BitVec 32) (ext : List Host.Cell)
  /-- EMBER_IDLE_POWER_OFF (R316). -/
  | emberIdlePowerOff (e : Fin 16)
  /-- PREEMPT_DECISION (R318). -/
  | preemptDecision
  /-- QUEUE_DEADLINE_MISS (R321). -/
  | queueDeadlineMiss (slot : Fin 64)
  /-- RP_BEGIN (R327). -/
  | rpBegin (id : BitVec 32)
  /-- RP_STATE (R330). -/
  | rpState (id : BitVec 32)
  /-- RP_DRAW (R331). -/
  | rpDraw (id : BitVec 32)
  /-- RP_END (R342). -/
  | rpEnd (id : BitVec 32)
  /-- VERTEX_BATCH (R332). -/
  | vertexBatch (ext : List Host.Cell)
  /-- PRIMITIVE_BINNING (R335). -/
  | primitiveBinning (ext : List Host.Cell)
  /-- BIN_SPILL (R336). -/
  | binSpill (ext : List Host.Cell)
  /-- TILE_ASSIGN (R338). -/
  | tileAssign (ext : List Host.Cell)
  /-- TVU_SEGMENT (R339). -/
  | tvuSegment (e : Fin 16) (b : Fin 32)
  /-- FRAGMENT_COHORT (R341). -/
  | fragmentCohort (e : Fin 16) (b : Fin 32)
  /-- TILE_KERNEL_BLOCK (R343). -/
  | tileKernelBlock (e : Fin 16) (b : Fin 32)
  /-- TILE_RESOLVE (R344). -/
  | tileResolve (e : Fin 16) (b : Fin 32)
  /-- L1_INVALIDATE (R355). -/
  | l1Invalidate (m : Master) (e : Fin 16)
  /-- GFX_CALRES_WRITE (R354). -/
  | gfxCalresWrite (m : Master) (v : Word)
  /-- DCO_CHANNEL_ENABLE (R364). -/
  | dcoChannelEnable (m : Master) (c : Fin 2) (dlen ulps : Bool) (irq : BitVec 3)
  /-- DCO_CHANNEL_DISABLE (R384). -/
  | dcoChannelDisable (m : Master) (c : Fin 2) (dlen ulps : Bool) (irq : BitVec 3)
  /-- DCO_CHANNEL_STOP (R384). -/
  | dcoChannelStop (c : Fin 2)
  /-- DCO_FRAME_START (R361). -/
  | dcoFrameStart (c : Fin 2) (late : Bool) (ext : List Host.Cell)
  /-- DCO_LATCH (R378). -/
  | dcoLatch (c : Fin 2) (far : List (Option (List Byte)))
  /-- DCO_COMMIT_SUBMIT (R367). -/
  | dcoCommitSubmit (m : Master) (c : Fin 2) (dpa : BitVec 38)
  /-- DCO_COMMIT_CHECK (R367). -/
  | dcoCommitCheck (c : Fin 2) (acqFar relFar : Bool) (ext : List Byte)
  /-- DCO_UNDERFLOW (R377). -/
  | dcoUnderflow (c : Fin 2) (line x : BitVec 16)
  /-- DCO_MESH_LOAD (R373). -/
  | dcoMeshLoad (m : Master) (c : Fin 2) (cell : BitVec 2) (gh gw : BitVec 12)
  /-- DCO_MESH_LOAD_DONE (R373). -/
  | dcoMeshLoadDone (c : Fin 2) (ext : List Byte)
  /-- DCS_GO (R383). -/
  | dcsGo (m : Master) (c : Fin 2) (read : Bool) (p2 p1 dt : Byte)
  /-- DCS_DONE (R383). -/
  | dcsDone (c : Fin 2) (err : Bool) (rd : List Byte)
  /-- CIF_PORT_ENABLE (R397). -/
  | cifPortEnable (m : Master) (p : Fin 4) (fsen : Bool) (outfmt vc : BitVec 2) (dt : BitVec 6)
  /-- CIF_PORT_DISABLE (R395). -/
  | cifPortDisable (m : Master) (p : Fin 4) (fsen : Bool) (outfmt vc : BitVec 2) (dt : BitVec 6)
  /-- CSI_FRAME_START_PACKET (R391). -/
  | csiFrameStartPacket (p : Fin 4) (vc : BitVec 2) (ecc : Fin 3)
  /-- CSI_LONG_PACKET (R388). -/
  | csiLongPacket (p : Fin 4) (vc : BitVec 2) (dt : BitVec 6) (ecc : Fin 3) (crc full : Bool) (payload : List Byte)
  /-- CSI_FRAME_END_PACKET (R394). -/
  | csiFrameEndPacket (p : Fin 4) (vc : BitVec 2) (ecc : Fin 3)
  /-- CIF_FRAME_COMPLETE (R392). -/
  | cifFrameComplete (p : Fin 4)
  /-- FSYNC_PULSE (R396). -/
  | fsyncPulse (p : Fin 4)
  /-- RTC_CAPTURE (R400). -/
  | rtcCapture (m : Master)
  /-- AOC_FRAME (R406). -/
  | aocFrame (rows : List (List (BitVec 10)))
  /-- ME_RESULT (R407). -/
  | meResult
  /-- FIE_GO (R410). -/
  | fieGo (m : Master) (auto_ : Bool) (list : BitVec 18)
  /-- FIE_RUN_DONE (R409). -/
  | fieRunDone
  /-- COMPARATOR_TRIP (R411). -/
  | comparatorTrip (trips levels : BitVec 4)
  /-- MCU_RUN (R414). -/
  | mcuRun (m : Master) (run : Bool) (div : BitVec 2)
  /-- EXT_WAIT (R416). -/
  | extWait
  /-- EXT_WAKE (R416). -/
  | extWake
  /-- EXT_FIE_RUN (R416). -/
  | extFieRun (list : Word)
  /-- EXT_LOG (R416). -/
  | extLog (code val : Word)
  /-- EXT_TIME (R416). -/
  | extTime
  /-- EXT_MBOX (R416). -/
  | extMbox (off len : Word)
  /-- EXT_ENTRY_TIMEOUT (R415). -/
  | extEntryTimeout
  /-- CHL_PORT_ENABLE (R425). -/
  | chlPortEnable (m : Master) (p : Fin 2) (enc : Bool) (maxRate maxWidth : BitVec 2)
  /-- CHL_PORT_DISABLE (R451). -/
  | chlPortDisable (m : Master) (p : Fin 2) (enc : Bool) (maxRate maxWidth : BitVec 2)
  /-- CHL_DETECT_POLL (R425). -/
  | chlDetectPoll (p : Fin 2) (term : BitVec 8)
  /-- CHL_TRAIN_RATE (R426). -/
  | chlTrainRate (p : Fin 2) (rate : Fin 3) (pass : BitVec 8) (maxRate maxWidth : BitVec 2) (hash : Word) (peer : BitVec 1) (inv : BitVec 8) (rev : Bool)
  /-- CHL_RETRAIN (R427). -/
  | chlRetrain (m : Master) (p : Fin 2)
  /-- CHL_HOLD_EXPIRY (R427). -/
  | chlHoldExpiry (p : Fin 2)
  /-- LOSS_OF_SIGNAL (R448). -/
  | lossOfSignal (p : Fin 2)
  /-- CREDIT_TIMEOUT (R448). -/
  | creditTimeout (p : Fin 2)
  /-- REQUEST_TIMEOUT (R448). -/
  | requestTimeout (tag : BitVec 16)
  /-- AUTH_RETRY (R448). -/
  | authRetry (p : Fin 2)
  /-- REDETECT_TIMER (R448). -/
  | redetectTimer (p : Fin 2)
  /-- FLIT_RECEIVE (R428). -/
  | flitReceive (p : Fin 2) (body : List Byte) (crc : BitVec 16) (plain : List Byte) (e : ChlEnv)
  /-- NAK_RESEND_TIMER (R437). -/
  | nakResendTimer (p : Fin 2)
  /-- REPLAY_TIMEOUT (R437). -/
  | replayTimeout (p : Fin 2)
  /-- IDLE (R430). -/
  | chlIdle (p : Fin 2)
  /-- ACK (R436). -/
  | chlAck (p : Fin 2) (seq : BitVec 12)
  /-- NAK (R437). -/
  | chlNak (p : Fin 2) (seq : BitVec 12)
  /-- CREDIT (R435). -/
  | chlCredit (p : Fin 2) (vc : Fin 4) (n : BitVec 10)
  /-- GTAG (R442). -/
  | chlGtag (p : Fin 2) (g : DWord) (e : ChlEnv)
  /-- RD (R430). -/
  | chlRd (p : Fin 2) (src dst : Fin 8) (tag : BitVec 16) (line : BitVec 37)
  /-- RDB (R433). -/
  | chlRdb (p : Fin 2) (src dst : Fin 8) (tag : BitVec 16) (line : BitVec 37) (n : BitVec 5)
  /-- WR (R430). -/
  | chlWr (p : Fin 2) (src dst : Fin 8) (tag : BitVec 16) (line : BitVec 37) (n : BitVec 5) (data : List Byte) (poison : Bool)
  /-- WRP (R430). -/
  | chlWrp (p : Fin 2) (src dst : Fin 8) (tag : BitVec 16) (line : BitVec 37) (mask : BitVec 128) (data : List Byte) (poison : Bool)
  /-- ATM (R430). -/
  | chlAtm (p : Fin 2) (src dst : Fin 8) (tag : BitVec 16) (dpa : BitVec 44) (op : Fin 10) (w64 sgn : Bool) (b c : DWord)
  /-- RDR (R430). -/
  | chlRdr (p : Fin 2) (src dst : Fin 8) (tag : BitVec 16) (st : Fin 7) (n : BitVec 6) (data : List Byte) (poison : Bool)
  /-- RSP (R430). -/
  | chlRsp (p : Fin 2) (src dst : Fin 8) (tag : BitVec 16) (st : Fin 7) (old : DWord)
  /-- SIGPEND (R431). -/
  | sigpend (p : Fin 2) (src dst : Fin 8) (h : Word) (v : DWord)
  /-- SIG (R431). -/
  | chlSig (p : Fin 2) (src dst : Fin 8) (h : Word) (code : BitVec 16) (v : DWord)
  /-- WAIT (R431). -/
  | chlWait (p : Fin 2) (src dst : Fin 8) (h id : Word) (w : DWord)
  /-- WAITSAT (R431). -/
  | chlWaitsat (p : Fin 2) (src dst : Fin 8) (id : Word) (err : BitVec 16) (e : Bool)
  /-- DB (R287). -/
  | chlDb (p : Fin 2) (src dst : Fin 8) (h tail : Word) (page : Byte)
  /-- OBJCHK (R298). -/
  | objchk (p : Fin 2) (src dst : Fin 8) (h : Word) (kind : Fin 4)
  /-- OBJRES (R298). -/
  | objres (p : Fin 2) (src dst : Fin 8) (h : Word) (kind : Fin 4) (res : Byte)
  /-- INV (R235). -/
  | chlInv (p : Fin 2) (src dst : Fin 8) (va : DWord) (pasid : Word) (npg : BitVec 6) (global : Bool) (seq : Word)
  /-- INVDONE (R235). -/
  | chlInvdone (p : Fin 2) (src dst : Fin 8) (seq : Word)
  /-- PRXREQ (R234). -/
  | prxreq (p : Fin 2) (src dst : Fin 8) (page : Bool) (tag : BitVec 7) (pasid : BitVec 20) (va : DWord) (w : Bool)
  /-- PRXRSP (R234). -/
  | prxrsp (p : Fin 2) (src dst : Fin 8) (page : Bool) (tag : BitVec 7) (ok : Bool) (tbase : DWord) (lg : BitVec 6) (r w u g : Bool) (code : BitVec 4)
  /-- HELLO (R441). -/
  | hello (p : Fin 2) (uid : BitVec 128) (nonce key : List Byte) (enc : Bool) (e : ChlEnv)
  /-- PROOF (R441). -/
  | proof (p : Fin 2) (sig : BitVec 512) (e : ChlEnv)
  /-- ROLLINFO (R443). -/
  | rollinfo (p : Fin 2) (uid : BitVec 128) (root : Bool) (num : Option (Fin 8)) (chain8 pending : Bool) (gen min max : Word)
  /-- ROLLSET (R443). -/
  | rollset (p : Fin 2) (num : Fin 8) (quar : Bool) (count : Fin 8) (routes hops : Word) (epoch : BitVec 16) (q0 q1 : Fin 7)
  /-- REGREQ (R25). -/
  | regreq (p : Fin 2) (src dst : Fin 8) (off : BitVec 25) (write : Bool) (val : Word) (e : ChlEnv)
  /-- REGRSP (R27). -/
  | regrsp (p : Fin 2) (src dst : Fin 8) (off : BitVec 25) (write err : Bool) (val : Word)
  /-- FWBLK (R566). -/
  | fwblk (p : Fin 2) (idx : BitVec 16) (data : List Byte) (e : ChlEnv)
  /-- TSYNC_REQ (R506). -/
  | tsyncReq (port : Fin 2) (seq : BitVec 8) (t2 t3 : BitVec 80)
  /-- TSYNC_RSP (R506). -/
  | tsyncRsp (seq : BitVec 8) (locked : Bool) (t2 t4 : BitVec 80)
  /-- TSYNC_FOLLOW (R507). -/
  | tsyncFollow (seq : BitVec 8) (t3 : BitVec 80)
  /-- SLEEP (R446). -/
  | chlSleep (p : Fin 2)
  /-- WAKE (R520). -/
  | chlWake (p : Fin 2) (from_ : Option (Fin 8 × Fin 8)) (left : Fin 4)
  /-- DMWIN (R212). -/
  | chlDmwin (p : Fin 2) (src dst : Fin 8) (base lim : DWord)
  /-- CHNRST (R657). -/
  | chnrst (p : Fin 2) (e : ChlEnv)
  /-- IRQ (R464). -/
  | chlIrq (p : Fin 2) (src dst : Fin 8) (v : Fin 16) (die : Fin 8)
  /-- SLOTREQ (R568). -/
  | slotreq (p : Fin 2) (src dst : Fin 8) (phase : BitVec 3) (step sub cls : Byte) (uid : BitVec 128)
  /-- SLOTGRANT (R568). -/
  | slotgrant (p : Fin 2) (src dst : Fin 8) (phase : BitVec 3) (step sub cls : Byte) (uid : BitVec 128)
  /-- SLOTRET (R568). -/
  | slotret (p : Fin 2) (src dst : Fin 8) (phase : BitVec 3) (step sub cls : Byte) (uid : BitVec 128)
  /-- BOOTREP_REPORT (R570). -/
  | bootrepReport (p : Fin 2) (src dst : Fin 8) (phase : BitVec 3) (step sub cls : Byte) (uid : BitVec 128)
  /-- FLASHREC (R567). -/
  | flashrec (p : Fin 2) (src dst : Fin 8) (journal : Bool) (rec_ : List Byte)
  /-- ROLL_CALL (R443). -/
  | rollCall (walk : List RollDie) (ring : Bool)
  /-- CHL_ROLLREQ (R453). -/
  | chlRollreq (m : Master)
  /-- TSYNC_INTERVAL (R506). -/
  | tsyncInterval (t1 : BitVec 80)
  /-- BAR4_ACCESS (R459). -/
  | bar4Access (off : BitVec 28) (write : Bool) (n : BitVec 13) (data : List Byte) (poison : Bool)
  /-- BAR4_ATOMICOP (R460). -/
  | bar4Atomicop (off : BitVec 28) (op : Fin 3) (w64 : Bool) (b c : DWord)
  /-- HIF_APERTURE_RESOLVE (R459). -/
  | hifApertureResolve (m : Master) (n : Fin 16) (val : DWord) (e : BusEnv)
  /-- FLR (R461). -/
  | flr (env : BootEnv)
  /-- HIF_LINK_RESET (R461). -/
  | hifLinkReset (kind : Fin 3) (up : Bool) (speed width : BitVec 4)
  /-- OWN_CLAIM (R471). -/
  | ownClaim (m : Master) (key : BitVec 16)
  /-- OWN_FORCED_CLAIM (R476). -/
  | ownForcedClaim (m : Master) (key : BitVec 16)
  /-- ELECTION_WINDOW_END (R472). -/
  | electionWindowEnd
  /-- OWN_HB (R474). -/
  | ownHb (m : Master) (beat : Bool) (m1dies : List Nat)
  /-- LEASE_EXPIRY (R478). -/
  | leaseExpiry
  /-- OWN_RELEASE (R476). -/
  | ownRelease (m : Master) (key : BitVec 16)
  /-- OWN_OFFER (R476). -/
  | ownOffer (m : Master) (key : BitVec 16) (to_ : BitVec 2)
  /-- OFFER_LAPSE (R476). -/
  | offerLapse
  /-- TXN_BEGIN (R482). -/
  | txnBegin (m : Master) (mask : BitVec 17)
  /-- TXN_COMMIT (R484). -/
  | txnCommit (m : Master) (slot : Fin 4) (bound : BitVec 3) (ch : BitVec 2)
  /-- TXN_ABORT (R486). -/
  | txnAbort (m : Master) (slot : Fin 4)
  /-- TXN_BOUNDARY_APPLY (R485). -/
  | txnBoundaryApply (slot : Fin 4) (e : BusEnv)
  /-- TXN_TIMEOUT (R486). -/
  | txnTimeout (slot : Fin 4)
  /-- ECLK_REQUEST (R499). -/
  | eclkRequest (m : Master) (step : BitVec 3)
  /-- ECLK_RAIL_SETTLED (R500). -/
  | eclkRailSettled (pgEmb : Bool)
  /-- ECLK_VDD_TIMEOUT (R500). -/
  | eclkVddTimeout
  /-- FCLK_SWITCH (R501). -/
  | fclkSwitch
  /-- RPLL_UNLOCK (R497). -/
  | rpllUnlock (rtc : BitVec 48)
  /-- RPLL_RELOCK (R497). -/
  | rpllRelock (rtc : BitVec 48)
  /-- TB_SET (R510). -/
  | tbSet (m : Master) (tbase : DWord)
  /-- TB_CAPTURE (R511). -/
  | tbCapture (k : Fin 2) (falling : Bool)
  /-- PWR_REQ_S2 (R527). -/
  | pwrReqS2 (m : Master)
  /-- PWR_REQ_S3 (R527). -/
  | pwrReqS3 (m : Master)
  /-- PWR_REQ_S4 (R531). -/
  | pwrReqS4 (m : Master)
  /-- DOMAIN_DRAIN_DONE (R518). -/
  | domainDrainDone (d : Fin 32)
  /-- STATE_ENTRY_COMPLETE (R529). -/
  | stateEntryComplete (rtc : BitVec 48)
  /-- S1_ENTRY (R525). -/
  | s1Entry
  /-- S1_EXIT (R526). -/
  | s1Exit
  /-- S2_EXIT_COMPLETE (R533). -/
  | s2ExitComplete
  /-- S3_EXIT_COMPLETE (R534). -/
  | s3ExitComplete (rtc : BitVec 48) (us : BitVec 16) (env : BootEnv)
  /-- PWR_GOOD_RISE (R534). -/
  | pwrGoodRise
  /-- PWR_GOOD_TIMEOUT (R536). -/
  | pwrGoodTimeout
  /-- PWR_DOM_REQ_WRITE (R517). -/
  | pwrDomReqWrite (m : Master) (req : BitVec 5)
  /-- RAMP_PASS (R521). -/
  | rampPass (d : Fin 32)
  /-- RAMP_WINDOW_ABORT (R522). -/
  | rampWindowAbort (d : Fin 32)
  /-- RAMP_CURRENT_ABORT (R522). -/
  | rampCurrentAbort (d : Fin 32)
  /-- POWER_MEASUREMENT (R542). -/
  | powerMeasurement (p : BitVec 16)
  /-- THERMAL_CONTROL_READ (R545). -/
  | thermalControlRead
  /-- THERMAL_SENSOR_CONVERSION (R650). -/
  | thermalSensorConversion (k : Fin 24) (t : BitVec 16)
  /-- PAD_HOLD_RELEASE (R539). -/
  | padHoldRelease (m : Master)
  /-- SLOT_WAIT_TIMEOUT (R569). -/
  | slotWaitTimeout
  /-- CHAINWAIT_EXPIRY (R570). -/
  | chainwaitExpiry
  /-- MBX_INFO (R585). -/
  | mbxInfo
  /-- MBX_FLASH_WRITE (R585). -/
  | mbxFlashWrite (ok : Bool)
  /-- MBX_FLASH_ERASE (R585). -/
  | mbxFlashErase (ok : Bool)
  /-- MBX_SET_TRIAL (R585). -/
  | mbxSetTrial (ok : Bool)
  /-- MBX_RESTART (R585). -/
  | mbxRestart (env : BootEnv)
  /-- BOOT_CONFIRM (R557). -/
  | bootConfirm (m : Master)
  /-- BOOT_SVNADV (R558). -/
  | bootSvnadv (m : Master) (key : BitVec 16)
  /-- PAD_PIN_EVENT (R621). -/
  | padPinEvent (pins levels : BitVec 48)
  /-- SER_PRIVATE_TRANSFER (R625). -/
  | serPrivateTransfer (m : Master) (inst : Fin 4) (rd : Bool) (len : BitVec 6) (nostop : Bool) (addr : BitVec 7)
  /-- SER_BROADCAST_CCC (R625). -/
  | serBroadcastCcc (m : Master) (inst : Fin 4) (rd : Bool) (len : BitVec 6) (nostop : Bool) (ccc : BitVec 8)
  /-- SER_DIRECT_CCC (R625). -/
  | serDirectCcc (m : Master) (inst : Fin 4) (rd : Bool) (len : BitVec 6) (nostop : Bool) (addr : BitVec 7) (ccc : BitVec 8)
  /-- SER_ENTDAA (R626). -/
  | serEntdaa (m : Master) (inst : Fin 4) (nostop : Bool) (addr : BitVec 7)
  /-- SER_CMD_END (R625). -/
  | serCmdEnd (inst : Fin 4) (result : Fin 3) (count : BitVec 7) (data : List Byte)
  /-- SER_IBI (R626). -/
  | serIbi (inst : Fin 4) (addr : BitVec 7) (payload : List Byte)
  /-- SER_SCL_TIMEOUT (R627). -/
  | serSclTimeout (inst : Fin 4) (count : BitVec 7)
  /-- WDT_KICK (R638). -/
  | wdtKick (m : Master) (key : BitVec 16)
  /-- WDT_STOP (R640). -/
  | wdtStop (m : Master) (key : BitVec 16)
  /-- WDT_STAGE1_EXPIRY (R639). -/
  | wdtStage1Expiry
  /-- WDT_STAGE2_EXPIRY (R639). -/
  | wdtStage2Expiry (env : BootEnv)
  /-- FAULT_RECORD_WRITE (R647). -/
  | faultRecordWrite (ack : Bool)
  /-- FQ_CONS_WRITE (R648). -/
  | fqConsWrite (m : Master) (cons : Word) (ack : Bool)
  /-- FQ_ENABLE (R647). -/
  | fqEnable (m : Master) (ien : Bool) (log2sz : BitVec 5)
  /-- TEL_SNAP (R651). -/
  | telSnap (m : Master)
  /-- TEL_CLR (R651). -/
  | telClr (m : Master)
  /-- POR (R654). -/
  | porReset
  /-- POR_RELEASE (R665). -/
  | porRelease (env : BootEnv)
  /-- PIN (R668). -/
  | pinReset
  /-- CRU_RST_WARM (R675). -/
  | cruRstWarm (m : Master) (key : BitVec 16) (env : BootEnv)
  /-- CRU_RST_CHN (R657). -/
  | cruRstChn (m : Master) (key : BitVec 16) (both : Bool) (env : BootEnv)
  /-- ENG_RESET_HIF (R658). -/
  | engResetHif (m : Master)
  /-- ENG_RESET_TXN (R658). -/
  | engResetTxn (m : Master)
  /-- ENG_RESET_DTU (R242). -/
  | engResetDtu (m : Master)
  /-- ENG_RESET_SIN (R658). -/
  | engResetSin (m : Master)
  /-- ENG_RESET_DCO (R384). -/
  | engResetDco (m : Master)
  /-- ENG_RESET_CIF (R658). -/
  | engResetCif (m : Master)
  /-- ENG_RESET_PAD (R631). -/
  | engResetPad (m : Master)
  /-- ENG_RESET_FUM (R658). -/
  | engResetFum (m : Master)
  /-- ENG_RESET_EMBER (R658). -/
  | engResetEmber (m : Master) (n : Fin 16)
  /-- DAPREG_READ (R674). -/
  | dapregRead (off : Word) (e : BusEnv)
  /-- DAPREG_WRITE (R674). -/
  | dapregWrite (off data : Word) (e : BusEnv)
  /-- DAPSTAT_CLEAR (R674). -/
  | dapstatClear
  /-- JTAG_EXTEST (R673). -/
  | jtagExtest (rest restIn : BitVec 128) (out en : BitVec 48)
  /-- JTAG_SAMPLE_PRELOAD (R672). -/
  | jtagSamplePreload (rest restIn : BitVec 128) (out en : BitVec 48)
  /-- JTAG_CLAMP (R673). -/
  | jtagClamp
  /-- JTAG_HIGHZ (R673). -/
  | jtagHighz
  /-- JTAG_IDCODE (R672). -/
  | jtagIdcode
  /-- JTAG_BYPASS (R672). -/
  | jtagBypass
  /-- TAP_RESET (R671). -/
  | tapReset
  /-- PIN_RELEASE (R668). -/
  | pinRelease (env : BootEnv)
  /-- FSYNC_PULSE_END (R396). -/
  | fsyncPulseEnd (p : Fin 4)
  /-- FLITUP_TIMEOUT (R425). -/
  | flitupTimeout (p : Fin 2)
  /-- AUTH_TIMEOUT (R425). -/
  | authTimeout (p : Fin 2)
  /-- DTU_AC_FLUSH_DONE (R237). -/
  | dtuAcFlushDone
  /-- MBX_DONE (R584). -/
  | mbxDone (ok : Bool) (env : BootEnv)
  /-- SYN_CMD_DONE (R283). -/
  | synCmdDone (res : Fin 5) (q : Word) (value epoint : DWord)
  deriving DecidableEq, Repr

end Sys2Proof
end

