-- ==== Sys2Proof/Decode.lean ====
section
/-!
DEFINITION. The word decoder over the rows of the opcode table that give bits. No row of this hardware's table gives any.
-/

namespace Sys2Proof

/-- The command that a word spells by the table's bits: the table gives bits for no row. -/
def decodeTableWord (_nbits _w : Nat) : Option Instr := none

end Sys2Proof
end

