-- ==== Sys2Proof/Config.lean ====
section
/-!
DEFINITION. Free values: what the spec leaves open, as constants without a body.
-/

namespace Sys2Proof.Config

/-- The n-th free value of w bits: a value the spec does not fix (log entry 1). -/
opaque freeBits (w : Nat) (n : Nat) : BitVec w

/-- A value of w bits that the spec does not fix but makes a function of its inputs, named by `key` (log entry 31). -/
opaque fixedBits (w : Nat) (key : List Nat) : BitVec w

/-- FP32 value of an sRGB-encoded component, and the encoding of an FP32 value (R345, R350; log entry 32). -/
opaque srgbToLinear (c : BitVec 8) : BitVec 32
opaque linearToSrgb (f : BitVec 32) : BitVec 8

/-- Channel `ch` of texel (x, y) of a compressed block of a format, in the precision the format has: 16 bits of UNORM, SNORM or
FP16 (R352; log entry 32). -/
opaque blockTexel (fmt : Nat) (block : List Nat) (x y ch : Nat) : BitVec 16

end Sys2Proof.Config
end

