-- ==== Sys2Proof/Machine/Cells.lean ====
section
/-!
DEFINITION. Sparse data by key: a list of (key, value) pairs in one canonical form: keys strictly rising, no entry equal
to what an unlisted key reads as. Register cells, memory bytes, thread registers and Basin words are all held so.
-/

namespace Sys2Proof.Machine.Cells

variable {α : Type}

/-- The value at a key; an unlisted key reads as `d`. -/
def get (d : α) : List (Nat × α) → Nat → α
  | [], _ => d
  | (a, v) :: l, k => if a = k then v else get d l k

/-- Remove a key. -/
def del : List (Nat × α) → Nat → List (Nat × α)
  | [], _ => []
  | (a, v) :: l, k => if a = k then del l k else (a, v) :: del l k

/-- Insert or replace a key, keeping keys rising. -/
def put : List (Nat × α) → Nat → α → List (Nat × α)
  | [], k, x => [(k, x)]
  | (a, v) :: l, k, x =>
    if k < a then (k, x) :: (a, v) :: l
    else if a = k then (k, x) :: l
    else (a, v) :: put l k x

/-- Write a key: writing what an unlisted key reads as removes the entry. -/
def set [DecidableEq α] (d : α) (l : List (Nat × α)) (k : Nat) (x : α) : List (Nat × α) :=
  if x = d then del l k else put l k x

/-- All keys are above `b` and strictly rising. -/
def risingFrom : Nat → List (Nat × α) → Bool
  | _, [] => true
  | b, (a, _) :: l => decide (b < a) && risingFrom a l

/-- Keys strictly rising. -/
def rising : List (Nat × α) → Bool
  | [] => true
  | (a, _) :: l => risingFrom a l

/-- The canonical form for a constant default. -/
def wf [DecidableEq α] (d : α) (l : List (Nat × α)) : Bool :=
  rising l && l.all (fun c => decide (c.2 ≠ d))

end Sys2Proof.Machine.Cells

namespace Sys2Proof.Machine

variable {α : Type}

/-- Put an element before the first one that it does not exceed. -/
def insertBy (le : α → α → Bool) (x : α) : List α → List α
  | [] => [x]
  | y :: l => if le x y then x :: y :: l else y :: insertBy le x l

/-- A list in ascending order; of equal elements the earlier comes first. -/
def sortBy (le : α → α → Bool) : List α → List α
  | [] => []
  | x :: l => insertBy le x (sortBy le l)

end Sys2Proof.Machine
end

