-- ==== Sys2Proof/Machine/RegType.lean ====
section
/-!
DEFINITION. What the register tables of the spec say of a field and of a register, as plain data (R9 to R18).
-/

namespace Sys2Proof.Machine

/-- Access codes of R14. `rwl` fields are also owner fields wherever the spec's tables use the code. -/
inductive Acc where
  | ro | rw | w1c | w1s | wo | rwl | own
  deriving DecidableEq, Repr

/-- What the Reset column gives (R17): a number, fuses (F), or the bring-up (B). -/
inductive RstSrc where
  | num | f | b
  deriving DecidableEq, Repr

/-- One field of a register table. `off` is the BAR0 offset of the register's first instance, `s1` and `s2` the strides
of its instances (0: none), `kept` the Kept in column as a mask (POR 1, PIN 2, WARM 4, WDT 8, ENG 16, CHN 32, S1 64,
S2 128, S3 256), `exc` the reset values of single instances that differ from `rst`, by offset. -/
structure Field where
  off : Nat
  lo : Nat
  w : Nat
  acc : Acc
  rst : Nat
  kept : Nat
  src : RstSrc
  s1 : Nat
  s2 : Nat
  exc : List (Nat × Nat)
  deriving DecidableEq, Repr

/-- One register: its first offset, whether it is 64 bits wide (R10), its instances and its fields. -/
structure Reg where
  off : Nat
  wide : Bool
  s1 : Nat
  n1 : Nat
  s2 : Nat
  n2 : Nat
  fields : List Field
  deriving DecidableEq, Repr

end Sys2Proof.Machine
end

