-- ==== Sys2Proof/Machine/Regs.lean ====
section
/-!
DEFINITION. Every register field the spec's register tables name, as data: one `Field` per field and one `Reg` per register
(offsets from the offset tables, the rest from the columns Bits, Field, Access, Reset, Kept in of R14, R17, R18).
A reset value B stands as 0 here, since the bring-up writes the field (R17; log entry 100); an F field holds the fuse value of log entry 2.
-/

namespace Sys2Proof.R
open Sys2Proof.Machine

def CHIP_ID_PART : Field := ⟨0x0, 16, 16, .ro, 0xc016, 511, .num, 0, 0, []⟩
def CHIP_ID_REV : Field := ⟨0x0, 8, 8, .ro, 1, 511, .f, 0, 0, []⟩
def CHIP_ID_VARIANT : Field := ⟨0x0, 6, 2, .ro, 2, 511, .f, 0, 0, []⟩
/-- CHIP_ID (R488). -/
def CHIP_ID : Reg := ⟨0x0, false, 0, 1, 0, 1, [CHIP_ID_PART, CHIP_ID_REV, CHIP_ID_VARIANT]⟩
def CHIP_UID_UID : Field := ⟨0x10, 0, 32, .ro, 0, 511, .f, 4, 0, []⟩
/-- CHIP_UID (R488). -/
def CHIP_UID : Reg := ⟨0x10, false, 4, 4, 0, 1, [CHIP_UID_UID]⟩
def CHIP_RWIN_EN : Field := ⟨0x100, 31, 1, .own, 0, 192, .num, 0, 0, []⟩
def CHIP_RWIN_ERR : Field := ⟨0x100, 16, 1, .ro, 0, 192, .num, 0, 0, []⟩
def CHIP_RWIN_SEG : Field := ⟨0x100, 8, 2, .own, 0, 192, .num, 0, 0, []⟩
def CHIP_RWIN_DIE : Field := ⟨0x100, 0, 3, .own, 0, 192, .num, 0, 0, []⟩
/-- CHIP_RWIN (R26). -/
def CHIP_RWIN : Reg := ⟨0x100, false, 0, 1, 0, 1, [CHIP_RWIN_EN, CHIP_RWIN_ERR, CHIP_RWIN_SEG, CHIP_RWIN_DIE]⟩
def OWN_STAT_STATE : Field := ⟨0x200, 30, 2, .ro, 1, 448, .num, 0, 0, []⟩
def OWN_STAT_OWNER : Field := ⟨0x200, 28, 2, .ro, 0, 448, .num, 0, 0, []⟩
def OWN_STAT_MINE : Field := ⟨0x200, 27, 1, .ro, 0, 448, .num, 0, 0, []⟩
def OWN_STAT_OFFERTO : Field := ⟨0x200, 24, 2, .ro, 0, 448, .num, 0, 0, []⟩
def OWN_STAT_LEASE : Field := ⟨0x200, 16, 8, .ro, 0, 448, .num, 0, 0, []⟩
def OWN_STAT_EPOCH : Field := ⟨0x200, 0, 16, .ro, 0, 448, .num, 0, 0, []⟩
/-- OWN_STAT (R493). -/
def OWN_STAT : Reg := ⟨0x200, false, 0, 1, 0, 1, [OWN_STAT_STATE, OWN_STAT_OWNER, OWN_STAT_MINE, OWN_STAT_OFFERTO, OWN_STAT_LEASE, OWN_STAT_EPOCH]⟩
def OWN_CLAIM_KEY : Field := ⟨0x204, 16, 16, .wo, 0, 0, .num, 0, 0, []⟩
def OWN_CLAIM_FORCE : Field := ⟨0x204, 0, 1, .wo, 0, 0, .num, 0, 0, []⟩
/-- OWN_CLAIM (R493). -/
def OWN_CLAIM : Reg := ⟨0x204, false, 0, 1, 0, 1, [OWN_CLAIM_KEY, OWN_CLAIM_FORCE]⟩
def OWN_HB_BEAT : Field := ⟨0x208, 0, 1, .wo, 0, 0, .num, 0, 0, []⟩
/-- OWN_HB (R493). -/
def OWN_HB : Reg := ⟨0x208, false, 0, 1, 0, 1, [OWN_HB_BEAT]⟩
def OWN_REL_KEY : Field := ⟨0x20c, 16, 16, .wo, 0, 0, .num, 0, 0, []⟩
def OWN_REL_OFFER : Field := ⟨0x20c, 4, 1, .wo, 0, 0, .num, 0, 0, []⟩
def OWN_REL_TO : Field := ⟨0x20c, 0, 2, .wo, 0, 0, .num, 0, 0, []⟩
/-- OWN_REL (R493). -/
def OWN_REL : Reg := ⟨0x20c, false, 0, 1, 0, 1, [OWN_REL_KEY, OWN_REL_OFFER, OWN_REL_TO]⟩
def OWN_EVT_LAPSED : Field := ⟨0x210, 4, 1, .w1c, 0, 448, .num, 0, 0, []⟩
def OWN_EVT_FORCED : Field := ⟨0x210, 3, 1, .w1c, 0, 448, .num, 0, 0, []⟩
def OWN_EVT_EXPIRED : Field := ⟨0x210, 2, 1, .w1c, 0, 448, .num, 0, 0, []⟩
def OWN_EVT_RELEASED : Field := ⟨0x210, 1, 1, .w1c, 0, 448, .num, 0, 0, []⟩
def OWN_EVT_GAINED : Field := ⟨0x210, 0, 1, .w1c, 0, 448, .num, 0, 0, []⟩
/-- OWN_EVT (R493). -/
def OWN_EVT : Reg := ⟨0x210, false, 0, 1, 0, 1, [OWN_EVT_LAPSED, OWN_EVT_FORCED, OWN_EVT_EXPIRED, OWN_EVT_RELEASED, OWN_EVT_GAINED]⟩
def OWN_CFG_CHAINHB : Field := ⟨0x214, 1, 1, .own, 1, 448, .num, 0, 0, []⟩
def OWN_CFG_IRQ : Field := ⟨0x214, 0, 1, .own, 0, 448, .num, 0, 0, []⟩
/-- OWN_CFG (R493). -/
def OWN_CFG : Reg := ⟨0x214, false, 0, 1, 0, 1, [OWN_CFG_CHAINHB, OWN_CFG_IRQ]⟩
def CHIP_ELOG_VALID : Field := ⟨0x300, 31, 1, .w1c, 0, 192, .num, 0, 0, []⟩
def CHIP_ELOG_MASTER : Field := ⟨0x300, 29, 2, .ro, 0, 192, .num, 0, 0, []⟩
def CHIP_ELOG_KIND : Field := ⟨0x300, 25, 4, .ro, 0, 192, .num, 0, 0, []⟩
def CHIP_ELOG_BAR : Field := ⟨0x300, 24, 1, .ro, 0, 192, .num, 0, 0, []⟩
/-- CHIP_ELOG (R488). -/
def CHIP_ELOG : Reg := ⟨0x300, false, 0, 1, 0, 1, [CHIP_ELOG_VALID, CHIP_ELOG_MASTER, CHIP_ELOG_KIND, CHIP_ELOG_BAR]⟩
def CHIP_ELOG_ADDR_OFFSET : Field := ⟨0x304, 0, 32, .ro, 0, 192, .num, 0, 0, []⟩
/-- CHIP_ELOG_ADDR (R488). -/
def CHIP_ELOG_ADDR : Reg := ⟨0x304, false, 0, 1, 0, 1, [CHIP_ELOG_ADDR_OFFSET]⟩
def CHIP_ECNT_COUNT : Field := ⟨0x308, 0, 32, .own, 0, 192, .num, 0, 0, []⟩
/-- CHIP_ECNT (R488). -/
def CHIP_ECNT : Reg := ⟨0x308, false, 0, 1, 0, 1, [CHIP_ECNT_COUNT]⟩
def HIF_CTL_FWD : Field := ⟨0x1000, 0, 1, .own, 1, 192, .num, 0, 0, []⟩
/-- HIF_CTL (R489). -/
def HIF_CTL : Reg := ⟨0x1000, false, 0, 1, 0, 1, [HIF_CTL_FWD]⟩
def HIF_STAT_LINKUP : Field := ⟨0x1004, 31, 1, .ro, 0, 0, .num, 0, 0, []⟩
def HIF_STAT_SPEED : Field := ⟨0x1004, 28, 3, .ro, 0, 0, .num, 0, 0, []⟩
def HIF_STAT_WIDTH : Field := ⟨0x1004, 25, 3, .ro, 0, 0, .num, 0, 0, []⟩
def HIF_STAT_D3 : Field := ⟨0x1004, 24, 1, .ro, 0, 0, .num, 0, 0, []⟩
def HIF_STAT_APERR : Field := ⟨0x1004, 0, 4, .ro, 0, 0, .num, 0, 0, []⟩
/-- HIF_STAT (R490). -/
def HIF_STAT : Reg := ⟨0x1004, false, 0, 1, 0, 1, [HIF_STAT_LINKUP, HIF_STAT_SPEED, HIF_STAT_WIDTH, HIF_STAT_D3, HIF_STAT_APERR]⟩
def HIF_IDIE_BYTES : Field := ⟨0x1010, 0, 32, .w1c, 0, 192, .num, 4, 0, []⟩
/-- HIF_IDIE (R491). -/
def HIF_IDIE : Reg := ⟨0x1010, false, 4, 4, 0, 1, [HIF_IDIE_BYTES]⟩
def HIF_AP_HANDLE : Field := ⟨0x1100, 32, 32, .own, 0, 192, .num, 8, 0, []⟩
def HIF_AP_MODE : Field := ⟨0x1100, 30, 2, .own, 0, 192, .num, 8, 0, []⟩
def HIF_AP_WRO : Field := ⟨0x1100, 29, 1, .own, 0, 192, .num, 8, 0, []⟩
def HIF_AP_ADDR : Field := ⟨0x1100, 0, 28, .own, 0, 192, .num, 8, 0, []⟩
/-- HIF_AP (R492). -/
def HIF_AP : Reg := ⟨0x1100, true, 8, 16, 0, 1, [HIF_AP_HANDLE, HIF_AP_MODE, HIF_AP_WRO, HIF_AP_ADDR]⟩
/-- The registers of the Chip window (R24). -/
def windowChip : List Reg :=
  [CHIP_ID, CHIP_UID, CHIP_RWIN, OWN_STAT, OWN_CLAIM, OWN_HB, OWN_REL, OWN_EVT, OWN_CFG, CHIP_ELOG] ++
  [CHIP_ELOG_ADDR, CHIP_ECNT, HIF_CTL, HIF_STAT, HIF_IDIE, HIF_AP]

def BOOT_STAT_PHASE : Field := ⟨0x100000, 29, 3, .ro, 0, 192, .num, 0, 0, []⟩
def BOOT_STAT_ENTRY : Field := ⟨0x100000, 26, 3, .ro, 0, 192, .b, 0, 0, []⟩
def BOOT_STAT_WARMPATH : Field := ⟨0x100000, 25, 1, .ro, 0, 192, .b, 0, 0, []⟩
def BOOT_STAT_SLOT : Field := ⟨0x100000, 24, 1, .ro, 0, 192, .b, 0, 0, []⟩
def BOOT_STAT_TRIAL : Field := ⟨0x100000, 23, 1, .ro, 0, 192, .b, 0, 0, []⟩
def BOOT_STAT_DEGRADED : Field := ⟨0x100000, 22, 1, .ro, 0, 192, .b, 0, 0, []⟩
def BOOT_STAT_JFAIL : Field := ⟨0x100000, 21, 1, .ro, 0, 192, .num, 0, 0, []⟩
def BOOT_STAT_STEP : Field := ⟨0x100000, 8, 8, .ro, 0, 192, .num, 0, 0, []⟩
def BOOT_STAT_VARIANT : Field := ⟨0x100000, 0, 4, .ro, 0, 192, .num, 0, 0, []⟩
/-- BOOT_STAT (R587). -/
def BOOT_STAT : Reg := ⟨0x100000, false, 0, 1, 0, 1, [BOOT_STAT_PHASE, BOOT_STAT_ENTRY, BOOT_STAT_WARMPATH, BOOT_STAT_SLOT, BOOT_STAT_TRIAL, BOOT_STAT_DEGRADED, BOOT_STAT_JFAIL, BOOT_STAT_STEP, BOOT_STAT_VARIANT]⟩
def BOOT_FATAL_VALID : Field := ⟨0x100004, 31, 1, .ro, 0, 192, .num, 0, 0, []⟩
def BOOT_FATAL_STEP : Field := ⟨0x100004, 16, 8, .ro, 0, 192, .num, 0, 0, []⟩
def BOOT_FATAL_DETAIL : Field := ⟨0x100004, 0, 16, .ro, 0, 192, .num, 0, 0, []⟩
/-- BOOT_FATAL (R587). -/
def BOOT_FATAL : Reg := ⟨0x100004, false, 0, 1, 0, 1, [BOOT_FATAL_VALID, BOOT_FATAL_STEP, BOOT_FATAL_DETAIL]⟩
def BOOT_READY_TB_TBASE : Field := ⟨0x100008, 0, 64, .ro, 0, 192, .num, 0, 0, []⟩
/-- BOOT_READY_TB (R587). -/
def BOOT_READY_TB : Reg := ⟨0x100008, true, 0, 1, 0, 1, [BOOT_READY_TB_TBASE]⟩
def BOOT_BC_HEAD_BOOTSEQ : Field := ⟨0x100010, 16, 16, .ro, 0, 508, .num, 0, 0, []⟩
def BOOT_BC_HEAD_HEAD : Field := ⟨0x100010, 0, 16, .ro, 0, 508, .num, 0, 0, []⟩
/-- BOOT_BC_HEAD (R587). -/
def BOOT_BC_HEAD : Reg := ⟨0x100010, false, 0, 1, 0, 1, [BOOT_BC_HEAD_BOOTSEQ, BOOT_BC_HEAD_HEAD]⟩
def BOOT_CTL_KEY : Field := ⟨0x100014, 16, 16, .wo, 0, 0, .num, 0, 0, []⟩
def BOOT_CTL_SVNADV : Field := ⟨0x100014, 2, 1, .wo, 0, 0, .num, 0, 0, []⟩
def BOOT_CTL_CONFIRM : Field := ⟨0x100014, 1, 1, .wo, 0, 0, .num, 0, 0, []⟩
def BOOT_CTL_FORCECOLD : Field := ⟨0x100014, 0, 1, .own, 0, 508, .num, 0, 0, []⟩
/-- BOOT_CTL (R587). -/
def BOOT_CTL : Reg := ⟨0x100014, false, 0, 1, 0, 1, [BOOT_CTL_KEY, BOOT_CTL_SVNADV, BOOT_CTL_CONFIRM, BOOT_CTL_FORCECOLD]⟩
def BOOT_SVN_IMG : Field := ⟨0x100018, 16, 7, .ro, 0, 192, .b, 0, 0, []⟩
def BOOT_SVN_FUSED : Field := ⟨0x100018, 0, 7, .ro, 0, 511, .f, 0, 0, []⟩
/-- BOOT_SVN (R587). -/
def BOOT_SVN : Reg := ⟨0x100018, false, 0, 1, 0, 1, [BOOT_SVN_IMG, BOOT_SVN_FUSED]⟩
def BOOT_DRAM_RATE : Field := ⟨0x10001c, 16, 16, .ro, 0, 448, .b, 0, 0, []⟩
def BOOT_DRAM_SIZE : Field := ⟨0x10001c, 0, 16, .ro, 0, 448, .b, 0, 0, []⟩
/-- BOOT_DRAM (R587). -/
def BOOT_DRAM : Reg := ⟨0x10001c, false, 0, 1, 0, 1, [BOOT_DRAM_RATE, BOOT_DRAM_SIZE]⟩
def BOOT_MEMFAIL_OVF : Field := ⟨0x100020, 31, 1, .ro, 0, 508, .num, 0, 0, []⟩
def BOOT_MEMFAIL_COUNT : Field := ⟨0x100020, 0, 16, .ro, 0, 508, .num, 0, 0, []⟩
/-- BOOT_MEMFAIL (R587). -/
def BOOT_MEMFAIL : Reg := ⟨0x100020, false, 0, 1, 0, 1, [BOOT_MEMFAIL_OVF, BOOT_MEMFAIL_COUNT]⟩
def BOOT_EARLY_COUNT : Field := ⟨0x100024, 0, 32, .ro, 0, 192, .num, 0, 0, []⟩
/-- BOOT_EARLY (R587). -/
def BOOT_EARLY : Reg := ⟨0x100024, false, 0, 1, 0, 1, [BOOT_EARLY_COUNT]⟩
def BOOT_CHAIN_READY : Field := ⟨0x100030, 16, 8, .ro, 0, 192, .num, 0, 0, []⟩
def BOOT_CHAIN_FAILED : Field := ⟨0x100030, 8, 8, .ro, 0, 192, .num, 0, 0, []⟩
def BOOT_CHAIN_WAIT : Field := ⟨0x100030, 0, 8, .ro, 0, 192, .num, 0, 0, []⟩
/-- BOOT_CHAIN (R587). -/
def BOOT_CHAIN : Reg := ⟨0x100030, false, 0, 1, 0, 1, [BOOT_CHAIN_READY, BOOT_CHAIN_FAILED, BOOT_CHAIN_WAIT]⟩
def BOOT_MEMFAILG_VALID : Field := ⟨0x100040, 31, 1, .ro, 0, 508, .num, 4, 0, []⟩
def BOOT_MEMFAILG_GRAN : Field := ⟨0x100040, 0, 25, .ro, 0, 508, .num, 4, 0, []⟩
/-- BOOT_MEMFAILG (R587). -/
def BOOT_MEMFAILG : Reg := ⟨0x100040, false, 4, 16, 0, 1, [BOOT_MEMFAILG_VALID, BOOT_MEMFAILG_GRAN]⟩
def BOOT_PROF_PROFILE : Field := ⟨0x100200, 30, 2, .ro, 0, 511, .f, 0, 0, []⟩
def BOOT_PROF_STEPDN : Field := ⟨0x100200, 24, 3, .ro, 0, 511, .f, 0, 0, []⟩
def BOOT_PROF_EMBDN : Field := ⟨0x100200, 16, 5, .ro, 0, 511, .f, 0, 0, []⟩
def BOOT_PROF_DBG : Field := ⟨0x100200, 12, 2, .ro, 0, 511, .f, 0, 0, []⟩
def BOOT_PROF_STEPLIM : Field := ⟨0x100200, 8, 3, .ro, 0, 511, .f, 0, 0, []⟩
def BOOT_PROF_EMBMAX : Field := ⟨0x100200, 0, 5, .ro, 0x10, 511, .f, 0, 0, []⟩
/-- BOOT_PROF (R609). -/
def BOOT_PROF : Reg := ⟨0x100200, false, 0, 1, 0, 1, [BOOT_PROF_PROFILE, BOOT_PROF_STEPDN, BOOT_PROF_EMBDN, BOOT_PROF_DBG, BOOT_PROF_STEPLIM, BOOT_PROF_EMBMAX]⟩
def BOOT_LICSTAT_STALE : Field := ⟨0x100210, 31, 1, .ro, 0, 448, .b, 0, 0, []⟩
def BOOT_LICSTAT_LIMIT : Field := ⟨0x100210, 30, 1, .ro, 0, 448, .b, 0, 0, []⟩
def BOOT_LICSTAT_OTHER : Field := ⟨0x100210, 16, 8, .ro, 0, 448, .b, 0, 0, []⟩
def BOOT_LICSTAT_BAD : Field := ⟨0x100210, 8, 8, .ro, 0, 448, .b, 0, 0, []⟩
def BOOT_LICSTAT_EN : Field := ⟨0x100210, 0, 4, .ro, 0, 448, .b, 0, 0, []⟩
/-- BOOT_LICSTAT (R609). -/
def BOOT_LICSTAT : Reg := ⟨0x100210, false, 0, 1, 0, 1, [BOOT_LICSTAT_STALE, BOOT_LICSTAT_LIMIT, BOOT_LICSTAT_OTHER, BOOT_LICSTAT_BAD, BOOT_LICSTAT_EN]⟩
def BOOT_LIC_VALID : Field := ⟨0x100220, 31, 1, .ro, 0, 448, .b, 4, 0, []⟩
def BOOT_LIC_RESULT : Field := ⟨0x100220, 24, 4, .ro, 0, 448, .b, 4, 0, []⟩
def BOOT_LIC_INDEX : Field := ⟨0x100220, 0, 16, .ro, 0, 448, .b, 4, 0, []⟩
/-- BOOT_LIC (R609). -/
def BOOT_LIC : Reg := ⟨0x100220, false, 4, 4, 0, 1, [BOOT_LIC_VALID, BOOT_LIC_RESULT, BOOT_LIC_INDEX]⟩
def BOOT_WGEN_VALUE : Field := ⟨0x100300, 0, 32, .ro, 0, 448, .b, 0, 0, []⟩
/-- BOOT_WGEN (R609). -/
def BOOT_WGEN : Reg := ⟨0x100300, false, 0, 1, 0, 1, [BOOT_WGEN_VALUE]⟩
def BOOT_WGENMIN_VALUE : Field := ⟨0x100304, 0, 32, .ro, 0, 448, .b, 0, 0, []⟩
/-- BOOT_WGENMIN (R609). -/
def BOOT_WGENMIN : Reg := ⟨0x100304, false, 0, 1, 0, 1, [BOOT_WGENMIN_VALUE]⟩
def BOOT_WGENMAX_VALUE : Field := ⟨0x100308, 0, 32, .ro, 0, 448, .b, 0, 0, []⟩
/-- BOOT_WGENMAX (R609). -/
def BOOT_WGENMAX : Reg := ⟨0x100308, false, 0, 1, 0, 1, [BOOT_WGENMAX_VALUE]⟩
def BOOT_WDRVMIN_VALUE : Field := ⟨0x10030c, 0, 32, .ro, 0, 448, .b, 0, 0, []⟩
/-- BOOT_WDRVMIN (R609). -/
def BOOT_WDRVMIN : Reg := ⟨0x10030c, false, 0, 1, 0, 1, [BOOT_WDRVMIN_VALUE]⟩
def BOOT_FGEN_VALUE : Field := ⟨0x100310, 0, 32, .ro, 0, 448, .b, 0, 0, []⟩
/-- BOOT_FGEN (R609). -/
def BOOT_FGEN : Reg := ⟨0x100310, false, 0, 1, 0, 1, [BOOT_FGEN_VALUE]⟩
def BOOT_FGENMIN_VALUE : Field := ⟨0x100314, 0, 32, .ro, 0, 448, .b, 0, 0, []⟩
/-- BOOT_FGENMIN (R609). -/
def BOOT_FGENMIN : Reg := ⟨0x100314, false, 0, 1, 0, 1, [BOOT_FGENMIN_VALUE]⟩
def BOOT_FGENMAX_VALUE : Field := ⟨0x100318, 0, 32, .ro, 0, 448, .b, 0, 0, []⟩
/-- BOOT_FGENMAX (R609). -/
def BOOT_FGENMAX : Reg := ⟨0x100318, false, 0, 1, 0, 1, [BOOT_FGENMAX_VALUE]⟩
def BOOT_WVER_VERSION : Field := ⟨0x10031c, 0, 32, .ro, 0, 448, .b, 0, 0, []⟩
/-- BOOT_WVER (R609). -/
def BOOT_WVER : Reg := ⟨0x10031c, false, 0, 1, 0, 1, [BOOT_WVER_VERSION]⟩
def BOOT_FVER_VERSION : Field := ⟨0x100320, 0, 32, .ro, 0, 448, .b, 0, 0, []⟩
/-- BOOT_FVER (R609). -/
def BOOT_FVER : Reg := ⟨0x100320, false, 0, 1, 0, 1, [BOOT_FVER_VERSION]⟩
def BOOT_COMPAT_PAIROK : Field := ⟨0x100324, 31, 1, .ro, 0, 448, .b, 0, 0, []⟩
def BOOT_COMPAT_EXTOK : Field := ⟨0x100324, 30, 1, .ro, 0, 448, .num, 0, 0, []⟩
def BOOT_COMPAT_FSLOT : Field := ⟨0x100324, 29, 1, .ro, 0, 448, .b, 0, 0, []⟩
def BOOT_COMPAT_FMIN : Field := ⟨0x100324, 28, 1, .ro, 0, 448, .b, 0, 0, []⟩
/-- BOOT_COMPAT (R609). -/
def BOOT_COMPAT : Reg := ⟨0x100324, false, 0, 1, 0, 1, [BOOT_COMPAT_PAIROK, BOOT_COMPAT_EXTOK, BOOT_COMPAT_FSLOT, BOOT_COMPAT_FMIN]⟩
def BOOT_DEF_STAT_FULL : Field := ⟨0x100400, 31, 1, .ro, 0, 448, .b, 0, 0, []⟩
def BOOT_DEF_STAT_SUPERR : Field := ⟨0x100400, 30, 1, .ro, 0, 448, .b, 0, 0, []⟩
def BOOT_DEF_STAT_HEALTHY : Field := ⟨0x100400, 16, 5, .ro, 0, 448, .b, 0, 0, []⟩
def BOOT_DEF_STAT_SPARES : Field := ⟨0x100400, 8, 5, .ro, 0, 448, .b, 0, 0, []⟩
def BOOT_DEF_STAT_SUPCNT : Field := ⟨0x100400, 0, 8, .ro, 0, 448, .b, 0, 0, []⟩
/-- BOOT_DEF_STAT (R610). -/
def BOOT_DEF_STAT : Reg := ⟨0x100400, false, 0, 1, 0, 1, [BOOT_DEF_STAT_FULL, BOOT_DEF_STAT_SUPERR, BOOT_DEF_STAT_HEALTHY, BOOT_DEF_STAT_SPARES, BOOT_DEF_STAT_SUPCNT]⟩
def BOOT_DEF_EMBF_MASK : Field := ⟨0x100404, 0, 18, .ro, 0, 511, .f, 0, 0, []⟩
/-- BOOT_DEF_EMBF (R610). -/
def BOOT_DEF_EMBF : Reg := ⟨0x100404, false, 0, 1, 0, 1, [BOOT_DEF_EMBF_MASK]⟩
def BOOT_DEF_EMBS_MASK : Field := ⟨0x100408, 0, 18, .ro, 0, 448, .b, 0, 0, []⟩
/-- BOOT_DEF_EMBS (R610). -/
def BOOT_DEF_EMBS : Reg := ⟨0x100408, false, 0, 1, 0, 1, [BOOT_DEF_EMBS_MASK]⟩
def BOOT_DEF_MAP_MAP : Field := ⟨0x100410, 0, 32, .ro, 0, 448, .b, 4, 0, []⟩
/-- BOOT_DEF_MAP (R610). -/
def BOOT_DEF_MAP : Reg := ⟨0x100410, false, 4, 4, 0, 1, [BOOT_DEF_MAP_MAP]⟩
def BOOT_DEF_WAY_SUP : Field := ⟨0x100500, 16, 16, .ro, 0, 448, .b, 4, 0, []⟩
def BOOT_DEF_WAY_FUSED : Field := ⟨0x100500, 0, 16, .ro, 0, 511, .f, 4, 0, []⟩
/-- BOOT_DEF_WAY (R610). -/
def BOOT_DEF_WAY : Reg := ⟨0x100500, false, 4, 16, 0, 1, [BOOT_DEF_WAY_SUP, BOOT_DEF_WAY_FUSED]⟩
def BOOT_DEF_CALF_FUSED : Field := ⟨0x100600, 0, 17, .ro, 0, 511, .f, 4, 0, []⟩
/-- BOOT_DEF_CALF (R610). -/
def BOOT_DEF_CALF : Reg := ⟨0x100600, false, 4, 18, 0, 1, [BOOT_DEF_CALF_FUSED]⟩
def BOOT_DEF_CALS_REPL : Field := ⟨0x100680, 24, 5, .ro, 0, 448, .b, 4, 0, []⟩
def BOOT_DEF_CALS_SUP : Field := ⟨0x100680, 0, 17, .ro, 0, 448, .b, 4, 0, []⟩
/-- BOOT_DEF_CALS (R610). -/
def BOOT_DEF_CALS : Reg := ⟨0x100680, false, 4, 18, 0, 1, [BOOT_DEF_CALS_REPL, BOOT_DEF_CALS_SUP]⟩
/-- The registers of the Boot window (R24). -/
def windowBoot : List Reg :=
  [BOOT_STAT, BOOT_FATAL, BOOT_READY_TB, BOOT_BC_HEAD, BOOT_CTL, BOOT_SVN, BOOT_DRAM, BOOT_MEMFAIL, BOOT_EARLY, BOOT_CHAIN] ++
  [BOOT_MEMFAILG, BOOT_PROF, BOOT_LICSTAT, BOOT_LIC, BOOT_WGEN, BOOT_WGENMIN, BOOT_WGENMAX, BOOT_WDRVMIN, BOOT_FGEN, BOOT_FGENMIN] ++
  [BOOT_FGENMAX, BOOT_WVER, BOOT_FVER, BOOT_COMPAT, BOOT_DEF_STAT, BOOT_DEF_EMBF, BOOT_DEF_EMBS, BOOT_DEF_MAP, BOOT_DEF_WAY, BOOT_DEF_CALF] ++
  [BOOT_DEF_CALS]

def CRU_RPLL_STAT_LOCK : Field := ⟨0x200000, 31, 1, .ro, 0, 0, .num, 0, 0, []⟩
def CRU_RPLL_STAT_UNLOCKS : Field := ⟨0x200000, 0, 16, .ro, 0, 252, .num, 0, 0, []⟩
/-- CRU_RPLL_STAT (R515). -/
def CRU_RPLL_STAT : Reg := ⟨0x200000, false, 0, 1, 0, 1, [CRU_RPLL_STAT_LOCK, CRU_RPLL_STAT_UNLOCKS]⟩
def CRU_ECLK_REQ_STEP : Field := ⟨0x200010, 0, 3, .own, 7, 192, .num, 0, 0, []⟩
/-- CRU_ECLK_REQ (R515). -/
def CRU_ECLK_REQ : Reg := ⟨0x200010, false, 0, 1, 0, 1, [CRU_ECLK_REQ_STEP]⟩
def CRU_ECLK_STAT_BUSY : Field := ⟨0x200014, 31, 1, .ro, 0, 0, .num, 0, 0, []⟩
def CRU_ECLK_STAT_CLAMPED : Field := ⟨0x200014, 12, 1, .w1c, 0, 192, .num, 0, 0, []⟩
def CRU_ECLK_STAT_LIMIT : Field := ⟨0x200014, 8, 3, .ro, 0, 0, .num, 0, 0, []⟩
def CRU_ECLK_STAT_TARGET : Field := ⟨0x200014, 4, 3, .ro, 7, 0, .num, 0, 0, []⟩
def CRU_ECLK_STAT_CUR : Field := ⟨0x200014, 0, 3, .ro, 7, 0, .num, 0, 0, []⟩
/-- CRU_ECLK_STAT (R515). -/
def CRU_ECLK_STAT : Reg := ⟨0x200014, false, 0, 1, 0, 1, [CRU_ECLK_STAT_BUSY, CRU_ECLK_STAT_CLAMPED, CRU_ECLK_STAT_LIMIT, CRU_ECLK_STAT_TARGET, CRU_ECLK_STAT_CUR]⟩
def CRU_VTAB_MV : Field := ⟨0x200020, 0, 10, .ro, 0, 511, .f, 4, 0, [(2097184, 900), (2097188, 800), (2097192, 740), (2097196, 700), (2097200, 640), (2097204, 600), (2097208, 580), (2097212, 550)]⟩
/-- CRU_VTAB (R515). -/
def CRU_VTAB : Reg := ⟨0x200020, false, 4, 8, 0, 1, [CRU_VTAB_MV]⟩
def CRU_FCLK_LOW : Field := ⟨0x200040, 31, 1, .own, 0, 192, .num, 0, 0, []⟩
/-- CRU_FCLK (R515). -/
def CRU_FCLK : Reg := ⟨0x200040, false, 0, 1, 0, 1, [CRU_FCLK_LOW]⟩
def CRU_TB_NOW_TBASE : Field := ⟨0x200100, 0, 64, .ro, 0, 508, .num, 0, 0, []⟩
/-- CRU_TB_NOW (R515). -/
def CRU_TB_NOW : Reg := ⟨0x200100, true, 0, 1, 0, 1, [CRU_TB_NOW_TBASE]⟩
def CRU_TB_SET_TBASE : Field := ⟨0x200108, 0, 64, .own, 0, 0, .num, 0, 0, []⟩
/-- CRU_TB_SET (R515). -/
def CRU_TB_SET : Reg := ⟨0x200108, true, 0, 1, 0, 1, [CRU_TB_SET_TBASE]⟩
def CRU_TB_CFG_STEPTHR : Field := ⟨0x200110, 8, 16, .own, 0x64, 192, .num, 0, 0, []⟩
def CRU_TB_CFG_PER : Field := ⟨0x200110, 0, 8, .own, 0xa, 192, .num, 0, 0, []⟩
/-- CRU_TB_CFG (R515). -/
def CRU_TB_CFG : Reg := ⟨0x200110, false, 0, 1, 0, 1, [CRU_TB_CFG_STEPTHR, CRU_TB_CFG_PER]⟩
def CRU_TB_STAT_LOCK : Field := ⟨0x200114, 31, 1, .ro, 0, 0, .num, 0, 0, []⟩
def CRU_TB_STAT_EVT : Field := ⟨0x200114, 30, 1, .w1c, 0, 192, .num, 0, 0, []⟩
def CRU_TB_STAT_UPPORT : Field := ⟨0x200114, 4, 1, .ro, 0, 0, .num, 0, 0, []⟩
def CRU_TB_STAT_STATE : Field := ⟨0x200114, 0, 3, .ro, 1, 0, .num, 0, 0, []⟩
/-- CRU_TB_STAT (R515). -/
def CRU_TB_STAT : Reg := ⟨0x200114, false, 0, 1, 0, 1, [CRU_TB_STAT_LOCK, CRU_TB_STAT_EVT, CRU_TB_STAT_UPPORT, CRU_TB_STAT_STATE]⟩
def CRU_TB_OFS_PS : Field := ⟨0x200118, 0, 32, .ro, 0, 0, .num, 0, 0, []⟩
/-- CRU_TB_OFS (R515). -/
def CRU_TB_OFS : Reg := ⟨0x200118, false, 0, 1, 0, 1, [CRU_TB_OFS_PS]⟩
def CRU_TB_RATE_PPB : Field := ⟨0x20011c, 0, 32, .ro, 0, 0, .num, 0, 0, []⟩
/-- CRU_TB_RATE (R515). -/
def CRU_TB_RATE : Reg := ⟨0x20011c, false, 0, 1, 0, 1, [CRU_TB_RATE_PPB]⟩
def CRU_TB_ASYM_PS : Field := ⟨0x200120, 0, 16, .own, 0, 192, .b, 4, 0, []⟩
/-- CRU_TB_ASYM (R515). -/
def CRU_TB_ASYM : Reg := ⟨0x200120, false, 4, 2, 0, 1, [CRU_TB_ASYM_PS]⟩
def CRU_TB_CAP_TBASE : Field := ⟨0x200140, 0, 64, .ro, 0, 192, .num, 8, 0, []⟩
/-- CRU_TB_CAP (R515). -/
def CRU_TB_CAP : Reg := ⟨0x200140, true, 8, 2, 0, 1, [CRU_TB_CAP_TBASE]⟩
def CRU_TB_CAPCTL_OVR : Field := ⟨0x200150, 8, 2, .w1c, 0, 192, .num, 0, 0, []⟩
def CRU_TB_CAPCTL_NEW : Field := ⟨0x200150, 4, 2, .w1c, 0, 192, .num, 0, 0, []⟩
def CRU_TB_CAPCTL_EDGE : Field := ⟨0x200150, 2, 2, .own, 0, 192, .num, 0, 0, []⟩
def CRU_TB_CAPCTL_EN : Field := ⟨0x200150, 0, 2, .own, 0, 192, .num, 0, 0, []⟩
/-- CRU_TB_CAPCTL (R515). -/
def CRU_TB_CAPCTL : Reg := ⟨0x200150, false, 0, 1, 0, 1, [CRU_TB_CAPCTL_OVR, CRU_TB_CAPCTL_NEW, CRU_TB_CAPCTL_EDGE, CRU_TB_CAPCTL_EN]⟩
def CRU_RST_CTL_KEY : Field := ⟨0x200400, 16, 16, .wo, 0, 0, .num, 0, 0, []⟩
def CRU_RST_CTL_CHN : Field := ⟨0x200400, 1, 1, .wo, 0, 0, .num, 0, 0, []⟩
def CRU_RST_CTL_WARM : Field := ⟨0x200400, 0, 1, .wo, 0, 0, .num, 0, 0, []⟩
/-- CRU_RST_CTL (R675). -/
def CRU_RST_CTL : Reg := ⟨0x200400, false, 0, 1, 0, 1, [CRU_RST_CTL_KEY, CRU_RST_CTL_CHN, CRU_RST_CTL_WARM]⟩
def CRU_RST_ENG_EMB : Field := ⟨0x200404, 16, 16, .w1s, 0, 0, .num, 0, 0, []⟩
def CRU_RST_ENG_BLK : Field := ⟨0x200404, 0, 8, .w1s, 0, 0, .num, 0, 0, []⟩
/-- CRU_RST_ENG (R675). -/
def CRU_RST_ENG : Reg := ⟨0x200404, false, 0, 1, 0, 1, [CRU_RST_ENG_EMB, CRU_RST_ENG_BLK]⟩
def CRU_RST_STAT_LAST : Field := ⟨0x200408, 29, 3, .ro, 0, 448, .b, 0, 0, []⟩
def CRU_RST_STAT_SRC : Field := ⟨0x200408, 24, 4, .ro, 0, 448, .b, 0, 0, []⟩
def CRU_RST_STAT_COUNT : Field := ⟨0x200408, 0, 16, .ro, 0, 508, .num, 0, 0, []⟩
/-- CRU_RST_STAT (R675). -/
def CRU_RST_STAT : Reg := ⟨0x200408, false, 0, 1, 0, 1, [CRU_RST_STAT_LAST, CRU_RST_STAT_SRC, CRU_RST_STAT_COUNT]⟩
/-- The registers of the Cru window (R24). -/
def windowCru : List Reg :=
  [CRU_RPLL_STAT, CRU_ECLK_REQ, CRU_ECLK_STAT, CRU_VTAB, CRU_FCLK, CRU_TB_NOW, CRU_TB_SET, CRU_TB_CFG, CRU_TB_STAT, CRU_TB_OFS] ++
  [CRU_TB_RATE, CRU_TB_ASYM, CRU_TB_CAP, CRU_TB_CAPCTL, CRU_RST_CTL, CRU_RST_ENG, CRU_RST_STAT]

def PWR_REQ_STATE : Field := ⟨0x300000, 0, 3, .own, 0, 0, .num, 0, 0, []⟩
/-- PWR_REQ (R548). -/
def PWR_REQ : Reg := ⟨0x300000, false, 0, 1, 0, 1, [PWR_REQ_STATE]⟩
def PWR_STAT_STATE : Field := ⟨0x300004, 29, 3, .ro, 0, 0, .num, 0, 0, []⟩
def PWR_STAT_ENTERING : Field := ⟨0x300004, 28, 1, .ro, 0, 0, .num, 0, 0, []⟩
def PWR_STAT_EXITING : Field := ⟨0x300004, 27, 1, .ro, 0, 0, .num, 0, 0, []⟩
def PWR_STAT_EXITFAIL : Field := ⟨0x300004, 26, 1, .ro, 0, 510, .num, 0, 0, []⟩
def PWR_STAT_CAPSAT : Field := ⟨0x300004, 25, 1, .ro, 0, 0, .num, 0, 0, []⟩
def PWR_STAT_THROT : Field := ⟨0x300004, 24, 1, .ro, 0, 0, .num, 0, 0, []⟩
def PWR_STAT_REFUSE : Field := ⟨0x300004, 16, 4, .ro, 0, 448, .num, 0, 0, []⟩
/-- PWR_STAT (R548). -/
def PWR_STAT : Reg := ⟨0x300004, false, 0, 1, 0, 1, [PWR_STAT_STATE, PWR_STAT_ENTERING, PWR_STAT_EXITING, PWR_STAT_EXITFAIL, PWR_STAT_CAPSAT, PWR_STAT_THROT, PWR_STAT_REFUSE]⟩
def PWR_CTL_S1EN : Field := ⟨0x300008, 31, 1, .own, 1, 448, .num, 0, 0, []⟩
def PWR_CTL_RAILOFF : Field := ⟨0x300008, 29, 1, .own, 0, 448, .num, 0, 0, []⟩
def PWR_CTL_IRQ : Field := ⟨0x300008, 28, 1, .own, 0, 448, .num, 0, 0, []⟩
def PWR_CTL_S1IDLE : Field := ⟨0x300008, 0, 16, .own, 0x32, 448, .num, 0, 0, []⟩
/-- PWR_CTL (R548). -/
def PWR_CTL : Reg := ⟨0x300008, false, 0, 1, 0, 1, [PWR_CTL_S1EN, PWR_CTL_RAILOFF, PWR_CTL_IRQ, PWR_CTL_S1IDLE]⟩
def PWR_QUIET_Q : Field := ⟨0x30000c, 0, 8, .ro, 0, 0, .num, 0, 0, []⟩
/-- PWR_QUIET (R548). -/
def PWR_QUIET : Reg := ⟨0x30000c, false, 0, 1, 0, 1, [PWR_QUIET_Q]⟩
def PWR_EVT_THERM : Field := ⟨0x300010, 4, 1, .w1c, 0, 448, .num, 0, 0, []⟩
def PWR_EVT_CAP : Field := ⟨0x300010, 3, 1, .w1c, 0, 448, .num, 0, 0, []⟩
def PWR_EVT_ABORT : Field := ⟨0x300010, 2, 1, .w1c, 0, 448, .num, 0, 0, []⟩
def PWR_EVT_REFUSED : Field := ⟨0x300010, 1, 1, .w1c, 0, 448, .num, 0, 0, []⟩
def PWR_EVT_WAKE : Field := ⟨0x300010, 0, 1, .w1c, 0, 448, .num, 0, 0, []⟩
/-- PWR_EVT (R548). -/
def PWR_EVT : Reg := ⟨0x300010, false, 0, 1, 0, 1, [PWR_EVT_THERM, PWR_EVT_CAP, PWR_EVT_ABORT, PWR_EVT_REFUSED, PWR_EVT_WAKE]⟩
def PWR_LAT_ENTRY : Field := ⟨0x300014, 16, 16, .ro, 0, 448, .num, 0, 0, []⟩
def PWR_LAT_EXIT : Field := ⟨0x300014, 0, 16, .ro, 0, 448, .num, 0, 0, []⟩
/-- PWR_LAT (R548). -/
def PWR_LAT : Reg := ⟨0x300014, false, 0, 1, 0, 1, [PWR_LAT_ENTRY, PWR_LAT_EXIT]⟩
def PWR_DROP_COUNT : Field := ⟨0x300018, 0, 32, .own, 0, 448, .num, 0, 0, []⟩
/-- PWR_DROP (R548). -/
def PWR_DROP : Reg := ⟨0x300018, false, 0, 1, 0, 1, [PWR_DROP_COUNT]⟩
def PWR_DOM_REQ_REQ : Field := ⟨0x300020, 1, 5, .own, 0, 448, .b, 0, 0, []⟩
/-- PWR_DOM_REQ (R548). -/
def PWR_DOM_REQ : Reg := ⟨0x300020, false, 0, 1, 0, 1, [PWR_DOM_REQ_REQ]⟩
def PWR_DOM_ON_ON_EMB : Field := ⟨0x300024, 16, 16, .ro, 0, 0, .num, 0, 0, []⟩
def PWR_DOM_ON_ON_DOM : Field := ⟨0x300024, 0, 8, .ro, 0, 0, .num, 0, 0, []⟩
/-- PWR_DOM_ON (R548). -/
def PWR_DOM_ON : Reg := ⟨0x300024, false, 0, 1, 0, 1, [PWR_DOM_ON_ON_EMB, PWR_DOM_ON_ON_DOM]⟩
def PWR_LOCKOUT_LOCK_EMB : Field := ⟨0x300028, 16, 16, .ro, 0, 508, .num, 0, 0, []⟩
def PWR_LOCKOUT_LOCK_DOM : Field := ⟨0x300028, 0, 8, .ro, 0, 508, .num, 0, 0, []⟩
/-- PWR_LOCKOUT (R548). -/
def PWR_LOCKOUT : Reg := ⟨0x300028, false, 0, 1, 0, 1, [PWR_LOCKOUT_LOCK_EMB, PWR_LOCKOUT_LOCK_DOM]⟩
def PWR_ABORTED_AB_EMB : Field := ⟨0x30002c, 16, 16, .w1c, 0, 510, .num, 0, 0, []⟩
def PWR_ABORTED_AB_DOM : Field := ⟨0x30002c, 0, 8, .w1c, 0, 510, .num, 0, 0, []⟩
/-- PWR_ABORTED (R548). -/
def PWR_ABORTED : Reg := ⟨0x30002c, false, 0, 1, 0, 1, [PWR_ABORTED_AB_EMB, PWR_ABORTED_AB_DOM]⟩
def PWR_ABORTLOG_TB : Field := ⟨0x300030, 32, 32, .ro, 0, 510, .num, 0, 0, []⟩
def PWR_ABORTLOG_CAUSE : Field := ⟨0x300030, 12, 4, .ro, 0, 510, .num, 0, 0, []⟩
def PWR_ABORTLOG_DOMAIN : Field := ⟨0x300030, 8, 4, .ro, 0, 510, .num, 0, 0, []⟩
def PWR_ABORTLOG_EMBER : Field := ⟨0x300030, 0, 4, .ro, 0, 510, .num, 0, 0, []⟩
/-- PWR_ABORTLOG (R548). -/
def PWR_ABORTLOG : Reg := ⟨0x300030, true, 0, 1, 0, 1, [PWR_ABORTLOG_TB, PWR_ABORTLOG_CAUSE, PWR_ABORTLOG_DOMAIN, PWR_ABORTLOG_EMBER]⟩
def PWR_RAMP_WIN : Field := ⟨0x300040, 0, 8, .own, 0x28, 508, .num, 4, 0, [(3145792, 60), (3145824, 20)]⟩
/-- PWR_RAMP (R548). -/
def PWR_RAMP : Reg := ⟨0x300040, false, 4, 9, 0, 1, [PWR_RAMP_WIN]⟩
def PWR_CAP_BURST : Field := ⟨0x300100, 16, 16, .own, 0xffff, 448, .num, 0, 0, []⟩
def PWR_CAP_SUS : Field := ⟨0x300100, 0, 16, .own, 0xffff, 448, .num, 0, 0, []⟩
/-- PWR_CAP (R548). -/
def PWR_CAP : Reg := ⟨0x300100, false, 0, 1, 0, 1, [PWR_CAP_BURST, PWR_CAP_SUS]⟩
def PWR_MEAS_P : Field := ⟨0x300104, 0, 16, .ro, 0, 0, .num, 0, 0, []⟩
/-- PWR_MEAS (R548). -/
def PWR_MEAS : Reg := ⟨0x300104, false, 0, 1, 0, 1, [PWR_MEAS_P]⟩
def PWR_BUCKET_E : Field := ⟨0x300108, 0, 32, .ro, 0, 192, .num, 0, 0, []⟩
/-- PWR_BUCKET (R548). -/
def PWR_BUCKET : Reg := ⟨0x300108, false, 0, 1, 0, 1, [PWR_BUCKET_E]⟩
def PWR_LIMIT_THSTEP : Field := ⟨0x30010c, 4, 3, .ro, 0, 192, .num, 0, 0, []⟩
def PWR_LIMIT_CAPSTEP : Field := ⟨0x30010c, 0, 3, .ro, 0, 192, .num, 0, 0, []⟩
/-- PWR_LIMIT (R548). -/
def PWR_LIMIT : Reg := ⟨0x30010c, false, 0, 1, 0, 1, [PWR_LIMIT_THSTEP, PWR_LIMIT_CAPSTEP]⟩
def PWR_THERM_TRIP : Field := ⟨0x300110, 16, 8, .ro, 0x78, 511, .f, 0, 0, []⟩
def PWR_THERM_CRIT : Field := ⟨0x300110, 8, 8, .own, 0x6e, 448, .num, 0, 0, []⟩
def PWR_THERM_THROT : Field := ⟨0x300110, 0, 8, .own, 0x5f, 448, .num, 0, 0, []⟩
/-- PWR_THERM (R548). -/
def PWR_THERM : Reg := ⟨0x300110, false, 0, 1, 0, 1, [PWR_THERM_TRIP, PWR_THERM_CRIT, PWR_THERM_THROT]⟩
def PWR_VCFG_PGEN : Field := ⟨0x300114, 8, 1, .own, 0, 448, .b, 0, 0, []⟩
def PWR_VCFG_SETTLE : Field := ⟨0x300114, 0, 8, .own, 0x14, 448, .num, 0, 0, []⟩
/-- PWR_VCFG (R548). -/
def PWR_VCFG : Reg := ⟨0x300114, false, 0, 1, 0, 1, [PWR_VCFG_PGEN, PWR_VCFG_SETTLE]⟩
/-- The registers of the Pwr window (R24). -/
def windowPwr : List Reg :=
  [PWR_REQ, PWR_STAT, PWR_CTL, PWR_QUIET, PWR_EVT, PWR_LAT, PWR_DROP, PWR_DOM_REQ, PWR_DOM_ON, PWR_LOCKOUT] ++
  [PWR_ABORTED, PWR_ABORTLOG, PWR_RAMP, PWR_CAP, PWR_MEAS, PWR_BUCKET, PWR_LIMIT, PWR_THERM, PWR_VCFG]

def FUM_CTL_CAPT : Field := ⟨0x380000, 0, 1, .wo, 0, 0, .num, 0, 0, []⟩
/-- FUM_CTL (R419). -/
def FUM_CTL : Reg := ⟨0x380000, false, 0, 1, 0, 1, [FUM_CTL_CAPT]⟩
def FUM_STAT_MINIMAL : Field := ⟨0x380004, 31, 1, .ro, 0, 448, .b, 0, 0, []⟩
def FUM_STAT_AOCLK : Field := ⟨0x380004, 30, 1, .ro, 0, 0, .num, 0, 0, []⟩
def FUM_STAT_CAMON : Field := ⟨0x380004, 29, 1, .ro, 0, 0, .num, 0, 0, []⟩
/-- FUM_STAT (R419). -/
def FUM_STAT : Reg := ⟨0x380004, false, 0, 1, 0, 1, [FUM_STAT_MINIMAL, FUM_STAT_AOCLK, FUM_STAT_CAMON]⟩
def FUM_MCU_CTL_RUN : Field := ⟨0x380008, 31, 1, .own, 0, 492, .num, 0, 0, []⟩
def FUM_MCU_CTL_EXT : Field := ⟨0x380008, 30, 1, .ro, 0, 492, .num, 0, 0, []⟩
def FUM_MCU_CTL_DIV : Field := ⟨0x380008, 0, 2, .own, 0, 492, .num, 0, 0, []⟩
/-- FUM_MCU_CTL (R419). -/
def FUM_MCU_CTL : Reg := ⟨0x380008, false, 0, 1, 0, 1, [FUM_MCU_CTL_RUN, FUM_MCU_CTL_EXT, FUM_MCU_CTL_DIV]⟩
def FUM_MBOX_W2M : Field := ⟨0x38000c, 16, 16, .ro, 0, 492, .num, 0, 0, []⟩
def FUM_MBOX_M2W : Field := ⟨0x38000c, 0, 16, .ro, 0, 492, .num, 0, 0, []⟩
/-- FUM_MBOX (R419). -/
def FUM_MBOX : Reg := ⟨0x38000c, false, 0, 1, 0, 1, [FUM_MBOX_W2M, FUM_MBOX_M2W]⟩
def FUM_RTC_RTC : Field := ⟨0x380010, 0, 48, .ro, 0, 508, .num, 0, 0, []⟩
/-- FUM_RTC (R419). -/
def FUM_RTC : Reg := ⟨0x380010, true, 0, 1, 0, 1, [FUM_RTC_RTC]⟩
def FUM_TBSYNC_RTC_VALUE : Field := ⟨0x380018, 0, 48, .ro, 0, 492, .num, 0, 0, []⟩
/-- FUM_TBSYNC_RTC (R419). -/
def FUM_TBSYNC_RTC : Reg := ⟨0x380018, true, 0, 1, 0, 1, [FUM_TBSYNC_RTC_VALUE]⟩
def FUM_TBSYNC_TB_VALUE : Field := ⟨0x380020, 0, 64, .ro, 0, 492, .num, 0, 0, []⟩
/-- FUM_TBSYNC_TB (R419). -/
def FUM_TBSYNC_TB : Reg := ⟨0x380020, true, 0, 1, 0, 1, [FUM_TBSYNC_TB_VALUE]⟩
def FUM_ACMP_CFG_EN : Field := ⟨0x380040, 31, 1, .own, 0, 492, .num, 4, 0, []⟩
def FUM_ACMP_CFG_POL : Field := ⟨0x380040, 30, 1, .own, 0, 492, .num, 4, 0, []⟩
def FUM_ACMP_CFG_HYST : Field := ⟨0x380040, 28, 2, .own, 0, 492, .num, 4, 0, []⟩
def FUM_ACMP_CFG_FILT : Field := ⟨0x380040, 26, 2, .own, 0, 492, .num, 4, 0, []⟩
def FUM_ACMP_CFG_SRC : Field := ⟨0x380040, 24, 1, .own, 0, 492, .num, 4, 0, []⟩
def FUM_ACMP_CFG_THR : Field := ⟨0x380040, 0, 8, .own, 0, 492, .num, 4, 0, []⟩
/-- FUM_ACMP_CFG (R419). -/
def FUM_ACMP_CFG : Reg := ⟨0x380040, false, 4, 4, 0, 1, [FUM_ACMP_CFG_EN, FUM_ACMP_CFG_POL, FUM_ACMP_CFG_HYST, FUM_ACMP_CFG_FILT, FUM_ACMP_CFG_SRC, FUM_ACMP_CFG_THR]⟩
def FUM_ACMP_STAT_LEVEL : Field := ⟨0x380050, 8, 4, .ro, 0, 492, .num, 0, 0, []⟩
def FUM_ACMP_STAT_TRIP : Field := ⟨0x380050, 0, 4, .w1c, 0, 492, .num, 0, 0, []⟩
/-- FUM_ACMP_STAT (R419). -/
def FUM_ACMP_STAT : Reg := ⟨0x380050, false, 0, 1, 0, 1, [FUM_ACMP_STAT_LEVEL, FUM_ACMP_STAT_TRIP]⟩
def FUM_WAKE_EN_EN : Field := ⟨0x380054, 0, 4, .own, 0, 492, .num, 0, 0, []⟩
/-- FUM_WAKE_EN (R419). -/
def FUM_WAKE_EN : Reg := ⟨0x380054, false, 0, 1, 0, 1, [FUM_WAKE_EN_EN]⟩
def FUM_WSRC_ENTRYWAKE : Field := ⟨0x380058, 8, 1, .w1c, 0, 492, .num, 0, 0, []⟩
def FUM_WSRC_SRC : Field := ⟨0x380058, 0, 4, .w1c, 0, 492, .num, 0, 0, []⟩
/-- FUM_WSRC (R419). -/
def FUM_WSRC : Reg := ⟨0x380058, false, 0, 1, 0, 1, [FUM_WSRC_ENTRYWAKE, FUM_WSRC_SRC]⟩
def FUM_WDAC_CODE : Field := ⟨0x38005c, 16, 8, .ro, 0, 492, .num, 0, 0, []⟩
def FUM_WDAC_MAN : Field := ⟨0x38005c, 8, 8, .own, 0, 492, .num, 0, 0, []⟩
def FUM_WDAC_SRC : Field := ⟨0x38005c, 0, 3, .own, 0, 492, .num, 0, 0, []⟩
/-- FUM_WDAC (R419). -/
def FUM_WDAC : Reg := ⟨0x38005c, false, 0, 1, 0, 1, [FUM_WDAC_CODE, FUM_WDAC_MAN, FUM_WDAC_SRC]⟩
def FUM_AOC_CTL_EN : Field := ⟨0x380080, 31, 1, .own, 0, 492, .num, 0, 0, []⟩
def FUM_AOC_CTL_BIN2 : Field := ⟨0x380080, 30, 1, .own, 0, 492, .num, 0, 0, []⟩
def FUM_AOC_CTL_RAW10 : Field := ⟨0x380080, 29, 1, .own, 0, 492, .num, 0, 0, []⟩
def FUM_AOC_CTL_SKIP : Field := ⟨0x380080, 0, 8, .own, 0, 492, .num, 0, 0, []⟩
/-- FUM_AOC_CTL (R419). -/
def FUM_AOC_CTL : Reg := ⟨0x380080, false, 0, 1, 0, 1, [FUM_AOC_CTL_EN, FUM_AOC_CTL_BIN2, FUM_AOC_CTL_RAW10, FUM_AOC_CTL_SKIP]⟩
def FUM_AOC_WIN_Y0 : Field := ⟨0x380084, 16, 16, .own, 0, 492, .num, 0, 0, []⟩
def FUM_AOC_WIN_X0 : Field := ⟨0x380084, 0, 16, .own, 0, 492, .num, 0, 0, []⟩
/-- FUM_AOC_WIN (R419). -/
def FUM_AOC_WIN : Reg := ⟨0x380084, false, 0, 1, 0, 1, [FUM_AOC_WIN_Y0, FUM_AOC_WIN_X0]⟩
def FUM_AOC_SIZE_H : Field := ⟨0x380088, 16, 16, .own, 0, 492, .num, 0, 0, []⟩
def FUM_AOC_SIZE_W : Field := ⟨0x380088, 0, 16, .own, 0, 492, .num, 0, 0, []⟩
/-- FUM_AOC_SIZE (R419). -/
def FUM_AOC_SIZE : Reg := ⟨0x380088, false, 0, 1, 0, 1, [FUM_AOC_SIZE_H, FUM_AOC_SIZE_W]⟩
def FUM_AOC_STAT_FRAMES : Field := ⟨0x38008c, 16, 16, .ro, 0, 492, .num, 0, 0, []⟩
def FUM_AOC_STAT_CFGERR : Field := ⟨0x38008c, 15, 1, .ro, 0, 492, .num, 0, 0, []⟩
def FUM_AOC_STAT_OVR : Field := ⟨0x38008c, 14, 1, .w1c, 0, 492, .num, 0, 0, []⟩
def FUM_AOC_STAT_BUF : Field := ⟨0x38008c, 0, 1, .ro, 0, 492, .num, 0, 0, []⟩
/-- FUM_AOC_STAT (R419). -/
def FUM_AOC_STAT : Reg := ⟨0x38008c, false, 0, 1, 0, 1, [FUM_AOC_STAT_FRAMES, FUM_AOC_STAT_CFGERR, FUM_AOC_STAT_OVR, FUM_AOC_STAT_BUF]⟩
def FUM_AOC_STAMP_RTC : Field := ⟨0x380090, 0, 48, .ro, 0, 492, .num, 0, 0, []⟩
/-- FUM_AOC_STAMP (R419). -/
def FUM_AOC_STAMP : Reg := ⟨0x380090, true, 0, 1, 0, 1, [FUM_AOC_STAMP_RTC]⟩
def FUM_ME_CFG_EN : Field := ⟨0x3800a0, 31, 1, .own, 0, 492, .num, 0, 0, []⟩
def FUM_ME_CFG_MEGATE : Field := ⟨0x3800a0, 8, 8, .own, 0, 492, .num, 0, 0, []⟩
def FUM_ME_CFG_CELLTHR : Field := ⟨0x3800a0, 0, 8, .own, 0, 492, .num, 0, 0, []⟩
/-- FUM_ME_CFG (R419). -/
def FUM_ME_CFG : Reg := ⟨0x3800a0, false, 0, 1, 0, 1, [FUM_ME_CFG_EN, FUM_ME_CFG_MEGATE, FUM_ME_CFG_CELLTHR]⟩
def FUM_ME_SCORE_SCORE : Field := ⟨0x3800a4, 0, 8, .ro, 0, 492, .num, 0, 0, []⟩
/-- FUM_ME_SCORE (R419). -/
def FUM_ME_SCORE : Reg := ⟨0x3800a4, false, 0, 1, 0, 1, [FUM_ME_SCORE_SCORE]⟩
def FUM_ME_MASK_CELLS : Field := ⟨0x3800b0, 0, 32, .own, 0xffffffff, 492, .num, 4, 0, []⟩
/-- FUM_ME_MASK (R419). -/
def FUM_ME_MASK : Reg := ⟨0x3800b0, false, 4, 6, 0, 1, [FUM_ME_MASK_CELLS]⟩
def FUM_FIE_CTL_AUTO : Field := ⟨0x3800c0, 31, 1, .own, 0, 492, .num, 0, 0, []⟩
def FUM_FIE_CTL_GO : Field := ⟨0x3800c0, 30, 1, .wo, 0, 492, .num, 0, 0, []⟩
def FUM_FIE_CTL_LIST : Field := ⟨0x3800c0, 0, 18, .own, 0, 492, .num, 0, 0, []⟩
/-- FUM_FIE_CTL (R419). -/
def FUM_FIE_CTL : Reg := ⟨0x3800c0, false, 0, 1, 0, 1, [FUM_FIE_CTL_AUTO, FUM_FIE_CTL_GO, FUM_FIE_CTL_LIST]⟩
def FUM_FIE_STAT_BUSY : Field := ⟨0x3800c4, 31, 1, .ro, 0, 492, .num, 0, 0, []⟩
def FUM_FIE_STAT_ERR : Field := ⟨0x3800c4, 30, 1, .ro, 0, 492, .num, 0, 0, []⟩
def FUM_FIE_STAT_SAT : Field := ⟨0x3800c4, 29, 1, .ro, 0, 492, .num, 0, 0, []⟩
/-- FUM_FIE_STAT (R419). -/
def FUM_FIE_STAT : Reg := ⟨0x3800c4, false, 0, 1, 0, 1, [FUM_FIE_STAT_BUSY, FUM_FIE_STAT_ERR, FUM_FIE_STAT_SAT]⟩
def FUM_FIE_SCORE_CODE : Field := ⟨0x3800c8, 0, 8, .ro, 0, 492, .num, 0, 0, []⟩
/-- FUM_FIE_SCORE (R419). -/
def FUM_FIE_SCORE : Reg := ⟨0x3800c8, false, 0, 1, 0, 1, [FUM_FIE_SCORE_CODE]⟩
def AOSER_CTL_EN : Field := ⟨0x380400, 31, 1, .own, 0, 492, .num, 0, 0, []⟩
def AOSER_CTL_DIV : Field := ⟨0x380400, 16, 12, .own, 0x95, 492, .num, 0, 0, []⟩
def AOSER_CTL_CS1EN : Field := ⟨0x380400, 2, 1, .own, 0, 492, .num, 0, 0, []⟩
def AOSER_CTL_SMODE : Field := ⟨0x380400, 0, 2, .own, 0, 492, .num, 0, 0, []⟩
/-- AOSER_CTL (R635). -/
def AOSER_CTL : Reg := ⟨0x380400, false, 0, 1, 0, 1, [AOSER_CTL_EN, AOSER_CTL_DIV, AOSER_CTL_CS1EN, AOSER_CTL_SMODE]⟩
def AOSER_CMD_GO : Field := ⟨0x380404, 31, 1, .wo, 0, 0, .num, 0, 0, []⟩
def AOSER_CMD_RD : Field := ⟨0x380404, 30, 1, .wo, 0, 0, .num, 0, 0, []⟩
def AOSER_CMD_LEN : Field := ⟨0x380404, 24, 6, .wo, 0, 0, .num, 0, 0, []⟩
def AOSER_CMD_NOSTOP : Field := ⟨0x380404, 23, 1, .wo, 0, 0, .num, 0, 0, []⟩
def AOSER_CMD_ADDR : Field := ⟨0x380404, 16, 7, .wo, 0, 0, .num, 0, 0, []⟩
def AOSER_CMD_CCC : Field := ⟨0x380404, 8, 8, .wo, 0, 0, .num, 0, 0, []⟩
def AOSER_CMD_KIND : Field := ⟨0x380404, 6, 2, .wo, 0, 0, .num, 0, 0, []⟩
/-- AOSER_CMD (R635). -/
def AOSER_CMD : Reg := ⟨0x380404, false, 0, 1, 0, 1, [AOSER_CMD_GO, AOSER_CMD_RD, AOSER_CMD_LEN, AOSER_CMD_NOSTOP, AOSER_CMD_ADDR, AOSER_CMD_CCC, AOSER_CMD_KIND]⟩
def AOSER_STAT_BUSY : Field := ⟨0x380408, 31, 1, .ro, 0, 0, .num, 0, 0, []⟩
def AOSER_STAT_DONE : Field := ⟨0x380408, 30, 1, .w1c, 0, 448, .num, 0, 0, []⟩
def AOSER_STAT_IBI : Field := ⟨0x380408, 29, 1, .w1c, 0, 448, .num, 0, 0, []⟩
def AOSER_STAT_COUNT : Field := ⟨0x380408, 16, 7, .ro, 0, 448, .num, 0, 0, []⟩
def AOSER_STAT_RESULT : Field := ⟨0x380408, 0, 4, .ro, 0, 448, .num, 0, 0, []⟩
/-- AOSER_STAT (R635). -/
def AOSER_STAT : Reg := ⟨0x380408, false, 0, 1, 0, 1, [AOSER_STAT_BUSY, AOSER_STAT_DONE, AOSER_STAT_IBI, AOSER_STAT_COUNT, AOSER_STAT_RESULT]⟩
def AOSER_IBI_ADDR : Field := ⟨0x38040c, 24, 7, .ro, 0, 448, .num, 0, 0, []⟩
def AOSER_IBI_PAYLOAD : Field := ⟨0x38040c, 0, 24, .ro, 0, 448, .num, 0, 0, []⟩
/-- AOSER_IBI (R635). -/
def AOSER_IBI : Reg := ⟨0x38040c, false, 0, 1, 0, 1, [AOSER_IBI_ADDR, AOSER_IBI_PAYLOAD]⟩
def AOSER_DAT_DATA : Field := ⟨0x380440, 0, 32, .own, 0, 448, .num, 4, 0, []⟩
/-- AOSER_DAT (R635). -/
def AOSER_DAT : Reg := ⟨0x380440, false, 4, 16, 0, 1, [AOSER_DAT_DATA]⟩
/-- The registers of the Fum window (R24). -/
def windowFum : List Reg :=
  [FUM_CTL, FUM_STAT, FUM_MCU_CTL, FUM_MBOX, FUM_RTC, FUM_TBSYNC_RTC, FUM_TBSYNC_TB, FUM_ACMP_CFG, FUM_ACMP_STAT, FUM_WAKE_EN] ++
  [FUM_WSRC, FUM_WDAC, FUM_AOC_CTL, FUM_AOC_WIN, FUM_AOC_SIZE, FUM_AOC_STAT, FUM_AOC_STAMP, FUM_ME_CFG, FUM_ME_SCORE, FUM_ME_MASK] ++
  [FUM_FIE_CTL, FUM_FIE_STAT, FUM_FIE_SCORE, AOSER_CTL, AOSER_CMD, AOSER_STAT, AOSER_IBI, AOSER_DAT]

def PAD_STAT_CONFL : Field := ⟨0x400000, 8, 1, .ro, 0, 0, .num, 0, 0, []⟩
def PAD_STAT_V33 : Field := ⟨0x400000, 0, 2, .ro, 0, 511, .f, 0, 0, []⟩
/-- PAD_STAT (R635). -/
def PAD_STAT : Reg := ⟨0x400000, false, 0, 1, 0, 1, [PAD_STAT_CONFL, PAD_STAT_V33]⟩
def PAD_STRAP_STRAPS : Field := ⟨0x400004, 0, 4, .ro, 4, 511, .f, 0, 0, []⟩
/-- PAD_STRAP (R635). -/
def PAD_STRAP : Reg := ⟨0x400004, false, 0, 1, 0, 1, [PAD_STRAP_STRAPS]⟩
def PAD_IN_IN : Field := ⟨0x400010, 0, 32, .ro, 0, 0, .num, 4, 0, []⟩
/-- PAD_IN (R635). -/
def PAD_IN : Reg := ⟨0x400010, false, 4, 2, 0, 1, [PAD_IN_IN]⟩
def PAD_OUT_OUT : Field := ⟨0x400020, 0, 32, .own, 0, 236, .num, 4, 0, []⟩
/-- PAD_OUT (R635). -/
def PAD_OUT : Reg := ⟨0x400020, false, 4, 2, 0, 1, [PAD_OUT_OUT]⟩
/-- PAD_OUTSET (alias). -/
def PAD_OUTSET : Reg := ⟨0x400028, false, 4, 2, 0, 1, []⟩
/-- PAD_OUTCLR (alias). -/
def PAD_OUTCLR : Reg := ⟨0x400030, false, 4, 2, 0, 1, []⟩
def PAD_OE_OE : Field := ⟨0x400038, 0, 32, .own, 0, 236, .num, 4, 0, []⟩
/-- PAD_OE (R635). -/
def PAD_OE : Reg := ⟨0x400038, false, 4, 2, 0, 1, [PAD_OE_OE]⟩
def PAD_IRQSTAT_EVT : Field := ⟨0x400040, 0, 32, .w1c, 0, 236, .num, 4, 0, []⟩
/-- PAD_IRQSTAT (R635). -/
def PAD_IRQSTAT : Reg := ⟨0x400040, false, 4, 2, 0, 1, [PAD_IRQSTAT_EVT]⟩
def PAD_GSIG_HANDLE : Field := ⟨0x400050, 0, 32, .own, 0, 236, .num, 0, 0, []⟩
/-- PAD_GSIG (R635). -/
def PAD_GSIG : Reg := ⟨0x400050, false, 0, 1, 0, 1, [PAD_GSIG_HANDLE]⟩
def PAD_GCNT_COUNT : Field := ⟨0x400058, 0, 64, .ro, 0, 236, .num, 0, 0, []⟩
/-- PAD_GCNT (R635). -/
def PAD_GCNT : Reg := ⟨0x400058, true, 0, 1, 0, 1, [PAD_GCNT_COUNT]⟩
def PAD_MCLK_EN : Field := ⟨0x400060, 31, 1, .own, 0, 236, .num, 4, 0, []⟩
def PAD_MCLK_DIV : Field := ⟨0x400060, 0, 10, .own, 0xc8, 236, .num, 4, 0, []⟩
/-- PAD_MCLK (R635). -/
def PAD_MCLK : Reg := ⟨0x400060, false, 4, 4, 0, 1, [PAD_MCLK_EN, PAD_MCLK_DIV]⟩
def PAD_PIN_CONFL : Field := ⟨0x400100, 23, 1, .w1c, 0, 0, .num, 4, 0, []⟩
def PAD_PIN_FSEL : Field := ⟨0x400100, 20, 2, .ro, 0, 0, .num, 4, 0, []⟩
def PAD_PIN_DEB : Field := ⟨0x400100, 16, 2, .own, 0, 236, .num, 4, 0, []⟩
def PAD_PIN_IMODE : Field := ⟨0x400100, 12, 3, .own, 0, 236, .num, 4, 0, []⟩
def PAD_PIN_OD : Field := ⟨0x400100, 11, 1, .own, 0, 236, .num, 4, 0, []⟩
def PAD_PIN_SLOW : Field := ⟨0x400100, 10, 1, .own, 0, 236, .num, 4, 0, []⟩
def PAD_PIN_DRIVE : Field := ⟨0x400100, 8, 2, .own, 1, 236, .num, 4, 0, []⟩
def PAD_PIN_PULL : Field := ⟨0x400100, 4, 2, .own, 1, 236, .num, 4, 0, [(4194560, 0), (4194564, 0), (4194568, 0), (4194572, 0)]⟩
def PAD_PIN_FMASK : Field := ⟨0x400100, 0, 2, .own, 0, 236, .num, 4, 0, []⟩
/-- PAD_PIN (R635). -/
def PAD_PIN : Reg := ⟨0x400100, false, 4, 48, 0, 1, [PAD_PIN_CONFL, PAD_PIN_FSEL, PAD_PIN_DEB, PAD_PIN_IMODE, PAD_PIN_OD, PAD_PIN_SLOW, PAD_PIN_DRIVE, PAD_PIN_PULL, PAD_PIN_FMASK]⟩
def SER_CTL_EN : Field := ⟨0x400400, 31, 1, .own, 0, 236, .num, 256, 0, []⟩
def SER_CTL_DIV : Field := ⟨0x400400, 16, 12, .own, 0x95, 236, .num, 256, 0, []⟩
def SER_CTL_CS1EN : Field := ⟨0x400400, 2, 1, .own, 0, 236, .num, 256, 0, []⟩
def SER_CTL_SMODE : Field := ⟨0x400400, 0, 2, .own, 0, 236, .num, 256, 0, []⟩
/-- SER_CTL (R635). -/
def SER_CTL : Reg := ⟨0x400400, false, 256, 3, 0, 1, [SER_CTL_EN, SER_CTL_DIV, SER_CTL_CS1EN, SER_CTL_SMODE]⟩
def SER_CMD_GO : Field := ⟨0x400404, 31, 1, .wo, 0, 0, .num, 256, 0, []⟩
def SER_CMD_RD : Field := ⟨0x400404, 30, 1, .wo, 0, 0, .num, 256, 0, []⟩
def SER_CMD_LEN : Field := ⟨0x400404, 24, 6, .wo, 0, 0, .num, 256, 0, []⟩
def SER_CMD_NOSTOP : Field := ⟨0x400404, 23, 1, .wo, 0, 0, .num, 256, 0, []⟩
def SER_CMD_ADDR : Field := ⟨0x400404, 16, 7, .wo, 0, 0, .num, 256, 0, []⟩
def SER_CMD_CCC : Field := ⟨0x400404, 8, 8, .wo, 0, 0, .num, 256, 0, []⟩
def SER_CMD_KIND : Field := ⟨0x400404, 6, 2, .wo, 0, 0, .num, 256, 0, []⟩
/-- SER_CMD (R635). -/
def SER_CMD : Reg := ⟨0x400404, false, 256, 3, 0, 1, [SER_CMD_GO, SER_CMD_RD, SER_CMD_LEN, SER_CMD_NOSTOP, SER_CMD_ADDR, SER_CMD_CCC, SER_CMD_KIND]⟩
def SER_STAT_BUSY : Field := ⟨0x400408, 31, 1, .ro, 0, 0, .num, 256, 0, []⟩
def SER_STAT_DONE : Field := ⟨0x400408, 30, 1, .w1c, 0, 192, .num, 256, 0, []⟩
def SER_STAT_IBI : Field := ⟨0x400408, 29, 1, .w1c, 0, 192, .num, 256, 0, []⟩
def SER_STAT_COUNT : Field := ⟨0x400408, 16, 7, .ro, 0, 192, .num, 256, 0, []⟩
def SER_STAT_RESULT : Field := ⟨0x400408, 0, 4, .ro, 0, 192, .num, 256, 0, []⟩
/-- SER_STAT (R635). -/
def SER_STAT : Reg := ⟨0x400408, false, 256, 3, 0, 1, [SER_STAT_BUSY, SER_STAT_DONE, SER_STAT_IBI, SER_STAT_COUNT, SER_STAT_RESULT]⟩
def SER_IBI_ADDR : Field := ⟨0x40040c, 24, 7, .ro, 0, 192, .num, 256, 0, []⟩
def SER_IBI_PAYLOAD : Field := ⟨0x40040c, 0, 24, .ro, 0, 192, .num, 256, 0, []⟩
/-- SER_IBI (R635). -/
def SER_IBI : Reg := ⟨0x40040c, false, 256, 3, 0, 1, [SER_IBI_ADDR, SER_IBI_PAYLOAD]⟩
def SER_DAT_DATA : Field := ⟨0x400440, 0, 32, .own, 0, 192, .num, 256, 4, []⟩
/-- SER_DAT (R635). -/
def SER_DAT : Reg := ⟨0x400440, false, 256, 3, 4, 16, [SER_DAT_DATA]⟩
def PAD_HOLD_REL_REL : Field := ⟨0x400f00, 0, 1, .wo, 0, 0, .num, 0, 0, []⟩
/-- PAD_HOLD_REL (R540). -/
def PAD_HOLD_REL : Reg := ⟨0x400f00, false, 0, 1, 0, 1, [PAD_HOLD_REL_REL]⟩
def PAD_HOLD_STAT_GEN : Field := ⟨0x400f04, 4, 1, .ro, 0, 508, .num, 0, 0, []⟩
def PAD_HOLD_STAT_CHL : Field := ⟨0x400f04, 3, 1, .ro, 0, 508, .num, 0, 0, []⟩
def PAD_HOLD_STAT_HIF : Field := ⟨0x400f04, 2, 1, .ro, 0, 508, .num, 0, 0, []⟩
def PAD_HOLD_STAT_MEM : Field := ⟨0x400f04, 1, 1, .ro, 0, 508, .num, 0, 0, []⟩
def PAD_HOLD_STAT_BOOT : Field := ⟨0x400f04, 0, 1, .ro, 0, 508, .num, 0, 0, []⟩
/-- PAD_HOLD_STAT (R540). -/
def PAD_HOLD_STAT : Reg := ⟨0x400f04, false, 0, 1, 0, 1, [PAD_HOLD_STAT_GEN, PAD_HOLD_STAT_CHL, PAD_HOLD_STAT_HIF, PAD_HOLD_STAT_MEM, PAD_HOLD_STAT_BOOT]⟩
/-- The registers of the Pad window (R24). -/
def windowPad : List Reg :=
  [PAD_STAT, PAD_STRAP, PAD_IN, PAD_OUT, PAD_OUTSET, PAD_OUTCLR, PAD_OE, PAD_IRQSTAT, PAD_GSIG, PAD_GCNT] ++
  [PAD_MCLK, PAD_PIN, SER_CTL, SER_CMD, SER_STAT, SER_IBI, SER_DAT, PAD_HOLD_REL, PAD_HOLD_STAT]

def WSP_CTL_EN : Field := ⟨0x500000, 31, 1, .own, 0, 192, .num, 0, 0, []⟩
def WSP_CTL_SPEC : Field := ⟨0x500000, 30, 1, .own, 1, 192, .num, 0, 0, []⟩
def WSP_CTL_PRE_EN : Field := ⟨0x500000, 29, 1, .own, 1, 192, .num, 0, 0, []⟩
def WSP_CTL_RAMAX : Field := ⟨0x500000, 8, 9, .own, 0x80, 192, .num, 0, 0, []⟩
/-- WSP_CTL (R324). -/
def WSP_CTL : Reg := ⟨0x500000, false, 0, 1, 0, 1, [WSP_CTL_EN, WSP_CTL_SPEC, WSP_CTL_PRE_EN, WSP_CTL_RAMAX]⟩
def WSP_STAT_IDLE : Field := ⟨0x500004, 31, 1, .ro, 1, 0, .num, 0, 0, []⟩
def WSP_STAT_WIN : Field := ⟨0x500004, 16, 9, .ro, 0, 0, .num, 0, 0, []⟩
def WSP_STAT_RUNNABLE : Field := ⟨0x500004, 0, 16, .ro, 0, 0, .num, 0, 0, []⟩
/-- WSP_STAT (R324). -/
def WSP_STAT : Reg := ⟨0x500004, false, 0, 1, 0, 1, [WSP_STAT_IDLE, WSP_STAT_WIN, WSP_STAT_RUNNABLE]⟩
def WSP_GATE_IDLE_US : Field := ⟨0x500008, 16, 16, .own, 0xc8, 192, .num, 0, 0, []⟩
def WSP_GATE_MINON : Field := ⟨0x500008, 0, 5, .own, 0x10, 192, .num, 0, 0, []⟩
/-- WSP_GATE (R324). -/
def WSP_GATE : Reg := ⟨0x500008, false, 0, 1, 0, 1, [WSP_GATE_IDLE_US, WSP_GATE_MINON]⟩
def WSP_DB_ERR_COUNT : Field := ⟨0x50000c, 0, 32, .own, 0, 192, .num, 0, 0, []⟩
/-- WSP_DB_ERR (R324). -/
def WSP_DB_ERR : Reg := ⟨0x50000c, false, 0, 1, 0, 1, [WSP_DB_ERR_COUNT]⟩
def WSP_DLMISS_COUNT : Field := ⟨0x500010, 0, 32, .own, 0, 192, .num, 0, 0, []⟩
/-- WSP_DLMISS (R324). -/
def WSP_DLMISS : Reg := ⟨0x500010, false, 0, 1, 0, 1, [WSP_DLMISS_COUNT]⟩
def WSP_MISPRED_COUNT : Field := ⟨0x500014, 0, 32, .own, 0, 192, .num, 0, 0, []⟩
/-- WSP_MISPRED (R324). -/
def WSP_MISPRED : Reg := ⟨0x500014, false, 0, 1, 0, 1, [WSP_MISPRED_COUNT]⟩
def WSP_PREEMPTS_COUNT : Field := ⟨0x500018, 0, 32, .own, 0, 192, .num, 0, 0, []⟩
/-- WSP_PREEMPTS (R324). -/
def WSP_PREEMPTS : Reg := ⟨0x500018, false, 0, 1, 0, 1, [WSP_PREEMPTS_COUNT]⟩
def WSP_QSTAT_STATE : Field := ⟨0x500100, 30, 2, .ro, 0, 192, .num, 4, 0, []⟩
def WSP_QSTAT_DLW : Field := ⟨0x500100, 29, 1, .ro, 0, 192, .num, 4, 0, []⟩
def WSP_QSTAT_WIN : Field := ⟨0x500100, 20, 9, .ro, 0, 192, .num, 4, 0, []⟩
def WSP_QSTAT_QINDEX : Field := ⟨0x500100, 0, 20, .ro, 0, 192, .num, 4, 0, []⟩
/-- WSP_QSTAT (R324). -/
def WSP_QSTAT : Reg := ⟨0x500100, false, 4, 64, 0, 1, [WSP_QSTAT_STATE, WSP_QSTAT_DLW, WSP_QSTAT_WIN, WSP_QSTAT_QINDEX]⟩
/-- The registers of the Wsp window (R24). -/
def windowWsp : List Reg :=
  [WSP_CTL, WSP_STAT, WSP_GATE, WSP_DB_ERR, WSP_DLMISS, WSP_MISPRED, WSP_PREEMPTS, WSP_QSTAT]

def SYN_CTL_EN : Field := ⟨0x600000, 31, 1, .own, 0, 192, .num, 0, 0, []⟩
def SYN_CTL_AIRQ : Field := ⟨0x600000, 1, 1, .own, 0, 192, .num, 0, 0, []⟩
def SYN_CTL_CIRQ : Field := ⟨0x600000, 0, 1, .own, 0, 192, .num, 0, 0, []⟩
/-- SYN_CTL (R282). -/
def SYN_CTL : Reg := ⟨0x600000, false, 0, 1, 0, 1, [SYN_CTL_EN, SYN_CTL_AIRQ, SYN_CTL_CIRQ]⟩
def SYN_STAT_RCTX : Field := ⟨0x600004, 20, 6, .ro, 0, 0, .num, 0, 0, []⟩
def SYN_STAT_RQUE : Field := ⟨0x600004, 13, 7, .ro, 0, 0, .num, 0, 0, []⟩
def SYN_STAT_RSYNC : Field := ⟨0x600004, 0, 13, .ro, 0, 0, .num, 0, 0, []⟩
/-- SYN_STAT (R282). -/
def SYN_STAT : Reg := ⟨0x600004, false, 0, 1, 0, 1, [SYN_STAT_RCTX, SYN_STAT_RQUE, SYN_STAT_RSYNC]⟩
def SYN_RESCFG_BLOCKED : Field := ⟨0x600008, 16, 16, .own, 0xa, 192, .num, 0, 0, []⟩
def SYN_RESCFG_QUANTUM : Field := ⟨0x600008, 0, 16, .own, 0x64, 192, .num, 0, 0, []⟩
/-- SYN_RESCFG (R282). -/
def SYN_RESCFG : Reg := ⟨0x600008, false, 0, 1, 0, 1, [SYN_RESCFG_BLOCKED, SYN_RESCFG_QUANTUM]⟩
def SYN_OBJERR_COUNT : Field := ⟨0x60000c, 0, 32, .own, 0, 192, .num, 0, 0, []⟩
/-- SYN_OBJERR (R282). -/
def SYN_OBJERR : Reg := ⟨0x60000c, false, 0, 1, 0, 1, [SYN_OBJERR_COUNT]⟩
def SYN_TBL_BASE_ADDR : Field := ⟨0x600010, 12, 32, .rwl, 0, 192, .num, 16, 0, []⟩
/-- SYN_TBL_BASE (R282). -/
def SYN_TBL_BASE : Reg := ⟨0x600010, true, 16, 4, 0, 1, [SYN_TBL_BASE_ADDR]⟩
def SYN_TBL_CFG_LOG2N : Field := ⟨0x600018, 0, 5, .rwl, 0, 192, .num, 16, 0, []⟩
/-- SYN_TBL_CFG (R282). -/
def SYN_TBL_CFG : Reg := ⟨0x600018, false, 16, 4, 0, 1, [SYN_TBL_CFG_LOG2N]⟩
def SYN_CMD_ERR : Field := ⟨0x600050, 16, 16, .own, 0, 0, .num, 0, 0, []⟩
def SYN_CMD_OP : Field := ⟨0x600050, 0, 4, .own, 0, 0, .num, 0, 0, []⟩
/-- SYN_CMD (R283). -/
def SYN_CMD : Reg := ⟨0x600050, false, 0, 1, 0, 1, [SYN_CMD_ERR, SYN_CMD_OP]⟩
def SYN_CMD_H_HANDLE : Field := ⟨0x600054, 0, 32, .own, 0, 0, .num, 0, 0, []⟩
/-- SYN_CMD_H (R283). -/
def SYN_CMD_H : Reg := ⟨0x600054, false, 0, 1, 0, 1, [SYN_CMD_H_HANDLE]⟩
def SYN_CMD_ARG_VALUE : Field := ⟨0x600058, 0, 64, .own, 0, 0, .num, 0, 0, []⟩
/-- SYN_CMD_ARG (R283). -/
def SYN_CMD_ARG : Reg := ⟨0x600058, true, 0, 1, 0, 1, [SYN_CMD_ARG_VALUE]⟩
def SYN_CMD_STAT_BUSY : Field := ⟨0x600060, 31, 1, .ro, 0, 0, .num, 0, 0, []⟩
def SYN_CMD_STAT_DONE : Field := ⟨0x600060, 30, 1, .w1c, 0, 192, .num, 0, 0, []⟩
def SYN_CMD_STAT_REJ : Field := ⟨0x600060, 29, 1, .w1c, 0, 192, .num, 0, 0, []⟩
def SYN_CMD_STAT_RESULT : Field := ⟨0x600060, 0, 8, .ro, 0, 192, .num, 0, 0, []⟩
/-- SYN_CMD_STAT (R283). -/
def SYN_CMD_STAT : Reg := ⟨0x600060, false, 0, 1, 0, 1, [SYN_CMD_STAT_BUSY, SYN_CMD_STAT_DONE, SYN_CMD_STAT_REJ, SYN_CMD_STAT_RESULT]⟩
def SYN_RES_ERR_ERRCNT : Field := ⟨0x600064, 16, 16, .ro, 0, 192, .num, 0, 0, []⟩
def SYN_RES_ERR_ERR : Field := ⟨0x600064, 0, 16, .ro, 0, 192, .num, 0, 0, []⟩
/-- SYN_RES_ERR (R283). -/
def SYN_RES_ERR : Reg := ⟨0x600064, false, 0, 1, 0, 1, [SYN_RES_ERR_ERRCNT, SYN_RES_ERR_ERR]⟩
def SYN_RES_VALUE_VALUE : Field := ⟨0x600068, 0, 64, .ro, 0, 192, .num, 0, 0, []⟩
/-- SYN_RES_VALUE (R283). -/
def SYN_RES_VALUE : Reg := ⟨0x600068, true, 0, 1, 0, 1, [SYN_RES_VALUE_VALUE]⟩
def SYN_RES_EPOINT_EPOINT : Field := ⟨0x600070, 0, 64, .ro, 0, 192, .num, 0, 0, []⟩
/-- SYN_RES_EPOINT (R283). -/
def SYN_RES_EPOINT : Reg := ⟨0x600070, true, 0, 1, 0, 1, [SYN_RES_EPOINT_EPOINT]⟩
def SYN_ABORT_H_HANDLE : Field := ⟨0x600080, 0, 32, .own, 0, 0, .num, 0, 0, []⟩
/-- SYN_ABORT_H (R284). -/
def SYN_ABORT_H : Reg := ⟨0x600080, false, 0, 1, 0, 1, [SYN_ABORT_H_HANDLE]⟩
def SYN_ABORT_CMD_KIND : Field := ⟨0x600084, 0, 2, .own, 0, 0, .num, 0, 0, []⟩
/-- SYN_ABORT_CMD (R284). -/
def SYN_ABORT_CMD : Reg := ⟨0x600084, false, 0, 1, 0, 1, [SYN_ABORT_CMD_KIND]⟩
def SYN_ABORT_STAT_BUSY : Field := ⟨0x600088, 31, 1, .ro, 0, 0, .num, 0, 0, []⟩
def SYN_ABORT_STAT_DONE : Field := ⟨0x600088, 30, 1, .w1c, 0, 192, .num, 0, 0, []⟩
def SYN_ABORT_STAT_REJ : Field := ⟨0x600088, 29, 1, .w1c, 0, 192, .num, 0, 0, []⟩
def SYN_ABORT_STAT_UNREACH : Field := ⟨0x600088, 8, 3, .ro, 0, 192, .num, 0, 0, []⟩
def SYN_ABORT_STAT_RESULT : Field := ⟨0x600088, 0, 8, .ro, 0, 192, .num, 0, 0, []⟩
/-- SYN_ABORT_STAT (R284). -/
def SYN_ABORT_STAT : Reg := ⟨0x600088, false, 0, 1, 0, 1, [SYN_ABORT_STAT_BUSY, SYN_ABORT_STAT_DONE, SYN_ABORT_STAT_REJ, SYN_ABORT_STAT_UNREACH, SYN_ABORT_STAT_RESULT]⟩
def SYN_XSIG_H_HANDLE : Field := ⟨0x600100, 0, 32, .own, 0, 192, .num, 16, 0, []⟩
/-- SYN_XSIG_H (R284). -/
def SYN_XSIG_H : Reg := ⟨0x600100, false, 16, 8, 0, 1, [SYN_XSIG_H_HANDLE]⟩
def SYN_XSIG_VAL_VALUE : Field := ⟨0x600108, 0, 64, .wo, 0, 0, .num, 16, 0, []⟩
/-- SYN_XSIG_VAL (R284). -/
def SYN_XSIG_VAL : Reg := ⟨0x600108, true, 16, 8, 0, 1, [SYN_XSIG_VAL_VALUE]⟩
/-- The registers of the Syn window (R24). -/
def windowSyn : List Reg :=
  [SYN_CTL, SYN_STAT, SYN_RESCFG, SYN_OBJERR, SYN_TBL_BASE, SYN_TBL_CFG, SYN_CMD, SYN_CMD_H, SYN_CMD_ARG, SYN_CMD_STAT] ++
  [SYN_RES_ERR, SYN_RES_VALUE, SYN_RES_EPOINT, SYN_ABORT_H, SYN_ABORT_CMD, SYN_ABORT_STAT, SYN_XSIG_H, SYN_XSIG_VAL]

def DTU_CTL_EN : Field := ⟨0x700000, 31, 1, .own, 0, 192, .num, 0, 0, []⟩
def DTU_CTL_PROXY : Field := ⟨0x700000, 30, 1, .ro, 0, 240, .b, 0, 0, []⟩
def DTU_CTL_ACEN : Field := ⟨0x700000, 29, 1, .own, 0, 192, .num, 0, 0, []⟩
def DTU_CTL_MNIEN : Field := ⟨0x700000, 28, 1, .own, 0, 192, .num, 0, 0, []⟩
def DTU_CTL_SLOTMAX : Field := ⟨0x700000, 16, 8, .own, 0x40, 192, .num, 0, 0, []⟩
def DTU_CTL_PARKMAX : Field := ⟨0x700000, 8, 5, .own, 0x10, 192, .num, 0, 0, []⟩
def DTU_CTL_HMAX : Field := ⟨0x700000, 0, 4, .own, 8, 192, .num, 0, 0, []⟩
/-- DTU_CTL (R244). -/
def DTU_CTL : Reg := ⟨0x700000, false, 0, 1, 0, 1, [DTU_CTL_EN, DTU_CTL_PROXY, DTU_CTL_ACEN, DTU_CTL_MNIEN, DTU_CTL_SLOTMAX, DTU_CTL_PARKMAX, DTU_CTL_HMAX]⟩
def DTU_STAT_PRI_FAILED : Field := ⟨0x700004, 31, 1, .ro, 0, 192, .num, 0, 0, []⟩
def DTU_STAT_AC_BUSY : Field := ⟨0x700004, 30, 1, .ro, 0, 0, .num, 0, 0, []⟩
def DTU_STAT_INVQ : Field := ⟨0x700004, 24, 6, .ro, 0, 0, .num, 0, 0, []⟩
def DTU_STAT_PINNED : Field := ⟨0x700004, 15, 9, .ro, 0, 0, .num, 0, 0, []⟩
def DTU_STAT_PARKED : Field := ⟨0x700004, 7, 8, .ro, 0, 0, .num, 0, 0, []⟩
def DTU_STAT_HBUSY : Field := ⟨0x700004, 0, 6, .ro, 0, 0, .num, 0, 0, []⟩
/-- DTU_STAT (R244). -/
def DTU_STAT : Reg := ⟨0x700004, false, 0, 1, 0, 1, [DTU_STAT_PRI_FAILED, DTU_STAT_AC_BUSY, DTU_STAT_INVQ, DTU_STAT_PINNED, DTU_STAT_PARKED, DTU_STAT_HBUSY]⟩
def DTU_DMWIN_BASE_ADDR : Field := ⟨0x700010, 30, 34, .own, 0, 192, .num, 0, 0, []⟩
def DTU_DMWIN_BASE_EN : Field := ⟨0x700010, 0, 1, .own, 0, 192, .num, 0, 0, []⟩
/-- DTU_DMWIN_BASE (R245). -/
def DTU_DMWIN_BASE : Reg := ⟨0x700010, true, 0, 1, 0, 1, [DTU_DMWIN_BASE_ADDR, DTU_DMWIN_BASE_EN]⟩
def DTU_DMWIN_LIM_ADDR : Field := ⟨0x700018, 30, 34, .own, 0, 192, .num, 0, 0, []⟩
/-- DTU_DMWIN_LIM (R245). -/
def DTU_DMWIN_LIM : Reg := ⟨0x700018, true, 0, 1, 0, 1, [DTU_DMWIN_LIM_ADDR]⟩
def DTU_INV_ADDR_VA : Field := ⟨0x700020, 12, 52, .own, 0, 192, .num, 0, 0, []⟩
/-- DTU_INV_ADDR (R245). -/
def DTU_INV_ADDR : Reg := ⟨0x700020, true, 0, 1, 0, 1, [DTU_INV_ADDR_VA]⟩
def DTU_INV_CMD_KIND : Field := ⟨0x700028, 30, 2, .own, 0, 0, .num, 0, 0, []⟩
def DTU_INV_CMD_NPG : Field := ⟨0x700028, 20, 5, .own, 0, 0, .num, 0, 0, []⟩
def DTU_INV_CMD_PASID : Field := ⟨0x700028, 0, 20, .own, 0, 0, .num, 0, 0, []⟩
/-- DTU_INV_CMD (R245). -/
def DTU_INV_CMD : Reg := ⟨0x700028, false, 0, 1, 0, 1, [DTU_INV_CMD_KIND, DTU_INV_CMD_NPG, DTU_INV_CMD_PASID]⟩
def DTU_INV_STAT_BUSY : Field := ⟨0x70002c, 31, 1, .ro, 0, 0, .num, 0, 0, []⟩
def DTU_INV_STAT_DONE : Field := ⟨0x70002c, 30, 1, .w1c, 0, 192, .num, 0, 0, []⟩
def DTU_INV_STAT_REJ : Field := ⟨0x70002c, 29, 1, .w1c, 0, 192, .num, 0, 0, []⟩
/-- DTU_INV_STAT (R245). -/
def DTU_INV_STAT : Reg := ⟨0x70002c, false, 0, 1, 0, 1, [DTU_INV_STAT_BUSY, DTU_INV_STAT_DONE, DTU_INV_STAT_REJ]⟩
def DTU_UFLT_CNT_COUNT : Field := ⟨0x700030, 0, 32, .own, 0, 192, .num, 0, 0, []⟩
/-- DTU_UFLT_CNT (R246). -/
def DTU_UFLT_CNT : Reg := ⟨0x700030, false, 0, 1, 0, 1, [DTU_UFLT_CNT_COUNT]⟩
def DTU_PRI_CNT_COUNT : Field := ⟨0x700034, 0, 32, .own, 0, 192, .num, 0, 0, []⟩
/-- DTU_PRI_CNT (R246). -/
def DTU_PRI_CNT : Reg := ⟨0x700034, false, 0, 1, 0, 1, [DTU_PRI_CNT_COUNT]⟩
def DTU_PRG_STRAY_COUNT : Field := ⟨0x700038, 0, 32, .own, 0, 192, .num, 0, 0, []⟩
/-- DTU_PRG_STRAY (R246). -/
def DTU_PRG_STRAY : Reg := ⟨0x700038, false, 0, 1, 0, 1, [DTU_PRG_STRAY_COUNT]⟩
def DTU_AC_BASE_ADDR : Field := ⟨0x700040, 16, 48, .rwl, 0, 192, .num, 0, 0, []⟩
/-- DTU_AC_BASE (R247). -/
def DTU_AC_BASE : Reg := ⟨0x700040, true, 0, 1, 0, 1, [DTU_AC_BASE_ADDR]⟩
def DTU_AC_SIZE_GRAN : Field := ⟨0x700048, 0, 21, .rwl, 0, 192, .num, 0, 0, []⟩
/-- DTU_AC_SIZE (R247). -/
def DTU_AC_SIZE : Reg := ⟨0x700048, false, 0, 1, 0, 1, [DTU_AC_SIZE_GRAN]⟩
def DTU_AC_THRESH_THR : Field := ⟨0x70004c, 0, 16, .own, 0x100, 192, .num, 0, 0, []⟩
/-- DTU_AC_THRESH (R247). -/
def DTU_AC_THRESH : Reg := ⟨0x70004c, false, 0, 1, 0, 1, [DTU_AC_THRESH_THR]⟩
def DTU_AC_TBL_ADDR : Field := ⟨0x700050, 12, 32, .rwl, 0, 192, .num, 0, 0, []⟩
/-- DTU_AC_TBL (R247). -/
def DTU_AC_TBL : Reg := ⟨0x700050, true, 0, 1, 0, 1, [DTU_AC_TBL_ADDR]⟩
def DTU_AC_CMD_FLUSH : Field := ⟨0x700058, 0, 1, .wo, 0, 0, .num, 0, 0, []⟩
/-- DTU_AC_CMD (R247). -/
def DTU_AC_CMD : Reg := ⟨0x700058, false, 0, 1, 0, 1, [DTU_AC_CMD_FLUSH]⟩
def DTU_MN_BASE_ADDR : Field := ⟨0x700060, 12, 52, .rwl, 0, 192, .num, 0, 0, []⟩
def DTU_MN_BASE_SPACE : Field := ⟨0x700060, 0, 1, .rwl, 0, 192, .num, 0, 0, []⟩
/-- DTU_MN_BASE (R247). -/
def DTU_MN_BASE : Reg := ⟨0x700060, true, 0, 1, 0, 1, [DTU_MN_BASE_ADDR, DTU_MN_BASE_SPACE]⟩
def DTU_MN_CFG_EN : Field := ⟨0x700068, 31, 1, .own, 0, 192, .num, 0, 0, []⟩
def DTU_MN_CFG_LOG2SZ : Field := ⟨0x700068, 0, 5, .rwl, 4, 192, .num, 0, 0, []⟩
/-- DTU_MN_CFG (R247). -/
def DTU_MN_CFG : Reg := ⟨0x700068, false, 0, 1, 0, 1, [DTU_MN_CFG_EN, DTU_MN_CFG_LOG2SZ]⟩
def DTU_MN_PROD_PROD : Field := ⟨0x70006c, 0, 32, .ro, 0, 192, .num, 0, 0, []⟩
/-- DTU_MN_PROD (R247). -/
def DTU_MN_PROD : Reg := ⟨0x70006c, false, 0, 1, 0, 1, [DTU_MN_PROD_PROD]⟩
def DTU_MN_CONS_CONS : Field := ⟨0x700070, 0, 32, .own, 0, 192, .num, 0, 0, []⟩
/-- DTU_MN_CONS (R247). -/
def DTU_MN_CONS : Reg := ⟨0x700070, false, 0, 1, 0, 1, [DTU_MN_CONS_CONS]⟩
def DTU_MN_STAT_OVF : Field := ⟨0x700074, 31, 1, .w1c, 0, 192, .num, 0, 0, []⟩
def DTU_MN_STAT_SUMPEND : Field := ⟨0x700074, 30, 1, .ro, 0, 0, .num, 0, 0, []⟩
def DTU_MN_STAT_DROP : Field := ⟨0x700074, 0, 16, .ro, 0, 192, .num, 0, 0, []⟩
/-- DTU_MN_STAT (R247). -/
def DTU_MN_STAT : Reg := ⟨0x700074, false, 0, 1, 0, 1, [DTU_MN_STAT_OVF, DTU_MN_STAT_SUMPEND, DTU_MN_STAT_DROP]⟩
def DTU_SSTAT_STALL : Field := ⟨0x700400, 31, 1, .ro, 0, 0, .num, 4, 0, []⟩
def DTU_SSTAT_UFLT : Field := ⟨0x700400, 30, 1, .w1c, 0, 192, .num, 4, 0, []⟩
def DTU_SSTAT_PARK : Field := ⟨0x700400, 16, 5, .ro, 0, 0, .num, 4, 0, []⟩
def DTU_SSTAT_HELD : Field := ⟨0x700400, 12, 4, .ro, 0, 0, .num, 4, 0, []⟩
def DTU_SSTAT_SLOTS : Field := ⟨0x700400, 0, 8, .ro, 0, 0, .num, 4, 0, []⟩
/-- DTU_SSTAT (R248). -/
def DTU_SSTAT : Reg := ⟨0x700400, false, 4, 70, 0, 1, [DTU_SSTAT_STALL, DTU_SSTAT_UFLT, DTU_SSTAT_PARK, DTU_SSTAT_HELD, DTU_SSTAT_SLOTS]⟩
/-- The registers of the Dtu window (R24). -/
def windowDtu : List Reg :=
  [DTU_CTL, DTU_STAT, DTU_DMWIN_BASE, DTU_DMWIN_LIM, DTU_INV_ADDR, DTU_INV_CMD, DTU_INV_STAT, DTU_UFLT_CNT, DTU_PRI_CNT, DTU_PRG_STRAY] ++
  [DTU_AC_BASE, DTU_AC_SIZE, DTU_AC_THRESH, DTU_AC_TBL, DTU_AC_CMD, DTU_MN_BASE, DTU_MN_CFG, DTU_MN_PROD, DTU_MN_CONS, DTU_MN_STAT] ++
  [DTU_SSTAT]

def SIN_CTL_DEFPOL : Field := ⟨0x800000, 16, 2, .own, 0, 192, .num, 0, 0, []⟩
def SIN_CTL_RMT_WAYS : Field := ⟨0x800000, 8, 5, .own, 8, 192, .num, 0, 0, []⟩
def SIN_CTL_HOSTC : Field := ⟨0x800000, 1, 1, .own, 1, 192, .num, 0, 0, []⟩
def SIN_CTL_STRM_EN : Field := ⟨0x800000, 0, 1, .own, 1, 192, .num, 0, 0, []⟩
/-- SIN_CTL (R202). -/
def SIN_CTL : Reg := ⟨0x800000, false, 0, 1, 0, 1, [SIN_CTL_DEFPOL, SIN_CTL_RMT_WAYS, SIN_CTL_HOSTC, SIN_CTL_STRM_EN]⟩
def SIN_STAT_RGN_BUSY : Field := ⟨0x800004, 31, 1, .ro, 0, 0, .num, 0, 0, []⟩
def SIN_STAT_TAGLOST : Field := ⟨0x800004, 30, 1, .w1c, 0, 192, .num, 0, 0, []⟩
def SIN_STAT_POISON_OVF : Field := ⟨0x800004, 29, 1, .w1c, 0, 192, .num, 0, 0, []⟩
def SIN_STAT_STREAMS : Field := ⟨0x800004, 16, 5, .ro, 0, 0, .num, 0, 0, []⟩
def SIN_STAT_DEGRADED : Field := ⟨0x800004, 0, 16, .ro, 0, 192, .b, 0, 0, []⟩
/-- SIN_STAT (R202). -/
def SIN_STAT : Reg := ⟨0x800004, false, 0, 1, 0, 1, [SIN_STAT_RGN_BUSY, SIN_STAT_TAGLOST, SIN_STAT_POISON_OVF, SIN_STAT_STREAMS, SIN_STAT_DEGRADED]⟩
def SIN_ECC_CNT_UNC : Field := ⟨0x800010, 16, 16, .own, 0, 192, .num, 0, 0, []⟩
def SIN_ECC_CNT_CORR : Field := ⟨0x800010, 0, 16, .own, 0, 192, .num, 0, 0, []⟩
/-- SIN_ECC_CNT (R203). -/
def SIN_ECC_CNT : Reg := ⟨0x800010, false, 0, 1, 0, 1, [SIN_ECC_CNT_UNC, SIN_ECC_CNT_CORR]⟩
def SIN_ECC_LOG_VALID : Field := ⟨0x800014, 31, 1, .w1c, 0, 192, .num, 0, 0, []⟩
def SIN_ECC_LOG_UNC : Field := ⟨0x800014, 30, 1, .ro, 0, 192, .num, 0, 0, []⟩
def SIN_ECC_LOG_TAG : Field := ⟨0x800014, 29, 1, .ro, 0, 192, .num, 0, 0, []⟩
def SIN_ECC_LOG_SLICE : Field := ⟨0x800014, 24, 4, .ro, 0, 192, .num, 0, 0, []⟩
def SIN_ECC_LOG_SET : Field := ⟨0x800014, 16, 8, .ro, 0, 192, .num, 0, 0, []⟩
def SIN_ECC_LOG_WAY : Field := ⟨0x800014, 12, 4, .ro, 0, 192, .num, 0, 0, []⟩
def SIN_ECC_LOG_SECTOR : Field := ⟨0x800014, 8, 2, .ro, 0, 192, .num, 0, 0, []⟩
/-- SIN_ECC_LOG (R203). -/
def SIN_ECC_LOG : Reg := ⟨0x800014, false, 0, 1, 0, 1, [SIN_ECC_LOG_VALID, SIN_ECC_LOG_UNC, SIN_ECC_LOG_TAG, SIN_ECC_LOG_SLICE, SIN_ECC_LOG_SET, SIN_ECC_LOG_WAY, SIN_ECC_LOG_SECTOR]⟩
def SIN_MAINT_BASE_SPACE : Field := ⟨0x800040, 63, 1, .own, 0, 192, .num, 0, 0, []⟩
def SIN_MAINT_BASE_ADDR : Field := ⟨0x800040, 7, 56, .own, 0, 192, .num, 0, 0, []⟩
/-- SIN_MAINT_BASE (R204). -/
def SIN_MAINT_BASE : Reg := ⟨0x800040, true, 0, 1, 0, 1, [SIN_MAINT_BASE_SPACE, SIN_MAINT_BASE_ADDR]⟩
def SIN_MAINT_LIM_ADDR : Field := ⟨0x800048, 7, 56, .own, 0, 192, .num, 0, 0, []⟩
/-- SIN_MAINT_LIM (R204). -/
def SIN_MAINT_LIM : Reg := ⟨0x800048, true, 0, 1, 0, 1, [SIN_MAINT_LIM_ADDR]⟩
def SIN_MAINT_CMD_IRQ : Field := ⟨0x800050, 8, 1, .own, 0, 0, .num, 0, 0, []⟩
def SIN_MAINT_CMD_SCOPE : Field := ⟨0x800050, 4, 2, .own, 0, 0, .num, 0, 0, []⟩
def SIN_MAINT_CMD_OP : Field := ⟨0x800050, 0, 3, .own, 0, 0, .num, 0, 0, []⟩
/-- SIN_MAINT_CMD (R204). -/
def SIN_MAINT_CMD : Reg := ⟨0x800050, false, 0, 1, 0, 1, [SIN_MAINT_CMD_IRQ, SIN_MAINT_CMD_SCOPE, SIN_MAINT_CMD_OP]⟩
def SIN_MAINT_STAT_BUSY : Field := ⟨0x800054, 31, 1, .ro, 0, 0, .num, 0, 0, []⟩
def SIN_MAINT_STAT_DONE : Field := ⟨0x800054, 30, 1, .w1c, 0, 192, .num, 0, 0, []⟩
def SIN_MAINT_STAT_REJ : Field := ⟨0x800054, 29, 1, .w1c, 0, 192, .num, 0, 0, []⟩
def SIN_MAINT_STAT_ERR : Field := ⟨0x800054, 28, 1, .w1c, 0, 192, .num, 0, 0, []⟩
def SIN_MAINT_STAT_WBCNT : Field := ⟨0x800054, 0, 24, .ro, 0, 192, .num, 0, 0, []⟩
/-- SIN_MAINT_STAT (R204). -/
def SIN_MAINT_STAT : Reg := ⟨0x800054, false, 0, 1, 0, 1, [SIN_MAINT_STAT_BUSY, SIN_MAINT_STAT_DONE, SIN_MAINT_STAT_REJ, SIN_MAINT_STAT_ERR, SIN_MAINT_STAT_WBCNT]⟩
def SIN_RGN_BASE_GRAN : Field := ⟨0x800100, 0, 25, .rwl, 0, 192, .num, 16, 0, []⟩
/-- SIN_RGN_BASE (R204). -/
def SIN_RGN_BASE : Reg := ⟨0x800100, false, 16, 16, 0, 1, [SIN_RGN_BASE_GRAN]⟩
def SIN_RGN_LIM_GRAN : Field := ⟨0x800104, 0, 25, .rwl, 0, 192, .num, 16, 0, []⟩
/-- SIN_RGN_LIM (R204). -/
def SIN_RGN_LIM : Reg := ⟨0x800104, false, 16, 16, 0, 1, [SIN_RGN_LIM_GRAN]⟩
def SIN_RGN_ATTR_EN : Field := ⟨0x800108, 31, 1, .own, 0, 192, .num, 16, 0, []⟩
def SIN_RGN_ATTR_POL : Field := ⟨0x800108, 0, 2, .own, 0, 192, .num, 16, 0, []⟩
/-- SIN_RGN_ATTR (R204). -/
def SIN_RGN_ATTR : Reg := ⟨0x800108, false, 16, 16, 0, 1, [SIN_RGN_ATTR_EN, SIN_RGN_ATTR_POL]⟩
def SIN_WAYDIS_DEG : Field := ⟨0x800200, 31, 1, .ro, 0, 192, .b, 4, 0, []⟩
def SIN_WAYDIS_BYP : Field := ⟨0x800200, 30, 1, .ro, 0, 192, .b, 4, 0, []⟩
def SIN_WAYDIS_NDIS : Field := ⟨0x800200, 16, 4, .ro, 0, 192, .b, 4, 0, []⟩
def SIN_WAYDIS_DIS : Field := ⟨0x800200, 0, 16, .ro, 0, 192, .b, 4, 0, []⟩
/-- SIN_WAYDIS (R203). -/
def SIN_WAYDIS : Reg := ⟨0x800200, false, 4, 16, 0, 1, [SIN_WAYDIS_DEG, SIN_WAYDIS_BYP, SIN_WAYDIS_NDIS, SIN_WAYDIS_DIS]⟩
def SIN_POISON_VALID : Field := ⟨0x800300, 63, 1, .w1c, 0, 508, .num, 8, 0, []⟩
def SIN_POISON_HOST : Field := ⟨0x800300, 62, 1, .ro, 0, 508, .num, 8, 0, []⟩
def SIN_POISON_LINE : Field := ⟨0x800300, 7, 55, .ro, 0, 508, .num, 8, 0, []⟩
/-- SIN_POISON (R203). -/
def SIN_POISON : Reg := ⟨0x800300, true, 8, 16, 0, 1, [SIN_POISON_VALID, SIN_POISON_HOST, SIN_POISON_LINE]⟩
def SIN_PERF_SEL_SEL3 : Field := ⟨0x800400, 24, 8, .own, 0, 192, .num, 0, 0, []⟩
def SIN_PERF_SEL_SEL2 : Field := ⟨0x800400, 16, 8, .own, 0, 192, .num, 0, 0, []⟩
def SIN_PERF_SEL_SEL1 : Field := ⟨0x800400, 8, 8, .own, 0, 192, .num, 0, 0, []⟩
def SIN_PERF_SEL_SEL0 : Field := ⟨0x800400, 0, 8, .own, 0, 192, .num, 0, 0, []⟩
/-- SIN_PERF_SEL (R205). -/
def SIN_PERF_SEL : Reg := ⟨0x800400, false, 0, 1, 0, 1, [SIN_PERF_SEL_SEL3, SIN_PERF_SEL_SEL2, SIN_PERF_SEL_SEL1, SIN_PERF_SEL_SEL0]⟩
def SIN_PERF_COUNT : Field := ⟨0x800408, 0, 64, .own, 0, 64, .num, 8, 0, []⟩
/-- SIN_PERF (R205). -/
def SIN_PERF : Reg := ⟨0x800408, true, 8, 4, 0, 1, [SIN_PERF_COUNT]⟩
/-- The registers of the Sin window (R24). -/
def windowSin : List Reg :=
  [SIN_CTL, SIN_STAT, SIN_ECC_CNT, SIN_ECC_LOG, SIN_MAINT_BASE, SIN_MAINT_LIM, SIN_MAINT_CMD, SIN_MAINT_STAT, SIN_RGN_BASE, SIN_RGN_LIM] ++
  [SIN_RGN_ATTR, SIN_WAYDIS, SIN_POISON, SIN_PERF_SEL, SIN_PERF]

def CHL_CTL_ROLLREQ : Field := ⟨0x900000, 0, 1, .wo, 0, 0, .num, 0, 0, []⟩
/-- CHL_CTL (R453). -/
def CHL_CTL : Reg := ⟨0x900000, false, 0, 1, 0, 1, [CHL_CTL_ROLLREQ]⟩
def CHL_STAT_ROOT : Field := ⟨0x900004, 31, 1, .ro, 1, 511, .f, 0, 0, []⟩
def CHL_STAT_QDIE : Field := ⟨0x900004, 30, 1, .ro, 0, 192, .num, 0, 0, []⟩
def CHL_STAT_ROLLBUSY : Field := ⟨0x900004, 29, 1, .ro, 0, 0, .num, 0, 0, []⟩
/-- CHL_STAT (R453). -/
def CHL_STAT : Reg := ⟨0x900004, false, 0, 1, 0, 1, [CHL_STAT_ROOT, CHL_STAT_QDIE, CHL_STAT_ROLLBUSY]⟩
def CHL_ROLL_EPOCH : Field := ⟨0x900008, 16, 16, .ro, 0, 192, .num, 0, 0, []⟩
def CHL_ROLL_QMASK : Field := ⟨0x900008, 8, 8, .ro, 0, 192, .num, 0, 0, []⟩
def CHL_ROLL_VALID : Field := ⟨0x900008, 7, 1, .ro, 0, 192, .num, 0, 0, []⟩
def CHL_ROLL_COUNT : Field := ⟨0x900008, 4, 3, .ro, 0, 192, .num, 0, 0, []⟩
def CHL_ROLL_DIE : Field := ⟨0x900008, 0, 3, .ro, 0, 192, .num, 0, 0, []⟩
/-- CHL_ROLL (R453). -/
def CHL_ROLL : Reg := ⟨0x900008, false, 0, 1, 0, 1, [CHL_ROLL_EPOCH, CHL_ROLL_QMASK, CHL_ROLL_VALID, CHL_ROLL_COUNT, CHL_ROLL_DIE]⟩
def CHL_ROUTE_ROUTE7 : Field := ⟨0x90000c, 28, 4, .ro, 0, 192, .num, 0, 0, []⟩
def CHL_ROUTE_ROUTE6 : Field := ⟨0x90000c, 24, 4, .ro, 0, 192, .num, 0, 0, []⟩
def CHL_ROUTE_ROUTE5 : Field := ⟨0x90000c, 20, 4, .ro, 0, 192, .num, 0, 0, []⟩
def CHL_ROUTE_ROUTE4 : Field := ⟨0x90000c, 16, 4, .ro, 0, 192, .num, 0, 0, []⟩
def CHL_ROUTE_ROUTE3 : Field := ⟨0x90000c, 12, 4, .ro, 0, 192, .num, 0, 0, []⟩
def CHL_ROUTE_ROUTE2 : Field := ⟨0x90000c, 8, 4, .ro, 0, 192, .num, 0, 0, []⟩
def CHL_ROUTE_ROUTE1 : Field := ⟨0x90000c, 4, 4, .ro, 0, 192, .num, 0, 0, []⟩
def CHL_ROUTE_ROUTE0 : Field := ⟨0x90000c, 0, 4, .ro, 0, 192, .num, 0, 0, []⟩
/-- CHL_ROUTE (R453). -/
def CHL_ROUTE : Reg := ⟨0x90000c, false, 0, 1, 0, 1, [CHL_ROUTE_ROUTE7, CHL_ROUTE_ROUTE6, CHL_ROUTE_ROUTE5, CHL_ROUTE_ROUTE4, CHL_ROUTE_ROUTE3, CHL_ROUTE_ROUTE2, CHL_ROUTE_ROUTE1, CHL_ROUTE_ROUTE0]⟩
def CHL_HOPS_HOPS7 : Field := ⟨0x900010, 28, 4, .ro, 0, 192, .num, 0, 0, []⟩
def CHL_HOPS_HOPS6 : Field := ⟨0x900010, 24, 4, .ro, 0, 192, .num, 0, 0, []⟩
def CHL_HOPS_HOPS5 : Field := ⟨0x900010, 20, 4, .ro, 0, 192, .num, 0, 0, []⟩
def CHL_HOPS_HOPS4 : Field := ⟨0x900010, 16, 4, .ro, 0, 192, .num, 0, 0, []⟩
def CHL_HOPS_HOPS3 : Field := ⟨0x900010, 12, 4, .ro, 0, 192, .num, 0, 0, []⟩
def CHL_HOPS_HOPS2 : Field := ⟨0x900010, 8, 4, .ro, 0, 192, .num, 0, 0, []⟩
def CHL_HOPS_HOPS1 : Field := ⟨0x900010, 4, 4, .ro, 0, 192, .num, 0, 0, []⟩
def CHL_HOPS_HOPS0 : Field := ⟨0x900010, 0, 4, .ro, 0, 192, .num, 0, 0, []⟩
/-- CHL_HOPS (R453). -/
def CHL_HOPS : Reg := ⟨0x900010, false, 0, 1, 0, 1, [CHL_HOPS_HOPS7, CHL_HOPS_HOPS6, CHL_HOPS_HOPS5, CHL_HOPS_HOPS4, CHL_HOPS_HOPS3, CHL_HOPS_HOPS2, CHL_HOPS_HOPS1, CHL_HOPS_HOPS0]⟩
def CHL_TMO_HOLD : Field := ⟨0x900020, 24, 8, .own, 0x14, 192, .num, 0, 0, []⟩
def CHL_TMO_REQ : Field := ⟨0x900020, 16, 8, .own, 0x28, 192, .num, 0, 0, []⟩
def CHL_TMO_CREDIT : Field := ⟨0x900020, 8, 8, .own, 0xa, 192, .num, 0, 0, []⟩
def CHL_TMO_RTLIM : Field := ⟨0x900020, 0, 8, .own, 8, 192, .num, 0, 0, []⟩
/-- CHL_TMO (R453). -/
def CHL_TMO : Reg := ⟨0x900020, false, 0, 1, 0, 1, [CHL_TMO_HOLD, CHL_TMO_REQ, CHL_TMO_CREDIT, CHL_TMO_RTLIM]⟩
def CHL_GEN_GEN : Field := ⟨0x900024, 0, 32, .ro, 0, 192, .b, 0, 0, []⟩
/-- CHL_GEN (R453). -/
def CHL_GEN : Reg := ⟨0x900024, false, 0, 1, 0, 1, [CHL_GEN_GEN]⟩
def CHLP_CTL_EN : Field := ⟨0x901000, 31, 1, .own, 0, 192, .b, 4096, 0, []⟩
def CHLP_CTL_ENC : Field := ⟨0x901000, 30, 1, .own, 0, 192, .b, 4096, 0, []⟩
def CHLP_CTL_RETRAIN : Field := ⟨0x901000, 29, 1, .wo, 0, 0, .num, 4096, 0, []⟩
def CHLP_CTL_MAXRATE : Field := ⟨0x901000, 4, 2, .own, 0, 192, .b, 4096, 0, []⟩
def CHLP_CTL_MAXWIDTH : Field := ⟨0x901000, 0, 2, .own, 0, 192, .b, 4096, 0, []⟩
/-- CHLP_CTL (R454). -/
def CHLP_CTL : Reg := ⟨0x901000, false, 4096, 2, 0, 1, [CHLP_CTL_EN, CHLP_CTL_ENC, CHLP_CTL_RETRAIN, CHLP_CTL_MAXRATE, CHLP_CTL_MAXWIDTH]⟩
def CHLP_STAT_STATE : Field := ⟨0x901004, 28, 4, .ro, 0, 0, .num, 4096, 0, []⟩
def CHLP_STAT_RATE : Field := ⟨0x901004, 26, 2, .ro, 0, 0, .num, 4096, 0, []⟩
def CHLP_STAT_WIDTH : Field := ⟨0x901004, 24, 2, .ro, 0, 0, .num, 4096, 0, []⟩
def CHLP_STAT_ENCON : Field := ⟨0x901004, 23, 1, .ro, 0, 0, .num, 4096, 0, []⟩
def CHLP_STAT_PEERPORT : Field := ⟨0x901004, 22, 1, .ro, 0, 0, .num, 4096, 0, []⟩
def CHLP_STAT_PEERDIE : Field := ⟨0x901004, 16, 3, .ro, 0, 0, .num, 4096, 0, []⟩
def CHLP_STAT_QREASON : Field := ⟨0x901004, 8, 4, .ro, 0, 0, .num, 4096, 0, []⟩
def CHLP_STAT_DREASON : Field := ⟨0x901004, 0, 4, .ro, 0, 192, .num, 4096, 0, []⟩
/-- CHLP_STAT (R454). -/
def CHLP_STAT : Reg := ⟨0x901004, false, 4096, 2, 0, 1, [CHLP_STAT_STATE, CHLP_STAT_RATE, CHLP_STAT_WIDTH, CHLP_STAT_ENCON, CHLP_STAT_PEERPORT, CHLP_STAT_PEERDIE, CHLP_STAT_QREASON, CHLP_STAT_DREASON]⟩
def CHLP_LANES_ACTIVE : Field := ⟨0x901008, 16, 8, .ro, 0, 0, .num, 4096, 0, []⟩
def CHLP_LANES_INV : Field := ⟨0x901008, 8, 8, .ro, 0, 0, .num, 4096, 0, []⟩
def CHLP_LANES_REV : Field := ⟨0x901008, 0, 1, .ro, 0, 0, .num, 4096, 0, []⟩
/-- CHLP_LANES (R454). -/
def CHLP_LANES : Reg := ⟨0x901008, false, 4096, 2, 0, 1, [CHLP_LANES_ACTIVE, CHLP_LANES_INV, CHLP_LANES_REV]⟩
def CHLP_CRCERR_COUNT : Field := ⟨0x901010, 0, 32, .own, 0, 192, .num, 4096, 0, []⟩
/-- CHLP_CRCERR (R454). -/
def CHLP_CRCERR : Reg := ⟨0x901010, false, 4096, 2, 0, 1, [CHLP_CRCERR_COUNT]⟩
def CHLP_REPLAY_COUNT : Field := ⟨0x901014, 0, 32, .own, 0, 192, .num, 4096, 0, []⟩
/-- CHLP_REPLAY (R454). -/
def CHLP_REPLAY : Reg := ⟨0x901014, false, 4096, 2, 0, 1, [CHLP_REPLAY_COUNT]⟩
def CHLP_RETRAIN_COUNT : Field := ⟨0x901018, 0, 32, .own, 0, 192, .num, 4096, 0, []⟩
/-- CHLP_RETRAIN (R454). -/
def CHLP_RETRAIN : Reg := ⟨0x901018, false, 4096, 2, 0, 1, [CHLP_RETRAIN_COUNT]⟩
def CHLP_DROP_COUNT : Field := ⟨0x90101c, 0, 32, .own, 0, 192, .num, 4096, 0, []⟩
/-- CHLP_DROP (R454). -/
def CHLP_DROP : Reg := ⟨0x90101c, false, 4096, 2, 0, 1, [CHLP_DROP_COUNT]⟩
def CHLP_PEER_UID_UID : Field := ⟨0x901020, 0, 32, .ro, 0, 192, .num, 4096, 4, []⟩
/-- CHLP_PEER_UID (R454). -/
def CHLP_PEER_UID : Reg := ⟨0x901020, false, 4096, 2, 4, 4, [CHLP_PEER_UID_UID]⟩
def CHLP_PEER_GEN_MIN : Field := ⟨0x901030, 32, 32, .ro, 0, 192, .num, 4096, 0, []⟩
def CHLP_PEER_GEN_GEN : Field := ⟨0x901030, 0, 32, .ro, 0, 192, .num, 4096, 0, []⟩
/-- CHLP_PEER_GEN (R454). -/
def CHLP_PEER_GEN : Reg := ⟨0x901030, true, 4096, 2, 0, 1, [CHLP_PEER_GEN_MIN, CHLP_PEER_GEN_GEN]⟩
/-- The registers of the Chl window (R24). -/
def windowChl : List Reg :=
  [CHL_CTL, CHL_STAT, CHL_ROLL, CHL_ROUTE, CHL_HOPS, CHL_TMO, CHL_GEN, CHLP_CTL, CHLP_STAT, CHLP_LANES] ++
  [CHLP_CRCERR, CHLP_REPLAY, CHLP_RETRAIN, CHLP_DROP, CHLP_PEER_UID, CHLP_PEER_GEN]

def DCO_CTL_GENLOCK : Field := ⟨0xa00000, 31, 1, .rwl, 0, 192, .num, 0, 0, []⟩
def DCO_CTL_PAIR : Field := ⟨0xa00000, 30, 1, .own, 0, 192, .num, 0, 0, []⟩
/-- DCO_CTL (R386). -/
def DCO_CTL : Reg := ⟨0xa00000, false, 0, 1, 0, 1, [DCO_CTL_GENLOCK, DCO_CTL_PAIR]⟩
def DCO_STAT_ON : Field := ⟨0xa00004, 0, 2, .ro, 0, 0, .num, 0, 0, []⟩
/-- DCO_STAT (R386). -/
def DCO_STAT : Reg := ⟨0xa00004, false, 0, 1, 0, 1, [DCO_STAT_ON]⟩
def DCO_POSE_ADDR_ADDR : Field := ⟨0xa00008, 6, 38, .own, 0, 192, .num, 0, 0, []⟩
/-- DCO_POSE_ADDR (R386). -/
def DCO_POSE_ADDR : Reg := ⟨0xa00008, true, 0, 1, 0, 1, [DCO_POSE_ADDR_ADDR]⟩
def DCO_POSE_CFG_MAXAGE : Field := ⟨0xa00010, 0, 20, .own, 0x7d0, 192, .num, 0, 0, []⟩
/-- DCO_POSE_CFG (R386). -/
def DCO_POSE_CFG : Reg := ⟨0xa00010, false, 0, 1, 0, 1, [DCO_POSE_CFG_MAXAGE]⟩
def DCO_POSE_FAIL_COUNT : Field := ⟨0xa00014, 0, 32, .own, 0, 192, .num, 0, 0, []⟩
/-- DCO_POSE_FAIL (R386). -/
def DCO_POSE_FAIL : Reg := ⟨0xa00014, false, 0, 1, 0, 1, [DCO_POSE_FAIL_COUNT]⟩
def DCO_C_CTL_EN : Field := ⟨0xa01000, 31, 1, .own, 0, 64, .num, 4096, 0, []⟩
def DCO_C_CTL_DLEN : Field := ⟨0xa01000, 30, 1, .own, 0, 192, .num, 4096, 0, []⟩
def DCO_C_CTL_ULPS : Field := ⟨0xa01000, 29, 1, .own, 0, 192, .num, 4096, 0, []⟩
def DCO_C_CTL_IRQ : Field := ⟨0xa01000, 26, 3, .own, 0, 192, .num, 4096, 0, []⟩
/-- DCO_C_CTL (R386). -/
def DCO_C_CTL : Reg := ⟨0xa01000, false, 4096, 2, 0, 1, [DCO_C_CTL_EN, DCO_C_CTL_DLEN, DCO_C_CTL_ULPS, DCO_C_CTL_IRQ]⟩
def DCO_C_STAT_RUNNING : Field := ⟨0xa01004, 31, 1, .ro, 0, 0, .num, 4096, 0, []⟩
def DCO_C_STAT_TDOWN : Field := ⟨0xa01004, 30, 1, .w1c, 0, 192, .num, 4096, 0, []⟩
def DCO_C_STAT_PEND : Field := ⟨0xa01004, 29, 1, .ro, 0, 0, .num, 4096, 0, []⟩
def DCO_C_STAT_CUR : Field := ⟨0xa01004, 28, 1, .ro, 0, 0, .num, 4096, 0, []⟩
def DCO_C_STAT_MESHBUSY : Field := ⟨0xa01004, 27, 1, .ro, 0, 0, .num, 4096, 0, []⟩
def DCO_C_STAT_LASTCAUSE : Field := ⟨0xa01004, 8, 8, .ro, 0, 192, .num, 4096, 0, []⟩
def DCO_C_STAT_CFGERR : Field := ⟨0xa01004, 0, 8, .ro, 0, 192, .num, 4096, 0, []⟩
/-- DCO_C_STAT (R386). -/
def DCO_C_STAT : Reg := ⟨0xa01004, false, 4096, 2, 0, 1, [DCO_C_STAT_RUNNING, DCO_C_STAT_TDOWN, DCO_C_STAT_PEND, DCO_C_STAT_CUR, DCO_C_STAT_MESHBUSY, DCO_C_STAT_LASTCAUSE, DCO_C_STAT_CFGERR]⟩
def DCO_C_PHY_RATE : Field := ⟨0xa01008, 4, 12, .rwl, 0xfa, 192, .num, 4096, 0, []⟩
def DCO_C_PHY_WIDTH : Field := ⟨0xa01008, 1, 2, .rwl, 2, 192, .num, 4096, 0, []⟩
def DCO_C_PHY_TYPE : Field := ⟨0xa01008, 0, 1, .rwl, 0, 192, .num, 4096, 0, []⟩
/-- DCO_C_PHY (R386). -/
def DCO_C_PHY : Reg := ⟨0xa01008, false, 4096, 2, 0, 1, [DCO_C_PHY_RATE, DCO_C_PHY_WIDTH, DCO_C_PHY_TYPE]⟩
def DCO_C_PXDIV_DIV : Field := ⟨0xa0100c, 0, 24, .rwl, 0xd5555, 192, .num, 4096, 0, []⟩
/-- DCO_C_PXDIV (R386). -/
def DCO_C_PXDIV : Reg := ⟨0xa0100c, false, 4096, 2, 0, 1, [DCO_C_PXDIV_DIV]⟩
def DCO_C_HTIM0_HSA : Field := ⟨0xa01010, 16, 16, .rwl, 0, 192, .num, 4096, 0, []⟩
def DCO_C_HTIM0_HACT : Field := ⟨0xa01010, 0, 16, .rwl, 0, 192, .num, 4096, 0, []⟩
/-- DCO_C_HTIM0 (R386). -/
def DCO_C_HTIM0 : Reg := ⟨0xa01010, false, 4096, 2, 0, 1, [DCO_C_HTIM0_HSA, DCO_C_HTIM0_HACT]⟩
def DCO_C_HTIM1_HFP : Field := ⟨0xa01014, 16, 16, .rwl, 0, 192, .num, 4096, 0, []⟩
def DCO_C_HTIM1_HBP : Field := ⟨0xa01014, 0, 16, .rwl, 0, 192, .num, 4096, 0, []⟩
/-- DCO_C_HTIM1 (R386). -/
def DCO_C_HTIM1 : Reg := ⟨0xa01014, false, 4096, 2, 0, 1, [DCO_C_HTIM1_HFP, DCO_C_HTIM1_HBP]⟩
def DCO_C_VTIM0_VSA : Field := ⟨0xa01018, 16, 16, .rwl, 0, 192, .num, 4096, 0, []⟩
def DCO_C_VTIM0_VACT : Field := ⟨0xa01018, 0, 16, .rwl, 0, 192, .num, 4096, 0, []⟩
/-- DCO_C_VTIM0 (R386). -/
def DCO_C_VTIM0 : Reg := ⟨0xa01018, false, 4096, 2, 0, 1, [DCO_C_VTIM0_VSA, DCO_C_VTIM0_VACT]⟩
def DCO_C_VTIM1_VFPMIN : Field := ⟨0xa0101c, 16, 16, .rwl, 0, 192, .num, 4096, 0, []⟩
def DCO_C_VTIM1_VBP : Field := ⟨0xa0101c, 0, 16, .rwl, 0, 192, .num, 4096, 0, []⟩
/-- DCO_C_VTIM1 (R386). -/
def DCO_C_VTIM1 : Reg := ⟨0xa0101c, false, 4096, 2, 0, 1, [DCO_C_VTIM1_VFPMIN, DCO_C_VTIM1_VBP]⟩
def DCO_C_EPOCH_EPOCH : Field := ⟨0xa01020, 0, 64, .rwl, 0, 192, .num, 4096, 0, []⟩
/-- DCO_C_EPOCH (R386). -/
def DCO_C_EPOCH : Reg := ⟨0xa01020, true, 4096, 2, 0, 1, [DCO_C_EPOCH_EPOCH]⟩
def DCO_C_PERIOD_INT : Field := ⟨0xa01028, 16, 32, .rwl, 0, 192, .num, 4096, 0, []⟩
def DCO_C_PERIOD_FRAC : Field := ⟨0xa01028, 0, 16, .rwl, 0, 192, .num, 4096, 0, []⟩
/-- DCO_C_PERIOD (R386). -/
def DCO_C_PERIOD : Reg := ⟨0xa01028, true, 4096, 2, 0, 1, [DCO_C_PERIOD_INT, DCO_C_PERIOD_FRAC]⟩
def DCO_C_LEAD_LEAD : Field := ⟨0xa01030, 0, 20, .rwl, 0xc350, 192, .num, 4096, 0, []⟩
/-- DCO_C_LEAD (R386). -/
def DCO_C_LEAD : Reg := ⟨0xa01030, false, 4096, 2, 0, 1, [DCO_C_LEAD_LEAD]⟩
def DCO_C_OUT_DSC : Field := ⟨0xa01034, 3, 1, .rwl, 0, 192, .num, 4096, 0, []⟩
def DCO_C_OUT_SRGB : Field := ⟨0xa01034, 2, 1, .rwl, 0, 192, .num, 4096, 0, []⟩
def DCO_C_OUT_PIXFMT : Field := ⟨0xa01034, 0, 2, .rwl, 0, 192, .num, 4096, 0, []⟩
/-- DCO_C_OUT (R386). -/
def DCO_C_OUT : Reg := ⟨0xa01034, false, 4096, 2, 0, 1, [DCO_C_OUT_DSC, DCO_C_OUT_SRGB, DCO_C_OUT_PIXFMT]⟩
def DCO_C_BG_R : Field := ⟨0xa01038, 20, 10, .own, 0, 192, .num, 4096, 0, []⟩
def DCO_C_BG_G : Field := ⟨0xa01038, 10, 10, .own, 0, 192, .num, 4096, 0, []⟩
def DCO_C_BG_B : Field := ⟨0xa01038, 0, 10, .own, 0, 192, .num, 4096, 0, []⟩
/-- DCO_C_BG (R386). -/
def DCO_C_BG : Reg := ⟨0xa01038, false, 4096, 2, 0, 1, [DCO_C_BG_R, DCO_C_BG_G, DCO_C_BG_B]⟩
def DCO_C_PASID_PASID : Field := ⟨0xa0103c, 0, 20, .rwl, 0, 192, .num, 4096, 0, []⟩
/-- DCO_C_PASID (R386). -/
def DCO_C_PASID : Reg := ⟨0xa0103c, false, 4096, 2, 0, 1, [DCO_C_PASID_PASID]⟩
def DCO_C_COMMIT_DPA : Field := ⟨0xa01040, 6, 38, .own, 0, 192, .num, 4096, 0, []⟩
/-- DCO_C_COMMIT (R386). -/
def DCO_C_COMMIT : Reg := ⟨0xa01040, true, 4096, 2, 0, 1, [DCO_C_COMMIT_DPA]⟩
def DCO_C_CSTAT_BUSY : Field := ⟨0xa01048, 31, 1, .ro, 0, 0, .num, 4096, 0, []⟩
def DCO_C_CSTAT_REJ : Field := ⟨0xa01048, 30, 1, .w1c, 0, 192, .num, 4096, 0, []⟩
def DCO_C_CSTAT_REASON : Field := ⟨0xa01048, 24, 3, .ro, 0, 192, .num, 4096, 0, []⟩
def DCO_C_CSTAT_SUPCNT : Field := ⟨0xa01048, 0, 16, .ro, 0, 192, .num, 4096, 0, []⟩
/-- DCO_C_CSTAT (R386). -/
def DCO_C_CSTAT : Reg := ⟨0xa01048, false, 4096, 2, 0, 1, [DCO_C_CSTAT_BUSY, DCO_C_CSTAT_REJ, DCO_C_CSTAT_REASON, DCO_C_CSTAT_SUPCNT]⟩
def DCO_C_FRAME_FRAME : Field := ⟨0xa0104c, 0, 32, .ro, 0, 192, .num, 4096, 0, []⟩
/-- DCO_C_FRAME (R386). -/
def DCO_C_FRAME : Reg := ⟨0xa0104c, false, 4096, 2, 0, 1, [DCO_C_FRAME_FRAME]⟩
def DCO_C_MISS_COUNT : Field := ⟨0xa01050, 0, 32, .own, 0, 192, .num, 4096, 0, []⟩
/-- DCO_C_MISS (R386). -/
def DCO_C_MISS : Reg := ⟨0xa01050, false, 4096, 2, 0, 1, [DCO_C_MISS_COUNT]⟩
def DCO_C_SCANF_COUNT : Field := ⟨0xa01054, 0, 32, .own, 0, 192, .num, 4096, 0, []⟩
/-- DCO_C_SCANF (R386). -/
def DCO_C_SCANF : Reg := ⟨0xa01054, false, 4096, 2, 0, 1, [DCO_C_SCANF_COUNT]⟩
def DCO_C_LASTMISS_FRAME : Field := ⟨0xa01058, 0, 32, .ro, 0, 192, .num, 4096, 0, []⟩
/-- DCO_C_LASTMISS (R386). -/
def DCO_C_LASTMISS : Reg := ⟨0xa01058, false, 4096, 2, 0, 1, [DCO_C_LASTMISS_FRAME]⟩
def DCO_C_EYEQ_FP32 : Field := ⟨0xa01060, 0, 32, .own, 0, 192, .num, 4096, 4, [(10489952, 1065353216), (10494048, 1065353216)]⟩
/-- DCO_C_EYEQ (R386). -/
def DCO_C_EYEQ : Reg := ⟨0xa01060, false, 4096, 2, 4, 4, [DCO_C_EYEQ_FP32]⟩
def DCO_C_MESH_ADDR_DPA : Field := ⟨0xa01070, 6, 38, .own, 0, 192, .num, 4096, 0, []⟩
/-- DCO_C_MESH_ADDR (R386). -/
def DCO_C_MESH_ADDR : Reg := ⟨0xa01070, true, 4096, 2, 0, 1, [DCO_C_MESH_ADDR_DPA]⟩
def DCO_C_MESH_CFG_LOAD : Field := ⟨0xa01078, 31, 1, .wo, 0, 0, .num, 4096, 0, []⟩
def DCO_C_MESH_CFG_MERR : Field := ⟨0xa01078, 30, 1, .ro, 0, 192, .num, 4096, 0, []⟩
def DCO_C_MESH_CFG_CELL : Field := ⟨0xa01078, 24, 2, .own, 1, 192, .num, 4096, 0, []⟩
def DCO_C_MESH_CFG_GH : Field := ⟨0xa01078, 12, 12, .own, 0, 192, .num, 4096, 0, []⟩
def DCO_C_MESH_CFG_GW : Field := ⟨0xa01078, 0, 12, .own, 0, 192, .num, 4096, 0, []⟩
/-- DCO_C_MESH_CFG (R386). -/
def DCO_C_MESH_CFG : Reg := ⟨0xa01078, false, 4096, 2, 0, 1, [DCO_C_MESH_CFG_LOAD, DCO_C_MESH_CFG_MERR, DCO_C_MESH_CFG_CELL, DCO_C_MESH_CFG_GH, DCO_C_MESH_CFG_GW]⟩
def DCO_C_PPS_BYTES : Field := ⟨0xa01100, 0, 32, .rwl, 0, 192, .num, 4096, 4, []⟩
/-- DCO_C_PPS (R386). -/
def DCO_C_PPS : Reg := ⟨0xa01100, false, 4096, 2, 4, 32, [DCO_C_PPS_BYTES]⟩
def DCO_C_DCS_HDR_GO : Field := ⟨0xa01180, 31, 1, .wo, 0, 0, .num, 4096, 0, []⟩
def DCO_C_DCS_HDR_READ : Field := ⟨0xa01180, 30, 1, .own, 0, 0, .num, 4096, 0, []⟩
def DCO_C_DCS_HDR_P2 : Field := ⟨0xa01180, 16, 8, .own, 0, 0, .num, 4096, 0, []⟩
def DCO_C_DCS_HDR_P1_or_WC : Field := ⟨0xa01180, 8, 8, .own, 0, 0, .num, 4096, 0, []⟩
def DCO_C_DCS_HDR_DT : Field := ⟨0xa01180, 0, 8, .own, 0, 0, .num, 4096, 0, []⟩
/-- DCO_C_DCS_HDR (R386). -/
def DCO_C_DCS_HDR : Reg := ⟨0xa01180, false, 4096, 2, 0, 1, [DCO_C_DCS_HDR_GO, DCO_C_DCS_HDR_READ, DCO_C_DCS_HDR_P2, DCO_C_DCS_HDR_P1_or_WC, DCO_C_DCS_HDR_DT]⟩
def DCO_C_DCS_STAT_BUSY : Field := ⟨0xa01184, 31, 1, .ro, 0, 0, .num, 4096, 0, []⟩
def DCO_C_DCS_STAT_DONE : Field := ⟨0xa01184, 30, 1, .w1c, 0, 192, .num, 4096, 0, []⟩
def DCO_C_DCS_STAT_ERR : Field := ⟨0xa01184, 29, 1, .w1c, 0, 192, .num, 4096, 0, []⟩
/-- DCO_C_DCS_STAT (R386). -/
def DCO_C_DCS_STAT : Reg := ⟨0xa01184, false, 4096, 2, 0, 1, [DCO_C_DCS_STAT_BUSY, DCO_C_DCS_STAT_DONE, DCO_C_DCS_STAT_ERR]⟩
def DCO_C_DCS_RD_DATA : Field := ⟨0xa01188, 0, 32, .ro, 0, 192, .num, 4096, 0, []⟩
/-- DCO_C_DCS_RD (R386). -/
def DCO_C_DCS_RD : Reg := ⟨0xa01188, false, 4096, 2, 0, 1, [DCO_C_DCS_RD_DATA]⟩
def DCO_C_DCS_DATA_DATA : Field := ⟨0xa011c0, 0, 32, .own, 0, 192, .num, 4096, 4, []⟩
/-- DCO_C_DCS_DATA (R386). -/
def DCO_C_DCS_DATA : Reg := ⟨0xa011c0, false, 4096, 2, 4, 16, [DCO_C_DCS_DATA_DATA]⟩
/-- The registers of the Dco window (R24). -/
def windowDco : List Reg :=
  [DCO_CTL, DCO_STAT, DCO_POSE_ADDR, DCO_POSE_CFG, DCO_POSE_FAIL, DCO_C_CTL, DCO_C_STAT, DCO_C_PHY, DCO_C_PXDIV, DCO_C_HTIM0] ++
  [DCO_C_HTIM1, DCO_C_VTIM0, DCO_C_VTIM1, DCO_C_EPOCH, DCO_C_PERIOD, DCO_C_LEAD, DCO_C_OUT, DCO_C_BG, DCO_C_PASID, DCO_C_COMMIT] ++
  [DCO_C_CSTAT, DCO_C_FRAME, DCO_C_MISS, DCO_C_SCANF, DCO_C_LASTMISS, DCO_C_EYEQ, DCO_C_MESH_ADDR, DCO_C_MESH_CFG, DCO_C_PPS, DCO_C_DCS_HDR] ++
  [DCO_C_DCS_STAT, DCO_C_DCS_RD, DCO_C_DCS_DATA]

def CIF_CTL_EN : Field := ⟨0xb00000, 31, 1, .own, 0, 192, .num, 0, 0, []⟩
def CIF_CTL_RATECHK : Field := ⟨0xb00000, 0, 1, .own, 0, 192, .num, 0, 0, []⟩
/-- CIF_CTL (R418). -/
def CIF_CTL : Reg := ⟨0xb00000, false, 0, 1, 0, 1, [CIF_CTL_EN, CIF_CTL_RATECHK]⟩
def CIF_STAT_ON : Field := ⟨0xb00004, 0, 4, .ro, 0, 0, .num, 0, 0, []⟩
/-- CIF_STAT (R418). -/
def CIF_STAT : Reg := ⟨0xb00004, false, 0, 1, 0, 1, [CIF_STAT_ON]⟩
def CIF_SYNC_EPOCH_EPOCH : Field := ⟨0xb00010, 0, 64, .rwl, 0, 192, .num, 0, 0, []⟩
/-- CIF_SYNC_EPOCH (R418). -/
def CIF_SYNC_EPOCH : Reg := ⟨0xb00010, true, 0, 1, 0, 1, [CIF_SYNC_EPOCH_EPOCH]⟩
def CIF_SYNC_PERIOD_INT : Field := ⟨0xb00018, 16, 32, .rwl, 0, 192, .num, 0, 0, []⟩
def CIF_SYNC_PERIOD_FRAC : Field := ⟨0xb00018, 0, 16, .rwl, 0, 192, .num, 0, 0, []⟩
/-- CIF_SYNC_PERIOD (R418). -/
def CIF_SYNC_PERIOD : Reg := ⟨0xb00018, true, 0, 1, 0, 1, [CIF_SYNC_PERIOD_INT, CIF_SYNC_PERIOD_FRAC]⟩
def CIF_P_CTL_EN : Field := ⟨0xb01000, 31, 1, .own, 0, 64, .num, 4096, 0, []⟩
def CIF_P_CTL_FSEN : Field := ⟨0xb01000, 30, 1, .own, 0, 192, .num, 4096, 0, []⟩
def CIF_P_CTL_OUTFMT : Field := ⟨0xb01000, 28, 2, .rwl, 0, 192, .num, 4096, 0, []⟩
def CIF_P_CTL_VC : Field := ⟨0xb01000, 26, 2, .rwl, 0, 192, .num, 4096, 0, []⟩
def CIF_P_CTL_DT : Field := ⟨0xb01000, 16, 6, .rwl, 0, 192, .num, 4096, 0, []⟩
/-- CIF_P_CTL (R418). -/
def CIF_P_CTL : Reg := ⟨0xb01000, false, 4096, 4, 0, 1, [CIF_P_CTL_EN, CIF_P_CTL_FSEN, CIF_P_CTL_OUTFMT, CIF_P_CTL_VC, CIF_P_CTL_DT]⟩
def CIF_P_PHY_RATE : Field := ⟨0xb01004, 4, 12, .rwl, 0xfa, 192, .num, 4096, 0, []⟩
def CIF_P_PHY_WIDTH : Field := ⟨0xb01004, 1, 2, .rwl, 2, 192, .num, 4096, 0, []⟩
def CIF_P_PHY_TYPE : Field := ⟨0xb01004, 0, 1, .rwl, 0, 192, .num, 4096, 0, []⟩
/-- CIF_P_PHY (R418). -/
def CIF_P_PHY : Reg := ⟨0xb01004, false, 4096, 4, 0, 1, [CIF_P_PHY_RATE, CIF_P_PHY_WIDTH, CIF_P_PHY_TYPE]⟩
def CIF_P_WIN_Y0 : Field := ⟨0xb01008, 16, 16, .rwl, 0, 192, .num, 4096, 0, []⟩
def CIF_P_WIN_X0 : Field := ⟨0xb01008, 0, 16, .rwl, 0, 192, .num, 4096, 0, []⟩
/-- CIF_P_WIN (R418). -/
def CIF_P_WIN : Reg := ⟨0xb01008, false, 4096, 4, 0, 1, [CIF_P_WIN_Y0, CIF_P_WIN_X0]⟩
def CIF_P_SIZE_H : Field := ⟨0xb0100c, 16, 16, .rwl, 0, 192, .num, 4096, 0, []⟩
def CIF_P_SIZE_W : Field := ⟨0xb0100c, 0, 16, .rwl, 0, 192, .num, 4096, 0, []⟩
/-- CIF_P_SIZE (R418). -/
def CIF_P_SIZE : Reg := ⟨0xb0100c, false, 4096, 4, 0, 1, [CIF_P_SIZE_H, CIF_P_SIZE_W]⟩
def CIF_P_RBASE_VA : Field := ⟨0xb01010, 12, 52, .rwl, 0, 192, .num, 4096, 0, []⟩
/-- CIF_P_RBASE (R418). -/
def CIF_P_RBASE : Reg := ⟨0xb01010, true, 4096, 4, 0, 1, [CIF_P_RBASE_VA]⟩
def CIF_P_HBASE_VA : Field := ⟨0xb01018, 6, 58, .rwl, 0, 192, .num, 4096, 0, []⟩
/-- CIF_P_HBASE (R418). -/
def CIF_P_HBASE : Reg := ⟨0xb01018, true, 4096, 4, 0, 1, [CIF_P_HBASE_VA]⟩
def CIF_P_RCFG_NBUFM1 : Field := ⟨0xb01020, 24, 4, .rwl, 0, 192, .num, 4096, 0, []⟩
def CIF_P_RCFG_STRIDE : Field := ⟨0xb01020, 0, 24, .rwl, 0, 192, .num, 4096, 0, []⟩
/-- CIF_P_RCFG (R418). -/
def CIF_P_RCFG : Reg := ⟨0xb01020, false, 4096, 4, 0, 1, [CIF_P_RCFG_NBUFM1, CIF_P_RCFG_STRIDE]⟩
def CIF_P_PITCH_PITCH : Field := ⟨0xb01024, 0, 24, .rwl, 0, 192, .num, 4096, 0, []⟩
/-- CIF_P_PITCH (R418). -/
def CIF_P_PITCH : Reg := ⟨0xb01024, false, 4096, 4, 0, 1, [CIF_P_PITCH_PITCH]⟩
def CIF_P_PASID_PASID : Field := ⟨0xb01028, 0, 20, .rwl, 0, 192, .num, 4096, 0, []⟩
/-- CIF_P_PASID (R418). -/
def CIF_P_PASID : Reg := ⟨0xb01028, false, 4096, 4, 0, 1, [CIF_P_PASID_PASID]⟩
def CIF_P_SIG_HANDLE : Field := ⟨0xb0102c, 0, 32, .own, 0, 192, .num, 4096, 0, []⟩
/-- CIF_P_SIG (R418). -/
def CIF_P_SIG : Reg := ⟨0xb0102c, false, 4096, 4, 0, 1, [CIF_P_SIG_HANDLE]⟩
def CIF_P_REL_HANDLE : Field := ⟨0xb01030, 0, 32, .own, 0, 192, .num, 4096, 0, []⟩
/-- CIF_P_REL (R418). -/
def CIF_P_REL : Reg := ⟨0xb01030, false, 4096, 4, 0, 1, [CIF_P_REL_HANDLE]⟩
def CIF_P_FSYNC_WIDTH : Field := ⟨0xb01034, 20, 12, .rwl, 0x64, 192, .num, 4096, 0, []⟩
def CIF_P_FSYNC_OFS : Field := ⟨0xb01034, 0, 20, .rwl, 0, 192, .num, 4096, 0, []⟩
/-- CIF_P_FSYNC (R418). -/
def CIF_P_FSYNC : Reg := ⟨0xb01034, false, 4096, 4, 0, 1, [CIF_P_FSYNC_WIDTH, CIF_P_FSYNC_OFS]⟩
def CIF_P_STAT_BUSY : Field := ⟨0xb01038, 31, 1, .ro, 0, 0, .num, 4096, 0, []⟩
def CIF_P_STAT_TDOWN : Field := ⟨0xb01038, 30, 1, .w1c, 0, 192, .num, 4096, 0, []⟩
def CIF_P_STAT_LASTDROP : Field := ⟨0xb01038, 8, 8, .ro, 0, 192, .num, 4096, 0, []⟩
def CIF_P_STAT_CFGERR : Field := ⟨0xb01038, 0, 8, .ro, 0, 192, .num, 4096, 0, []⟩
/-- CIF_P_STAT (R418). -/
def CIF_P_STAT : Reg := ⟨0xb01038, false, 4096, 4, 0, 1, [CIF_P_STAT_BUSY, CIF_P_STAT_TDOWN, CIF_P_STAT_LASTDROP, CIF_P_STAT_CFGERR]⟩
def CIF_P_FCOUNT_COUNT : Field := ⟨0xb0103c, 0, 32, .own, 0, 192, .num, 4096, 0, []⟩
/-- CIF_P_FCOUNT (R418). -/
def CIF_P_FCOUNT : Reg := ⟨0xb0103c, false, 4096, 4, 0, 1, [CIF_P_FCOUNT_COUNT]⟩
def CIF_P_WCOUNT_COUNT : Field := ⟨0xb01040, 0, 64, .own, 0, 192, .num, 4096, 0, []⟩
/-- CIF_P_WCOUNT (R418). -/
def CIF_P_WCOUNT : Reg := ⟨0xb01040, true, 4096, 4, 0, 1, [CIF_P_WCOUNT_COUNT]⟩
def CIF_P_DROP_COUNT : Field := ⟨0xb01048, 0, 32, .own, 0, 192, .num, 4096, 0, []⟩
/-- CIF_P_DROP (R418). -/
def CIF_P_DROP : Reg := ⟨0xb01048, false, 4096, 4, 0, 1, [CIF_P_DROP_COUNT]⟩
def CIF_P_ERR_ECC : Field := ⟨0xb0104c, 16, 16, .own, 0, 192, .num, 4096, 0, []⟩
def CIF_P_ERR_CRC : Field := ⟨0xb0104c, 0, 16, .own, 0, 192, .num, 4096, 0, []⟩
/-- CIF_P_ERR (R418). -/
def CIF_P_ERR : Reg := ⟨0xb0104c, false, 4096, 4, 0, 1, [CIF_P_ERR_ECC, CIF_P_ERR_CRC]⟩
/-- The registers of the Cif window (R24). -/
def windowCif : List Reg :=
  [CIF_CTL, CIF_STAT, CIF_SYNC_EPOCH, CIF_SYNC_PERIOD, CIF_P_CTL, CIF_P_PHY, CIF_P_WIN, CIF_P_SIZE, CIF_P_RBASE, CIF_P_HBASE] ++
  [CIF_P_RCFG, CIF_P_PITCH, CIF_P_PASID, CIF_P_SIG, CIF_P_REL, CIF_P_FSYNC, CIF_P_STAT, CIF_P_FCOUNT, CIF_P_WCOUNT, CIF_P_DROP] ++
  [CIF_P_ERR]

def GFX_CTL_EN : Field := ⟨0xc00000, 31, 1, .own, 0, 192, .num, 0, 0, []⟩
/-- GFX_CTL (R354). -/
def GFX_CTL : Reg := ⟨0xc00000, false, 0, 1, 0, 1, [GFX_CTL_EN]⟩
def GFX_STAT_BINNING : Field := ⟨0xc00004, 31, 1, .ro, 0, 0, .num, 0, 0, []⟩
def GFX_STAT_SPILL : Field := ⟨0xc00004, 30, 1, .ro, 0, 0, .num, 0, 0, []⟩
def GFX_STAT_TILING : Field := ⟨0xc00004, 28, 2, .ro, 0, 0, .num, 0, 0, []⟩
def GFX_STAT_RTILES : Field := ⟨0xc00004, 0, 6, .ro, 0, 0, .num, 0, 0, []⟩
/-- GFX_STAT (R354). -/
def GFX_STAT : Reg := ⟨0xc00004, false, 0, 1, 0, 1, [GFX_STAT_BINNING, GFX_STAT_SPILL, GFX_STAT_TILING, GFX_STAT_RTILES]⟩
def GFX_CALRES_RES : Field := ⟨0xc00008, 0, 4, .own, 0, 192, .num, 0, 0, []⟩
/-- GFX_CALRES (R354). -/
def GFX_CALRES : Reg := ⟨0xc00008, false, 0, 1, 0, 1, [GFX_CALRES_RES]⟩
def GFX_SPILLS_COUNT : Field := ⟨0xc0000c, 0, 32, .own, 0, 192, .num, 0, 0, []⟩
/-- GFX_SPILLS (R354). -/
def GFX_SPILLS : Reg := ⟨0xc0000c, false, 0, 1, 0, 1, [GFX_SPILLS_COUNT]⟩
def GFX_PASSES_COUNT : Field := ⟨0xc00010, 0, 32, .own, 0, 192, .num, 0, 0, []⟩
/-- GFX_PASSES (R354). -/
def GFX_PASSES : Reg := ⟨0xc00010, false, 0, 1, 0, 1, [GFX_PASSES_COUNT]⟩
def GFX_PRIMS_COUNT : Field := ⟨0xc00020, 0, 64, .own, 0, 192, .num, 0, 0, []⟩
/-- GFX_PRIMS (R354). -/
def GFX_PRIMS : Reg := ⟨0xc00020, true, 0, 1, 0, 1, [GFX_PRIMS_COUNT]⟩
def GFX_CULLED_COUNT : Field := ⟨0xc00028, 0, 64, .own, 0, 192, .num, 0, 0, []⟩
/-- GFX_CULLED (R354). -/
def GFX_CULLED : Reg := ⟨0xc00028, true, 0, 1, 0, 1, [GFX_CULLED_COUNT]⟩
def GFX_FRAGS_COUNT : Field := ⟨0xc00030, 0, 64, .own, 0, 192, .num, 0, 0, []⟩
/-- GFX_FRAGS (R354). -/
def GFX_FRAGS : Reg := ⟨0xc00030, true, 0, 1, 0, 1, [GFX_FRAGS_COUNT]⟩
def GFX_HIDDEN_COUNT : Field := ⟨0xc00038, 0, 64, .own, 0, 192, .num, 0, 0, []⟩
/-- GFX_HIDDEN (R354). -/
def GFX_HIDDEN : Reg := ⟨0xc00038, true, 0, 1, 0, 1, [GFX_HIDDEN_COUNT]⟩
def GFX_TILES_COUNT : Field := ⟨0xc00040, 0, 64, .own, 0, 192, .num, 0, 0, []⟩
/-- GFX_TILES (R354). -/
def GFX_TILES : Reg := ⟨0xc00040, true, 0, 1, 0, 1, [GFX_TILES_COUNT]⟩
/-- The registers of the Gfx window (R24). -/
def windowGfx : List Reg :=
  [GFX_CTL, GFX_STAT, GFX_CALRES, GFX_SPILLS, GFX_PASSES, GFX_PRIMS, GFX_CULLED, GFX_FRAGS, GFX_HIDDEN, GFX_TILES]

def WDT_CTL_IEN : Field := ⟨0xd00000, 2, 1, .rwl, 0, 192, .num, 0, 0, []⟩
def WDT_CTL_KICKER : Field := ⟨0xd00000, 1, 1, .rwl, 0, 192, .num, 0, 0, []⟩
def WDT_CTL_LOCK : Field := ⟨0xd00000, 0, 1, .w1s, 0, 192, .num, 0, 0, []⟩
/-- WDT_CTL (R652). -/
def WDT_CTL : Reg := ⟨0xd00000, false, 0, 1, 0, 1, [WDT_CTL_IEN, WDT_CTL_KICKER, WDT_CTL_LOCK]⟩
def WDT_S1TMO_N : Field := ⟨0xd00004, 0, 20, .rwl, 0x9000, 192, .num, 0, 0, []⟩
/-- WDT_S1TMO (R652). -/
def WDT_S1TMO : Reg := ⟨0xd00004, false, 0, 1, 0, 1, [WDT_S1TMO_N]⟩
def WDT_S2TMO_N : Field := ⟨0xd00008, 0, 20, .rwl, 0x1000, 192, .num, 0, 0, []⟩
/-- WDT_S2TMO (R652). -/
def WDT_S2TMO : Reg := ⟨0xd00008, false, 0, 1, 0, 1, [WDT_S2TMO_N]⟩
def WDT_KICK_KEY : Field := ⟨0xd0000c, 16, 16, .wo, 0, 0, .num, 0, 0, []⟩
/-- WDT_KICK (R652). -/
def WDT_KICK : Reg := ⟨0xd0000c, false, 0, 1, 0, 1, [WDT_KICK_KEY]⟩
def WDT_STOP_KEY : Field := ⟨0xd00010, 16, 16, .wo, 0, 0, .num, 0, 0, []⟩
/-- WDT_STOP (R652). -/
def WDT_STOP : Reg := ⟨0xd00010, false, 0, 1, 0, 1, [WDT_STOP_KEY]⟩
def WDT_STAT_RUN : Field := ⟨0xd00014, 31, 1, .ro, 0, 192, .num, 0, 0, []⟩
def WDT_STAT_HW : Field := ⟨0xd00014, 30, 1, .ro, 0, 511, .f, 0, 0, []⟩
def WDT_STAT_STAGE : Field := ⟨0xd00014, 28, 2, .ro, 0, 192, .num, 0, 0, []⟩
def WDT_STAT_RECOV : Field := ⟨0xd00014, 27, 1, .w1c, 0, 192, .num, 0, 0, []⟩
def WDT_STAT_S1EVT : Field := ⟨0xd00014, 26, 1, .w1c, 0, 192, .num, 0, 0, []⟩
def WDT_STAT_REMAIN : Field := ⟨0xd00014, 0, 20, .ro, 0, 0, .num, 0, 0, []⟩
/-- WDT_STAT (R652). -/
def WDT_STAT : Reg := ⟨0xd00014, false, 0, 1, 0, 1, [WDT_STAT_RUN, WDT_STAT_HW, WDT_STAT_STAGE, WDT_STAT_RECOV, WDT_STAT_S1EVT, WDT_STAT_REMAIN]⟩
def WDT_RINFO_VALID : Field := ⟨0xd00020, 31, 1, .ro, 0, 508, .num, 0, 0, []⟩
def WDT_RINFO_HW : Field := ⟨0xd00020, 30, 1, .ro, 0, 508, .num, 0, 0, []⟩
def WDT_RINFO_KICKER : Field := ⟨0xd00020, 29, 1, .ro, 0, 508, .num, 0, 0, []⟩
def WDT_RINFO_STEP : Field := ⟨0xd00020, 16, 8, .ro, 0, 508, .num, 0, 0, []⟩
def WDT_RINFO_COUNT : Field := ⟨0xd00020, 0, 16, .ro, 0, 508, .num, 0, 0, []⟩
/-- WDT_RINFO (R652). -/
def WDT_RINFO : Reg := ⟨0xd00020, false, 0, 1, 0, 1, [WDT_RINFO_VALID, WDT_RINFO_HW, WDT_RINFO_KICKER, WDT_RINFO_STEP, WDT_RINFO_COUNT]⟩
def WDT_RTB_TBASE : Field := ⟨0xd00028, 0, 64, .ro, 0, 508, .num, 0, 0, []⟩
/-- WDT_RTB (R652). -/
def WDT_RTB : Reg := ⟨0xd00028, true, 0, 1, 0, 1, [WDT_RTB_TBASE]⟩
def WDT_RKICK_TBASE : Field := ⟨0xd00030, 0, 64, .ro, 0, 508, .num, 0, 0, []⟩
/-- WDT_RKICK (R652). -/
def WDT_RKICK : Reg := ⟨0xd00030, true, 0, 1, 0, 1, [WDT_RKICK_TBASE]⟩
/-- The registers of the Wdt window (R24). -/
def windowWdt : List Reg :=
  [WDT_CTL, WDT_S1TMO, WDT_S2TMO, WDT_KICK, WDT_STOP, WDT_STAT, WDT_RINFO, WDT_RTB, WDT_RKICK]

def FQ_BASE_ADDR : Field := ⟨0xe00000, 12, 52, .rwl, 0, 192, .num, 0, 0, []⟩
def FQ_BASE_SPACE : Field := ⟨0xe00000, 0, 1, .rwl, 0, 192, .num, 0, 0, []⟩
/-- FQ_BASE (R653). -/
def FQ_BASE : Reg := ⟨0xe00000, true, 0, 1, 0, 1, [FQ_BASE_ADDR, FQ_BASE_SPACE]⟩
def FQ_CFG_EN : Field := ⟨0xe00008, 31, 1, .own, 0, 192, .num, 0, 0, []⟩
def FQ_CFG_IEN : Field := ⟨0xe00008, 30, 1, .own, 0, 192, .num, 0, 0, []⟩
def FQ_CFG_LOG2SZ : Field := ⟨0xe00008, 0, 5, .rwl, 4, 192, .num, 0, 0, []⟩
/-- FQ_CFG (R653). -/
def FQ_CFG : Reg := ⟨0xe00008, false, 0, 1, 0, 1, [FQ_CFG_EN, FQ_CFG_IEN, FQ_CFG_LOG2SZ]⟩
def FQ_PROD_PROD : Field := ⟨0xe0000c, 0, 32, .ro, 0, 192, .num, 0, 0, []⟩
/-- FQ_PROD (R653). -/
def FQ_PROD : Reg := ⟨0xe0000c, false, 0, 1, 0, 1, [FQ_PROD_PROD]⟩
def FQ_CONS_CONS : Field := ⟨0xe00010, 0, 32, .own, 0, 192, .num, 0, 0, []⟩
/-- FQ_CONS (R653). -/
def FQ_CONS : Reg := ⟨0xe00010, false, 0, 1, 0, 1, [FQ_CONS_CONS]⟩
def FQ_STAT_OVERFLOW : Field := ⟨0xe00014, 31, 1, .w1c, 0, 192, .num, 0, 0, []⟩
def FQ_STAT_SUMPEND : Field := ⟨0xe00014, 30, 1, .ro, 0, 192, .num, 0, 0, []⟩
def FQ_STAT_IPEND : Field := ⟨0xe00014, 29, 1, .w1c, 0, 192, .num, 0, 0, []⟩
def FQ_STAT_STAGED : Field := ⟨0xe00014, 16, 7, .ro, 0, 0, .num, 0, 0, []⟩
def FQ_STAT_NEXTSEQ : Field := ⟨0xe00014, 0, 16, .ro, 0, 192, .num, 0, 0, []⟩
/-- FQ_STAT (R653). -/
def FQ_STAT : Reg := ⟨0xe00014, false, 0, 1, 0, 1, [FQ_STAT_OVERFLOW, FQ_STAT_SUMPEND, FQ_STAT_IPEND, FQ_STAT_STAGED, FQ_STAT_NEXTSEQ]⟩
def FQ_DROP_COUNT : Field := ⟨0xe00040, 0, 32, .own, 0, 192, .num, 4, 0, []⟩
/-- FQ_DROP (R653). -/
def FQ_DROP : Reg := ⟨0xe00040, false, 4, 12, 0, 1, [FQ_DROP_COUNT]⟩
def THM_EMB_VALID : Field := ⟨0xe00100, 31, 1, .ro, 0, 0, .num, 4, 0, []⟩
def THM_EMB_TEMP : Field := ⟨0xe00100, 0, 16, .ro, 0, 0, .num, 4, 0, []⟩
/-- THM_EMB (R653). -/
def THM_EMB : Reg := ⟨0xe00100, false, 4, 16, 0, 1, [THM_EMB_VALID, THM_EMB_TEMP]⟩
def THM_SITE_VALID : Field := ⟨0xe00140, 31, 1, .ro, 0, 0, .num, 4, 0, []⟩
def THM_SITE_TEMP : Field := ⟨0xe00140, 0, 16, .ro, 0, 0, .num, 4, 0, []⟩
/-- THM_SITE (R653). -/
def THM_SITE : Reg := ⟨0xe00140, false, 4, 6, 0, 1, [THM_SITE_VALID, THM_SITE_TEMP]⟩
def THM_MAX_VALID : Field := ⟨0xe00160, 31, 1, .ro, 0, 0, .num, 0, 0, []⟩
def THM_MAX_SRC : Field := ⟨0xe00160, 24, 5, .ro, 0, 0, .num, 0, 0, []⟩
def THM_MAX_TEMP : Field := ⟨0xe00160, 0, 16, .ro, 0, 0, .num, 0, 0, []⟩
/-- THM_MAX (R653). -/
def THM_MAX : Reg := ⟨0xe00160, false, 0, 1, 0, 1, [THM_MAX_VALID, THM_MAX_SRC, THM_MAX_TEMP]⟩
def TEL_CTL_CLR : Field := ⟨0xe00200, 1, 1, .wo, 0, 0, .num, 0, 0, []⟩
def TEL_CTL_SNAP : Field := ⟨0xe00200, 0, 1, .own, 0, 0, .num, 0, 0, []⟩
/-- TEL_CTL (R653). -/
def TEL_CTL : Reg := ⟨0xe00200, false, 0, 1, 0, 1, [TEL_CTL_CLR, TEL_CTL_SNAP]⟩
def TEL_CNT_COUNT : Field := ⟨0xe00208, 0, 64, .ro, 0, 508, .num, 8, 0, []⟩
/-- TEL_CNT (R653). -/
def TEL_CNT : Reg := ⟨0xe00208, true, 8, 8, 0, 1, [TEL_CNT_COUNT]⟩
def TEL_CNT32_COUNT : Field := ⟨0xe00248, 0, 32, .ro, 0, 508, .num, 4, 0, []⟩
/-- TEL_CNT32 (R653). -/
def TEL_CNT32 : Reg := ⟨0xe00248, false, 4, 2, 0, 1, [TEL_CNT32_COUNT]⟩
/-- The registers of the Flt window (R24). -/
def windowFlt : List Reg :=
  [FQ_BASE, FQ_CFG, FQ_PROD, FQ_CONS, FQ_STAT, FQ_DROP, THM_EMB, THM_SITE, THM_MAX, TEL_CTL] ++
  [TEL_CNT, TEL_CNT32]

def TXN_BEGIN_MASK : Field := ⟨0xf00000, 0, 17, .wo, 0, 0, .num, 0, 0, []⟩
/-- TXN_BEGIN (R494). -/
def TXN_BEGIN : Reg := ⟨0xf00000, false, 0, 1, 0, 1, [TXN_BEGIN_MASK]⟩
def TXN_STAT_SLOT : Field := ⟨0xf00004, 8, 2, .ro, 0, 192, .num, 0, 0, []⟩
def TXN_STAT_RESULT : Field := ⟨0xf00004, 0, 4, .ro, 0, 192, .num, 0, 0, []⟩
/-- TXN_STAT (R494). -/
def TXN_STAT : Reg := ⟨0xf00004, false, 0, 1, 0, 1, [TXN_STAT_SLOT, TXN_STAT_RESULT]⟩
def TXN_COMMIT_GO : Field := ⟨0xf00008, 31, 1, .wo, 0, 0, .num, 0, 0, []⟩
def TXN_COMMIT_CH : Field := ⟨0xf00008, 8, 2, .wo, 0, 0, .num, 0, 0, []⟩
def TXN_COMMIT_BOUND : Field := ⟨0xf00008, 4, 3, .wo, 0, 0, .num, 0, 0, []⟩
def TXN_COMMIT_SLOT : Field := ⟨0xf00008, 0, 2, .wo, 0, 0, .num, 0, 0, []⟩
/-- TXN_COMMIT (R494). -/
def TXN_COMMIT : Reg := ⟨0xf00008, false, 0, 1, 0, 1, [TXN_COMMIT_GO, TXN_COMMIT_CH, TXN_COMMIT_BOUND, TXN_COMMIT_SLOT]⟩
def TXN_ABORT_GO : Field := ⟨0xf0000c, 31, 1, .wo, 0, 0, .num, 0, 0, []⟩
def TXN_ABORT_SLOT : Field := ⟨0xf0000c, 0, 2, .wo, 0, 0, .num, 0, 0, []⟩
/-- TXN_ABORT (R494). -/
def TXN_ABORT : Reg := ⟨0xf0000c, false, 0, 1, 0, 1, [TXN_ABORT_GO, TXN_ABORT_SLOT]⟩
def TXN_AT_TBASE : Field := ⟨0xf00010, 0, 64, .own, 0, 192, .num, 0, 0, []⟩
/-- TXN_AT (R494). -/
def TXN_AT : Reg := ⟨0xf00010, true, 0, 1, 0, 1, [TXN_AT_TBASE]⟩
def TXN_CFG_IRQ : Field := ⟨0xf00018, 31, 1, .own, 0, 192, .num, 0, 0, []⟩
def TXN_CFG_TMO : Field := ⟨0xf00018, 0, 10, .own, 0x64, 192, .num, 0, 0, []⟩
/-- TXN_CFG (R494). -/
def TXN_CFG : Reg := ⟨0xf00018, false, 0, 1, 0, 1, [TXN_CFG_IRQ, TXN_CFG_TMO]⟩
def TXN_S_STAT_STATE : Field := ⟨0xf00020, 29, 3, .ro, 0, 192, .num, 4, 0, []⟩
def TXN_S_STAT_REASON : Field := ⟨0xf00020, 25, 4, .ro, 0, 252, .num, 4, 0, []⟩
def TXN_S_STAT_COUNT : Field := ⟨0xf00020, 16, 9, .ro, 0, 192, .num, 4, 0, []⟩
def TXN_S_STAT_FAILIDX : Field := ⟨0xf00020, 0, 9, .ro, 0x1ff, 252, .num, 4, 0, []⟩
/-- TXN_S_STAT (R494). -/
def TXN_S_STAT : Reg := ⟨0xf00020, false, 4, 4, 0, 1, [TXN_S_STAT_STATE, TXN_S_STAT_REASON, TXN_S_STAT_COUNT, TXN_S_STAT_FAILIDX]⟩
def TXN_S_BLK_MASK : Field := ⟨0xf00030, 0, 17, .ro, 0, 192, .num, 4, 0, []⟩
/-- TXN_S_BLK (R494). -/
def TXN_S_BLK : Reg := ⟨0xf00030, false, 4, 4, 0, 1, [TXN_S_BLK_MASK]⟩
def TXN_EVT_ROLLED : Field := ⟨0xf00040, 4, 4, .w1c, 0, 192, .num, 0, 0, []⟩
def TXN_EVT_APPLIED : Field := ⟨0xf00040, 0, 4, .w1c, 0, 192, .num, 0, 0, []⟩
/-- TXN_EVT (R494). -/
def TXN_EVT : Reg := ⟨0xf00040, false, 0, 1, 0, 1, [TXN_EVT_ROLLED, TXN_EVT_APPLIED]⟩
/-- The registers of the Txn window (R24). -/
def windowTxn : List Reg :=
  [TXN_BEGIN, TXN_STAT, TXN_COMMIT, TXN_ABORT, TXN_AT, TXN_CFG, TXN_S_STAT, TXN_S_BLK, TXN_EVT]

def EMB_ID_XGEN : Field := ⟨0x1000000, 16, 8, .ro, 1, 511, .num, 65536, 0, []⟩
def EMB_ID_LCOUNT : Field := ⟨0x1000000, 4, 5, .ro, 0, 240, .b, 65536, 0, []⟩
def EMB_ID_LNUM : Field := ⟨0x1000000, 0, 4, .ro, 0, 240, .b, 65536, 0, []⟩
/-- EMB_ID (R63). -/
def EMB_ID : Reg := ⟨0x1000000, false, 65536, 16, 0, 1, [EMB_ID_XGEN, EMB_ID_LCOUNT, EMB_ID_LNUM]⟩
def EMB_CTL_HALT : Field := ⟨0x1000004, 31, 1, .own, 0, 192, .num, 65536, 0, []⟩
def EMB_CTL_AGE_LIM : Field := ⟨0x1000004, 16, 2, .own, 0, 192, .num, 65536, 0, []⟩
def EMB_CTL_REPACK_MIN : Field := ⟨0x1000004, 8, 6, .own, 0x10, 192, .num, 65536, 0, []⟩
def EMB_CTL_REPACK_EN : Field := ⟨0x1000004, 0, 1, .own, 1, 192, .num, 65536, 0, []⟩
/-- EMB_CTL (R64). -/
def EMB_CTL : Reg := ⟨0x1000004, false, 65536, 16, 0, 1, [EMB_CTL_HALT, EMB_CTL_AGE_LIM, EMB_CTL_REPACK_MIN, EMB_CTL_REPACK_EN]⟩
def EMB_STAT_IDLE : Field := ⟨0x1000008, 31, 1, .ro, 1, 0, .num, 65536, 0, []⟩
def EMB_STAT_HALTED : Field := ⟨0x1000008, 30, 1, .ro, 0, 0, .num, 65536, 0, []⟩
def EMB_STAT_PREEMPT : Field := ⟨0x1000008, 29, 1, .ro, 0, 0, .num, 65536, 0, []⟩
def EMB_STAT_COHORTS : Field := ⟨0x1000008, 16, 7, .ro, 0, 0, .num, 65536, 0, []⟩
def EMB_STAT_BLOCKS : Field := ⟨0x1000008, 0, 6, .ro, 0, 0, .num, 65536, 0, []⟩
/-- EMB_STAT (R65). -/
def EMB_STAT : Reg := ⟨0x1000008, false, 65536, 16, 0, 1, [EMB_STAT_IDLE, EMB_STAT_HALTED, EMB_STAT_PREEMPT, EMB_STAT_COHORTS, EMB_STAT_BLOCKS]⟩
def EMB_RES_REG_FREE : Field := ⟨0x100000c, 24, 8, .ro, 0x40, 0, .num, 65536, 0, []⟩
def EMB_RES_BASIN_FREE : Field := ⟨0x100000c, 16, 5, .ro, 0x10, 0, .num, 65536, 0, []⟩
def EMB_RES_CAL_FREE : Field := ⟨0x100000c, 0, 9, .ro, 0x100, 0, .num, 65536, 0, []⟩
/-- EMB_RES (R66). -/
def EMB_RES : Reg := ⟨0x100000c, false, 65536, 16, 0, 1, [EMB_RES_REG_FREE, EMB_RES_BASIN_FREE, EMB_RES_CAL_FREE]⟩
def EMB_ERR_SAVE_ERR : Field := ⟨0x1000010, 5, 1, .w1c, 0, 64, .num, 65536, 0, []⟩
def EMB_ERR_ILLEGAL : Field := ⟨0x1000010, 4, 1, .w1c, 0, 64, .num, 65536, 0, []⟩
def EMB_ERR_BASIN_RANGE : Field := ⟨0x1000010, 3, 1, .w1c, 0, 64, .num, 65536, 0, []⟩
def EMB_ERR_CAL_RANGE : Field := ⟨0x1000010, 2, 1, .w1c, 0, 64, .num, 65536, 0, []⟩
def EMB_ERR_COLL_DIVERGED : Field := ⟨0x1000010, 1, 1, .w1c, 0, 64, .num, 65536, 0, []⟩
def EMB_ERR_REG_RANGE : Field := ⟨0x1000010, 0, 1, .w1c, 0, 64, .num, 65536, 0, []⟩
/-- EMB_ERR (R67). -/
def EMB_ERR : Reg := ⟨0x1000010, false, 65536, 16, 0, 1, [EMB_ERR_SAVE_ERR, EMB_ERR_ILLEGAL, EMB_ERR_BASIN_RANGE, EMB_ERR_CAL_RANGE, EMB_ERR_COLL_DIVERGED, EMB_ERR_REG_RANGE]⟩
def EMB_PERF_SEL_SEL3 : Field := ⟨0x1000020, 24, 8, .own, 0, 192, .num, 65536, 0, []⟩
def EMB_PERF_SEL_SEL2 : Field := ⟨0x1000020, 16, 8, .own, 0, 192, .num, 65536, 0, []⟩
def EMB_PERF_SEL_SEL1 : Field := ⟨0x1000020, 8, 8, .own, 0, 192, .num, 65536, 0, []⟩
def EMB_PERF_SEL_SEL0 : Field := ⟨0x1000020, 0, 8, .own, 0, 192, .num, 65536, 0, []⟩
/-- EMB_PERF_SEL (R68). -/
def EMB_PERF_SEL : Reg := ⟨0x1000020, false, 65536, 16, 0, 1, [EMB_PERF_SEL_SEL3, EMB_PERF_SEL_SEL2, EMB_PERF_SEL_SEL1, EMB_PERF_SEL_SEL0]⟩
def EMB_PERF_COUNT : Field := ⟨0x1000040, 0, 64, .own, 0, 64, .num, 65536, 8, []⟩
/-- EMB_PERF (R68). -/
def EMB_PERF : Reg := ⟨0x1000040, true, 65536, 16, 8, 4, [EMB_PERF_COUNT]⟩
def TPH_STAT_TBUSY : Field := ⟨0x1000100, 31, 1, .ro, 0, 0, .num, 65536, 0, []⟩
def TPH_STAT_GBUSY : Field := ⟨0x1000100, 30, 1, .ro, 0, 0, .num, 65536, 0, []⟩
def TPH_STAT_TQ : Field := ⟨0x1000100, 20, 5, .ro, 0, 0, .num, 65536, 0, []⟩
def TPH_STAT_GQ : Field := ⟨0x1000100, 16, 4, .ro, 0, 0, .num, 65536, 0, []⟩
def TPH_STAT_COST : Field := ⟨0x1000100, 0, 13, .ro, 0, 0, .num, 65536, 0, []⟩
/-- TPH_STAT (R147). -/
def TPH_STAT : Reg := ⟨0x1000100, false, 65536, 16, 0, 1, [TPH_STAT_TBUSY, TPH_STAT_GBUSY, TPH_STAT_TQ, TPH_STAT_GQ, TPH_STAT_COST]⟩
def TPH_SEED_STATE : Field := ⟨0x1000108, 0, 64, .own, 0x9e3779b97f4a7c15, 64, .num, 65536, 0, []⟩
/-- TPH_SEED (R148). -/
def TPH_SEED : Reg := ⟨0x1000108, true, 65536, 16, 0, 1, [TPH_SEED_STATE]⟩
def TPH_SATCNT_COUNT : Field := ⟨0x1000110, 0, 32, .own, 0, 64, .num, 65536, 0, []⟩
/-- TPH_SATCNT (R148). -/
def TPH_SATCNT : Reg := ⟨0x1000110, false, 65536, 16, 0, 1, [TPH_SATCNT_COUNT]⟩
def TPH_MACS_COUNT : Field := ⟨0x1000118, 0, 64, .own, 0, 64, .num, 65536, 0, []⟩
/-- TPH_MACS (R148). -/
def TPH_MACS : Reg := ⟨0x1000118, true, 65536, 16, 0, 1, [TPH_MACS_COUNT]⟩
def L1_CTL_INV : Field := ⟨0x1000200, 0, 1, .wo, 0, 0, .num, 65536, 0, []⟩
/-- L1_CTL (R355). -/
def L1_CTL : Reg := ⟨0x1000200, false, 65536, 16, 0, 1, [L1_CTL_INV]⟩
def L1_ACC_COUNT : Field := ⟨0x1000208, 0, 64, .own, 0, 64, .num, 65536, 0, []⟩
/-- L1_ACC (R355). -/
def L1_ACC : Reg := ⟨0x1000208, true, 65536, 16, 0, 1, [L1_ACC_COUNT]⟩
def L1_MISS_COUNT : Field := ⟨0x1000210, 0, 64, .own, 0, 64, .num, 65536, 0, []⟩
/-- L1_MISS (R355). -/
def L1_MISS : Reg := ⟨0x1000210, true, 65536, 16, 0, 1, [L1_MISS_COUNT]⟩
/-- The registers of the Ember window (R24). -/
def windowEmber : List Reg :=
  [EMB_ID, EMB_CTL, EMB_STAT, EMB_RES, EMB_ERR, EMB_PERF_SEL, EMB_PERF, TPH_STAT, TPH_SEED, TPH_SATCNT] ++
  [TPH_MACS, L1_CTL, L1_ACC, L1_MISS]

/-- The registers of the block window that holds a BAR0 offset (R24); the FUM registers share the PWR window. -/
def windowAt (off : Nat) : List Reg :=
  if off < 0x100000 then windowChip
  else if off < 0x200000 then windowBoot
  else if off < 0x300000 then windowCru
  else if off < 0x380000 then windowPwr
  else if off < 0x400000 then windowFum
  else if off < 0x500000 then windowPad
  else if off < 0x600000 then windowWsp
  else if off < 0x700000 then windowSyn
  else if off < 0x800000 then windowDtu
  else if off < 0x900000 then windowSin
  else if off < 0xa00000 then windowChl
  else if off < 0xb00000 then windowDco
  else if off < 0xc00000 then windowCif
  else if off < 0xd00000 then windowGfx
  else if off < 0xe00000 then windowWdt
  else if off < 0xf00000 then windowFlt
  else if off < 0x1000000 then windowTxn
  else if off < 0x1100000 then windowEmber
  else []

end Sys2Proof.R
end

