-- ==== Sys2Proof/Machine/Types/Chl.lean ====
section
/-!
DEFINITION. State of the chain link (R420 to R454) that no register field holds.
-/

namespace Sys2Proof.Machine

/-- A message: the fields of its entry (R429), its raw entries as bytes, and the bytes of its data flits. `tlp` holds what the
PCI Express header of a proxy message says (R431; log entry 43). -/
structure ChlMsg where
  op : Nat
  src : Nat := 0
  dst : Nat := 0
  tag : Nat := 0
  poison : Bool := false
  st : Nat := 0
  arg : Nat := 0
  raw : List Nat := []
  data : List Nat := []
  tlp : List Nat := []
  deriving DecidableEq, Repr

/-- A message in the replay buffer: its first sequence number, its flits, and how often it was sent (R436, R438). -/
structure ChlSent where
  seq : Nat
  flits : Nat
  sends : Nat
  msg : ChlMsg
  deriving DecidableEq, Repr

/-- A message being received: what its entry said, with the VC, and the data flits still to come. -/
structure ChlRx where
  msg : ChlMsg
  vc : Nat
  nd : Nat
  need : Nat
  deriving DecidableEq, Repr

/-- An outstanding VC0 request of this die (R448): its message, its lines, the packets whose work waits for it, the Ember access
it carries (Ember, access), and whether it waits for a WAKE (R519). An access of Ember 16 is the host's: for a read it is the first
byte within the line times 8192 plus the number of bytes. -/
structure ChlReq where
  msg : ChlMsg
  lines : Nat
  who : List Nat
  acc : Option (Nat × Nat)
  wait : Bool
  deriving DecidableEq, Repr

/-- A request this die forwarded and that is not answered (R450): requester, its tag, opcode, and the port it left by. -/
structure ChlFwd where
  src : Nat
  tag : Nat
  op : Nat
  port : Nat
  deriving DecidableEq, Repr

/-- One port. -/
structure ChlPort where
  /-- Rates tried in this training with the lanes that passed, the partner's limits, orientation and UID hash (R425, R426). -/
  tried : List (Nat × Nat) := []
  maxRate : Nat := 0
  maxWidth : Nat := 0
  hash : Nat := 0
  /-- A retrain left the rate in force and runs full training (R427). -/
  full : Bool := false
  /-- FLITUP runs: a combination is selected and no entry has come. -/
  flitup : Bool := false
  /-- TBASE at which the state was entered. -/
  since : Nat := 0
  /-- Messages that wait to be sent, oldest first. -/
  q : List ChlMsg := []
  seq : Nat := 0
  replay : List ChlSent := []
  /-- Credits held for each VC (R435). -/
  cred : List Nat := [128, 384, 32, 64]
  /-- Sequence number expected; a NAK is out and the replay has not come (R437). -/
  rx : Nat := 0
  naked : Bool := false
  /-- Messages of the last header flit, in order, not yet complete; and complete ones whose group is not verified (R442). -/
  part : List ChlRx := []
  grp : List ChlRx := []
  /-- Groups closed in each direction (R442). -/
  txg : Nat := 0
  rxg : Nat := 0
  /-- Own PROOF sent, the partner's verified (R441). -/
  proved : Bool := false
  /-- HELLO contents sent and received (R441), and tries of authentication that failed. -/
  mine : List Nat := []
  hello : List Nat := []
  tries : Nat := 0
  /-- The partner's UID as recorded. -/
  uid : Nat := 0
  /-- The partner is in S3 (R446). -/
  asleep : Bool := false
  /-- The partner's image is pending broadcast (R566). -/
  pend : Bool := false
  /-- TBASE of the retrains and of the violations that still count. -/
  retr : List Nat := []
  viol : List Nat := []
  /-- The state to return to after a retrain. -/
  was : Nat := 0
  /-- DOWN is held until EN is written 0 and then 1. -/
  held : Bool := false
  deriving DecidableEq, Repr

/-- CHL state. -/
structure ChlSt where
  port : List (Nat × ChlPort) := []
  req : List ChlReq := []
  fwd : List ChlFwd := []
  tag : Nat := 0
  /-- Die 0: the UID recorded for each number (R443). -/
  names : List (Nat × Nat) := []
  /-- UIDs of the dies the last roll call reached. -/
  uids : List Nat := []
  /-- The chain is a ring. -/
  ring : Bool := false
  /-- Register accesses forwarded through the window and not answered: the die, whether it is a write, the master (R25). -/
  win : List (Nat × Bool × Nat) := []
  /-- This die has left S3: the ports that have still to send WAKE, and 2 for the WAKE to every die (R446, R520). -/
  wake : List Nat := []
  /-- Messages of VC3 that came while the die was in S2: port, message (log entry 47). -/
  defer : List (Nat × ChlMsg) := []
  /-- Management messages for die 0 (subtype, bytes) that wait for this die's number (R567). -/
  held : List (Nat × List Nat) := []
  /-- The packet, and the Ember access, that the requests being sent belong to. The model's own field. -/
  who : Nat := 0
  acc : Option (Nat × Nat) := none
  deriving DecidableEq, Repr

end Sys2Proof.Machine
end

