-- ==== Sys2Proof/Machine/Types/Cif.lean ====
section
/-!
DEFINITION. State of the camera interface (R387 to R397) and of the Fumarole island (R398 to R417) that no register field holds.
-/

namespace Sys2Proof.Machine

/-- A frame of a port that is open, or closed and not yet delivered. -/
structure CifFrame where
  /-- Its FCOUNT, the WCOUNT that names its buffer, and the port's settings it began with. -/
  fc : Nat
  c : Nat
  sig : Nat
  stamp : Nat
  sync : Nat
  last : Nat := 0
  flags : Nat := 0
  /-- Captured long packets so far, and window lines received and written. -/
  lines : Nat := 0
  got : Nat := 0
  written : Nat := 0
  closed : Bool := false
  /-- A frame-start packet was lost: lines from there on belong to no frame (R394). -/
  mute : Bool := false
  /-- The line FIFO: VA and bytes of each window line not yet written. -/
  fifo : List (Nat × List Nat) := []
  deriving DecidableEq, Repr

/-- One port. -/
structure CifPort where
  frames : List CifFrame := []
  /-- TBASE of the write that set EN. -/
  since : Nat := 0
  /-- The wait on REL: handle, value, identifier. -/
  wait : Option (Nat × Nat × Nat) := none
  /-- Stamps of the last frame starts, newest first, at most nine. -/
  starts : List Nat := []
  /-- Frame sync: next pulse, TBASE of the last pulse, and when the pulse in progress ends. -/
  next : Nat := 0
  lastSync : Nat := 0
  pulse : Option Nat := none
  deriving DecidableEq, Repr

structure CifSt where
  port : List (Nat × CifPort) := []
  seq : Nat := 0
  deriving DecidableEq, Repr

/-- A run of the FIE: its list, its buffer, whether an AUTO run, whether the extension waits for it. -/
structure FieRun where
  list : Nat
  buf : Nat
  auto : Bool
  ext : Bool
  deriving DecidableEq, Repr

structure FumSt where
  /-- The buffer whose frame the motion-energy detector reads, and its reference. -/
  meBuf : Option Nat := none
  meRef : Option (List Nat) := none
  fie : Option FieRun := none
  /-- The codes of FUM_WDAC.SRC 2 and 3 (R412). -/
  code2 : Nat := 0
  code3 : Nat := 0
  /-- Frames still to skip (R406). -/
  skip : Nat := 0
  /-- TBASE until which trips of ACMP3 are held off (R412). -/
  holdOff : Nat := 0
  /-- The image failed its check (R417). -/
  bad : Bool := false
  /-- Minimal mode, as the last bring-up that chose an image set it. -/
  minimal : Bool := false
  /-- Interface generation of the image that was loaded. -/
  gen : Nat := 0
  /-- The extension sleeps in WAIT. -/
  asleep : Bool := false
  /-- Events logged: RTC, code, value. -/
  log : List (Nat × Nat × Nat) := []
  /-- Local memory, holding the base firmware (R402). -/
  lmem : List Host.Cell := []
  deriving DecidableEq, Repr

end Sys2Proof.Machine
end

