-- ==== Sys2Proof/Machine/Types/Dco.lean ====
section
/-!
DEFINITION. State of the display compositor (R356 to R386) that no register field holds.
-/

namespace Sys2Proof.Machine

/-- A layer entry of a commit (R366). `proj` is FX, FY, CX, CY as FP32. -/
structure DcoLayer where
  base : Nat
  fmt : Nat
  linear : Bool
  reproj : Bool
  straight : Bool
  opaque_ : Bool
  galpha : Nat
  pitch : Nat
  w : Nat
  h : Nat
  proj : List Nat
  deriving DecidableEq, Repr

/-- A commit (R365): `layers` by layer number, `wait` the identifier of its ACQ wait. -/
structure DcoCommit where
  acqen : Bool := false
  relen : Bool := false
  fben : Bool := false
  tgten : Bool := false
  rel : Nat := 0
  rval : Nat := 0
  target : Nat := 0
  fb : Nat := 0
  rq : List Nat := []
  layers : List (Nat × DcoLayer) := []
  wait : Nat := 0
  deriving DecidableEq, Repr

/-- A distortion mesh (R373): grid, cell size in pixels, six FP32 values a vertex, row-major. -/
structure DcoMesh where
  gw : Nat
  gh : Nat
  cell : Nat
  v : List Nat
  deriving DecidableEq, Repr

/-- What a latch settled: its frame flags (R370), its TBASE, the timestamp of the pose used, and a rotation matrix for each
layer of the commit to show, as nine FP32 values (R374). -/
structure DcoShot where
  flags : Nat := 0
  tb : Nat := 0
  ts : Nat := 0
  mats : List (Nat × List Nat) := []
  deriving DecidableEq, Repr

/-- One channel. -/
structure DcoCh where
  /-- Frames are being sent, and a stop is due at the end of the frame (R384). -/
  on : Bool := false
  stopping : Bool := false
  /-- Next frame to start, and next frame to latch. -/
  next : Option Nat := none
  latch : Nat := 0
  /-- Descriptor being copied (R367). -/
  copy : Option Nat := none
  pend : Option DcoCommit := none
  /-- The commit latched for the next frame, and the one shown. -/
  incoming : Option DcoCommit := none
  cur : Option DcoCommit := none
  shot : DcoShot := {}
  /-- The mesh in force, the loaded one that waits for a frame start, and the load that runs: address, GW, GH, cell. -/
  mesh : Option DcoMesh := none
  meshNew : Option DcoMesh := none
  load : Option (Nat × Nat × Nat × Nat) := none
  /-- The run of misses (R381): its first frame and its length; and the cause of the frame before, 0 when it did not miss. -/
  run : Option (Nat × Nat) := none
  before : Nat := 0
  /-- Scan-fault causes already recorded for the frame being sent. -/
  scan : List Nat := []
  /-- A teardown takes the layers away at the next frame start, and has taken them (R384). -/
  tdown : Bool := false
  off : Bool := false
  /-- The DCS packet in progress: its bytes (none where it has gone out at once), and whether a bus turnaround follows (R383). -/
  dcs : Option (List Nat × Bool) := none
  /-- The link: 0 LP-11, 1 HS, 2 ULPS. -/
  link : Nat := 0
  deriving DecidableEq, Repr

/-- DCO state: the channels, the pose last used (quaternion as FP32, timestamp), and the next wait identifier. -/
structure DcoSt where
  ch : List (Nat × DcoCh) := []
  pose : Option (List Nat × Nat) := none
  seq : Nat := 0
  deriving DecidableEq, Repr

end Sys2Proof.Machine
end

