-- ==== Sys2Proof/Machine/Types/Ember.lean ====
section
/-!
DEFINITION. State of an Ember (R29 to R68): blocks, founding cohorts, issue entries, Caldera, Basin, L1, and the Tephra and
Geyser queues.
-/

namespace Sys2Proof.Machine

/-- What a lane of a founding cohort does: not live, in an issue entry, waiting for a free issue entry, waiting at a founding
barrier with the collective's word and member mask and whether its guard held (R49), at a block barrier (R53), at a
reconvergence point (R40), or held in the reconvergence table (R41). -/
inductive LaneSt where
  | dead | run | want
  | coll (w : Nat) (mask : Nat) (on : Bool)
  | bar (b : Nat)
  | recon
  | held
  deriving DecidableEq, Repr

/-- A level of a reconvergence table (R40, R41): reconvergence address, the mask of each side, the sides held with their
addresses, and whether it only serialises a split that found 8 levels recorded: such a one is no recorded split for R43. -/
structure Level where
  addr : Nat
  sides : List Nat
  held : List (Nat × Nat) := []
  serial : Bool := false
  deriving DecidableEq, Repr

/-- A 2×2 quad to be shaded (R341): its corner relative to the tile, its draw and primitive in the pass, the samples of each
lane (0 for a helper), and the bytes of depth and stencil each lane writes unless it is killed (R339). -/
structure Quad where
  x : Nat
  y : Nat
  draw : Nat
  prim : Nat
  cov : List Nat
  late : List (List (Nat × Nat)) := []
  deriving DecidableEq, Repr

/-- Pixels of a fragment cohort (R341), and what its lanes' stores to the tile replaced: lane, address, byte (R103). -/
structure FragCo where
  quads : List Quad
  undo : List (Nat × Nat × Nat) := []
  deriving DecidableEq, Repr

/-- Progress of a tile block (R338 to R344): its pass, its place in the directory, the first scheduler, the next primitive of
its bin list, the quads of the segment not yet in a cohort, and its kernel: 0 not placed, 1 running, 2 done. -/
structure TileSt where
  pass : Nat
  idx : Nat
  s0 : Nat := 0
  next : Nat := 0
  quads : List Quad := []
  kern : Nat := 0
  deriving DecidableEq, Repr

/-- Launch kinds (R103): compute, vertex shading, tile block with fragment shading, tile kernel. -/
inductive LKind where
  | compute | vertex | fragment | kernel
  deriving DecidableEq, Repr

/-- What a launch gives each of its blocks (R303, R330, R342). `cal` is in bytes; `res` the part of it that is tile memory. -/
structure LInfo where
  kind : LKind := .compute
  pk : Nat := 0
  stream : Nat := 0xFF
  prio : Nat := 3
  entry : Nat := 0
  cbuf : Nat := 0
  csize : Nat := 0
  n : Nat := 8
  cal : Nat := 0
  res : Nat := 0
  tiles : Nat := 0
  norepack : Bool := false
  text : Nat := 0
  samt : Nat := 0
  ntex : Nat := 0
  nsamp : Nat := 0
  dx : Nat := 1
  dy : Nat := 1
  dz : Nat := 1
  gx : Nat := 1
  gy : Nat := 1
  gz : Nat := 1
  udata : List (Nat × Nat) := []
  view : Nat := 0
  tx : Nat := 0
  ty : Nat := 0
  deriving DecidableEq, Repr

/-- A founding cohort (R31, R36): scheduler, state and program counter of each lane, v registers by register × 32 + lane,
u registers, p0 to p7 of each lane as a byte, reconvergence table, and sides held with no level of their own. -/
structure Cohort where
  sched : Nat
  lanes : List (Nat × LaneSt) := []
  pcs : List (Nat × Nat) := []
  v : List (Nat × BitVec 32) := []
  u : List (Nat × BitVec 32) := []
  p : List (Nat × Nat) := []
  levels : List Level := []
  held : List (Nat × Nat) := []
  frag : Option FragCo := none
  /-- What its draw gives a fragment cohort in place of the block's. -/
  info : Option LInfo := none
  deriving DecidableEq, Repr

/-- What an outstanding access does: load n registers, store bytes, or an atomic with its operation, operands, and whether
the old value returns. -/
inductive AccKind where
  | load (dv n size : Nat) (sx : Bool)
  | store (bs : List Nat)
  | atomic (op dv n : Nat) (sgn : Bool) (b c : Nat) (ret : Bool)
  deriving DecidableEq, Repr

/-- An access of a thread that has been issued and not completed (R155, R226). `loc` is its place once translated. -/
structure PendAcc where
  id : Nat
  coh : Nat
  lane : Nat
  va : Nat
  n : Nat
  hint : Nat := 0
  loc : Option Loc := none
  k : AccKind
  /-- Scope of an atomic, and whether it acquires (R159). -/
  scope : Nat := 0
  acq : Bool := false
  deriving DecidableEq, Repr

/-- An xfer copy (R102): group, direction (true: Caldera to global), global address, Caldera address, row length, rows, pitch. -/
structure XCopy where
  id : Nat
  coh : Nat
  lane : Nat
  grp : Nat
  up : Bool
  va : Nat
  cal : Nat
  len : Nat
  rows : Nat
  pitch : Nat
  deriving DecidableEq, Repr

/-- A terminated block's cause (R60, R644): CAUSE, SUB, AUX, instruction address, founding cohort and lane; `quiet` writes no
record (R277). -/
structure Term where
  cause : Nat
  sub : Nat := 0
  aux : Nat := 0
  pc : Nat := 0
  coh : Nat := 0
  lane : Nat := 0
  quiet : Bool := false
  deriving DecidableEq, Repr

/-- A resident block. Basin words are keyed by (2 × tile + copy) × 256 + word; bit t of `sw` says that tile t's primary copy
is copy 1 (R121). `bars` lists the arrivals at block barriers: barrier, founding cohort, lanes. -/
structure Block where
  info : LInfo
  bx : Nat := 0
  by_ : Nat := 0
  bz : Nat := 0
  cohorts : List (Nat × Cohort) := []
  cal : List (Nat × BitVec 8) := []
  basin : List (Nat × BitVec 128) := []
  sw : Nat := 0
  bars : List (Nat × Nat × Nat) := []
  pend : List PendAcc := []
  copies : List XCopy := []
  term : Option Term := none
  /-- Founding cohorts named by a preemption in progress (R54). -/
  stopped : List Nat := []
  tile : Option TileSt := none
  /-- Order of placement: the most recently placed is preempted first (R318). -/
  placed : Nat := 0
  deriving DecidableEq, Repr

/-- An issue entry (R40, R45): its block, its threads as (founding cohort, lanes), the stamp of its allocation, and the
threads that have already performed the instruction at its program counter (R77, R141). -/
structure Entry where
  blk : Nat
  parts : List (Nat × Nat)
  stamp : Nat
  done : List (Nat × Nat) := []
  deriving DecidableEq, Repr

/-- A tile operand stream of tma.mm (R122, R123): address, pitch, transposed. -/
structure TSrc where
  addr : Nat
  pitch : Nat
  tr : Bool
  deriving DecidableEq, Repr

/-- What a queued tile operation does, its tiles named as 2 × tile + copy: a multiply from Caldera, a multiply of fragments
(elements of A by row and of B by column), a drain, a raw copy (R122, R128, R130, R136). -/
inductive TKind where
  | mm (d : List Nat) (add : Bool) (af bf k : Nat) (a b : TSrc)
  | mmf (d : List Nat) (add : Bool) (af bf : Nat) (a b : List (List Nat))
  | drain (t : List (List Nat)) (ofmt rnd : Nat) (relu : Bool) (shift : Int) (scl : Option Nat) (glob clr : Bool)
      (addr pitch : Nat)
  | copy (t : List Nat) (load add : Bool) (addr : Nat)
  deriving DecidableEq, Repr

/-- A queued tile operation (R141, R142). -/
structure TOp where
  id : Nat
  blk : Nat
  coh : Nat
  lane : Nat
  grp : Nat
  charge : Nat
  k : TKind
  started : Bool := false
  deriving DecidableEq, Repr

/-- An L1 line (R351): a memory line by place, its bytes, and whether it is first for eviction (R88). -/
structure L1Line where
  host : Bool
  line : Nat
  data : List Nat
  first : Bool := false
  deriving DecidableEq, Repr

/-- A block saved by preemption (R55, R56): the address of its records, and what the records do not spell out, the tables,
the outstanding accesses to reissue and the copies, in the block as it was. -/
structure Saved where
  addr : Nat
  blk : Block
  /-- Context and save slot of its segment (R320). -/
  ctx : Nat
  seg : Nat
  deriving DecidableEq, Repr

/-- A preemption in progress on an Ember (R54, R320): each block with the context and save slot that take its records;
whether the request has arrived. -/
structure Preempt where
  blks : List (Nat × Nat × Nat)
  got : Bool := false
  deriving DecidableEq, Repr

structure Ember where
  blocks : List (Nat × Block) := []
  /-- Issue entries by scheduler × 32 + index. -/
  entries : List (Nat × Entry) := []
  /-- Groups of threads that wait for a free issue entry: block, founding cohort, lanes. -/
  wants : List (Nat × Nat × Nat) := []
  /-- Scheduler ↦ the entry that must issue next (R38). -/
  first : List (Nat × Nat) := []
  stamp : Nat := 0
  nextId : Nat := 1
  tq : List TOp := []
  gq : List TOp := []
  l1 : List L1Line := []
  pre : Option Preempt := none
  deriving DecidableEq, Repr

end Sys2Proof.Machine
end

