-- ==== Sys2Proof/Machine/Types/Gfx.lean ====
section
/-!
DEFINITION. State of the tiled renderer (R325 to R344): passes, their draws, the batch being shaded, and the bin lists.
-/

namespace Sys2Proof.Machine

/-- A draw of a pass: its packet, its packet's bytes, and the bytes of the RP_STATE in force (R330, R331). -/
structure Draw where
  pk : Nat
  body : List Nat
  st : List Nat
  deriving DecidableEq, Repr

/-- A batch of primitives (R332): the vertices of each primitive as indices into `verts`, the index values to shade, the VA of
the first record, how many of its vertex cohorts have been placed, how many blocks shade them still, and the next primitive to
bin. -/
structure Batch where
  prims : List (List Nat)
  verts : List Nat
  base : Nat
  placed : Nat := 0
  live : Nat := 0
  failed : Bool := false
  next : Nat := 0
  deriving DecidableEq, Repr

/-- A binned triangle (R335): draw, front-facing, view, and for each vertex xs and ys in 1/256 pixel, depth and 1/w as FP32, and
its varyings as FP32. -/
structure Prim where
  draw : Nat
  front : Bool
  view : Nat
  xy : List (Int × Int)
  z : List Nat
  rw : List Nat
  vars : List (List Nat)
  deriving DecidableEq, Repr

/-- Phase of a pass: binning, a spill's tile phase, the final tile phase. -/
inductive PassPhase where
  | bin | spill | final
  deriving DecidableEq, Repr

/-- A render pass, named by its RP_BEGIN. -/
structure Pass where
  id : Nat
  q : Nat
  prio : Nat
  /-- SUBID and offset of its RP_BEGIN. -/
  subid : Nat
  off : Nat
  body : List Nat
  endPk : Option Nat := none
  kern : List Nat := []
  st : List Nat := []
  draws : List Draw := []
  /-- Position of the front end: draw, view (its place in the order), instance, first index of the next primitive, and where
  its strip began. -/
  draw : Nat := 0
  view : Nat := 0
  inst : Nat := 0
  prim : Nat := 0
  strip : Nat := 0
  batch : Option Batch := none
  /-- Offset of the next vertex record in the ring. -/
  ring : Nat := 0
  prims : List Prim := []
  /-- Offset of each primitive's record, and of the next, in 16-byte units. -/
  offs : List Nat := []
  primEnd : Nat := 0
  /-- Tile ↦ its primitives in order. -/
  bins : List (Nat × List Nat) := []
  phase : PassPhase := .bin
  spills : Nat := 0
  /-- Next tile to give out, and tiles done. -/
  tile : Nat := 0
  done : Nat := 0
  err : Nat := 0
  /-- Abandoned (R317, R277): nothing more is binned or given out. -/
  stop : Bool := false
  deriving DecidableEq, Repr

structure GfxSt where
  passes : List Pass := []
  deriving DecidableEq, Repr

end Sys2Proof.Machine
end

