-- ==== Sys2Proof/Machine/Types/Pad.lean ====
section
/-!
DEFINITION. State of the PAD block and of the serial controllers (R611 to R635) that no register field holds.
-/

namespace Sys2Proof.Machine

/-- A serial command in progress (R625). -/
structure SerCmd where
  kind : Nat
  rd : Bool
  len : Nat
  nostop : Bool
  addr : Nat
  ccc : Nat
  deriving DecidableEq, Repr

/-- One serial controller (R623 to R627). -/
structure SerSt where
  cmd : Option SerCmd := none
  /-- The bus transaction, or CS, is held by NOSTOP. -/
  open_ : Bool := false
  /-- A dynamic address assignment has begun and not ended (R626). -/
  daa : Bool := false
  /-- Dynamic addresses assigned since EN was last set (R626). -/
  dyn : List Nat := []
  /-- IBIs that wait for the running transfer's end: address and payload. -/
  ibis : List (Nat × List Nat) := []
  deriving DecidableEq, Repr

/-- The PAD block. -/
structure PadSt where
  /-- Debounced external level of each GPIO pin, bit n. -/
  lvl : Nat := 0
  /-- Pins on which a candidate is losing its pin (R617), bit n. -/
  lost : Nat := 0
  /-- Frame-sync outputs that are high (R396), bit p. -/
  fsync : Nat := 0
  /-- What Thornhedge latched at S3 entry while the GEN group is held: driven pins and their values (R632). -/
  held : Option (Nat × Nat) := none
  /-- I3C0, I3C1, SPI0, AO_I3C. -/
  ser : List (Nat × SerSt) := []
  deriving DecidableEq, Repr

end Sys2Proof.Machine
end

