-- ==== Sys2Proof/Machine/Types/Syn.lean ====
section
/-!
DEFINITION. State of the SYN unit (R249 to R284): resident sync entries, pending signals, waits, the running command and
teardown.
-/

namespace Sys2Proof.Machine

/-- A sync-object record (R254) as its 64-bit and 32-bit words: VALUE, EPOINT, PMAX, the mirror word at 0x18, and the words
at 0x20, 0x24 and 0x28. -/
structure SyncObj where
  value : Nat := 0
  epoint : Nat := 0
  pmax : Nat := 0
  mir : Nat := 0
  w20 : Nat := 0
  w24 : Nat := 0
  w28 : Nat := 0
  deriving DecidableEq, Repr

/-- A wait registered at an object of this die: object index, value, waiter's die and identifier (R258, R431). -/
structure SynWait where
  idx : Nat
  w : Nat
  die : Nat
  id : Nat
  deriving DecidableEq, Repr

/-- A signal pending at an object of this die: object index, source die, value (R262). -/
structure SynPend where
  idx : Nat
  die : Nat
  value : Nat
  deriving DecidableEq, Repr

/-- A teardown in progress (R277): queue or context, its handle, and whether the home die of the handle is another. -/
structure Teardown where
  ctx : Bool
  handle : Nat
  remote : Bool
  deriving DecidableEq, Repr

/-- SYN state. -/
structure SynSt where
  /-- Resident entries by object index (R272). -/
  res : List (Nat × SyncObj) := []
  pend : List SynPend := []
  waits : List SynWait := []
  /-- This die's waits on objects homed elsewhere: handle, value, identifier. -/
  remote : List (Nat × Nat × Nat) := []
  /-- Satisfied waits of this die not yet taken by their waiter: identifier ↦ (ERR, completed with an error). -/
  sat : List (Nat × (Nat × Bool)) := []
  /-- The running command: OP, its RESULT, and QUERY's ERRCNT and ERR, VALUE, EPOINT; none of them for a command another
  die carries out. -/
  cmd : Option (Nat × Option (Nat × Nat × Nat × Nat)) := none
  td : Option Teardown := none
  /-- Contexts whose ERRPOL teardown waits for the running one, first come first (Edges and collisions). -/
  tdq : List Nat := []
  deriving DecidableEq, Repr

end Sys2Proof.Machine
end

