-- ==== Sys2Proof/Machine/Types/System.lean ====
section
/-!
DEFINITION. State of the host interface, ownership, transactions, fault queue, clocks, power, bring-up, resets and the debug
port that no register field holds.
-/

namespace Sys2Proof.Machine

/-- A master's read latch and write holding word (R10), each with the offset of its 64-bit register. -/
structure Latch where
  rd : Option (Nat × Nat) := none
  wr : Option (Nat × Nat) := none
  deriving DecidableEq, Repr

/-- A latched BAR4 window (R459): DPA base, limit in bytes, read-only. -/
structure ApWin where
  base : Nat := 0
  limit : Nat := 0
  ro : Bool := false
  deriving DecidableEq, Repr

/-- Ownership state beside OWN_STAT (R471 to R476): claims recorded in the election window, and the TBASE at which the
lease, the offer and the window end. -/
structure OwnSt where
  claims : List Nat := []
  leaseEnd : Nat := 0
  offerEnd : Nat := 0
  electEnd : Nat := 0
  deriving DecidableEq, Repr

/-- One staged write (R483): slot, offset, value, 64-bit or not. -/
structure TxnEntry where
  slot : Nat
  off : Nat
  val : Nat
  wide : Bool
  deriving DecidableEq, Repr

/-- Boundary of a committed slot and the time its timeout ends (R482, R484). -/
structure TxnSlot where
  bound : Nat := 0
  ch : Nat := 0
  at_ : Nat := 0
  deadline : Nat := 0
  deriving DecidableEq, Repr

/-- The pending summary record (R648). -/
structure FltSum where
  count : Nat
  classes : Nat
  first : Nat
  last : Nat
  deriving DecidableEq, Repr

/-- Fault staging buffer (R646), oldest first, and the pending summary. -/
structure FltSt where
  staged : List FaultRec := []
  sum : Option FltSum := none
  /-- Records generated while FAB is off (R646). -/
  later : List FaultRec := []
  deriving DecidableEq, Repr

/-- The running telemetry counters (R651), in the order of R653: ENERGY, S0 to S3, THROT, CAP, EMB, WAKES, RECS. -/
structure TelSt where
  cnt : List (Nat × Nat) := []
  deriving DecidableEq, Repr

/-- A move of ECLK (R500): the target step, and whether the rail has still to settle. -/
structure EclkMove where
  target : Nat
  up : Bool
  deriving DecidableEq, Repr

/-- Clock and time-base state (R497, R505 to R508). -/
structure CruSt where
  move : Option EclkMove := none
  unlockTb : Nat := 0
  latTb : Nat := 0
  latRtc : Nat := 0
  holdTo : Option Nat := none
  /-- Sequence, t1, and t2, t4 with the upstream-locked flag once RSP has come: stamps in 2^-16 counts. -/
  exSeq : Nat := 0
  exT1 : Option Nat := none
  exRsp : Option (Nat × Nat × Bool) := none
  /-- Consecutive good exchanges (R507) and intervals without a complete exchange (R508). -/
  good : Nat := 0
  missed : Nat := 0
  /-- The FCLK divisor in force: low mode or not (R501). -/
  fclkLow : Bool := false
  /-- Part of a crystal cycle that has passed, in 1/390,625. -/
  rtcFrac : Nat := 0
  deriving DecidableEq, Repr

/-- An accepted low-power entry (R529 to R531): its target state and when it was accepted. -/
structure PwrEntry where
  target : Nat
  t0 : Nat
  deriving DecidableEq, Repr

/-- Power control state (R516 to R546). -/
structure PwrSt where
  /-- Domains whose drain is running, and domains whose switch is closing. -/
  drains : List Nat := []
  ramps : List Nat := []
  entry : Option PwrEntry := none
  /-- Time of the counted trip whose exit is running, with the state left. -/
  exit : Option (Nat × Nat) := none
  waitGood : Bool := false
  s4 : Bool := false
  tripped : Bool := false
  sustained : Bool := false
  below : Nat := 0
  cool : Nat := 0
  crit : Bool := false
  /-- The bucket in units of 100 nJ (R542). -/
  bucket : Nat := 0
  /-- Last reading of each thermal sensor, 16 bits in 1/8 °C (R650). -/
  temps : List (Nat × Nat) := []
  pgEmb : Bool := false
  powerGood : Bool := true
  deriving DecidableEq, Repr

/-- Watchdog count (R636): units of the stage in force and the TBASE of the last kick that landed. -/
structure WdtSt where
  units : Nat := 0
  lastKick : Nat := 0
  /-- FCLK cycles counted in the stage in force. -/
  cyc : Nat := 0
  deriving DecidableEq, Repr

/-- What the last cold bring-up leaves for the warm path to compare: digests of the running Warden image, of the board configuration,
of the licence store and of the supplement, and the fused SVN (R581, R594, R602). Digests stand as the bytes themselves read as one
number, so equal digests mean equal contents (log entry 15). -/
structure Retained where
  warden : Nat
  board : Nat
  lic : Nat
  sup : Nat
  svn : Nat
  deriving DecidableEq, Repr

/-- Bring-up state (R549 to R583) that no register holds. -/
structure BootSt where
  retained : Option Retained := none
  /-- Step history (R576): step ↦ (VARIANT, FAILS, CLASS and SUB). -/
  hist : List (Nat × (Nat × Nat × Nat)) := []
  /-- Steps whose OK since the last cold entry the breadcrumb store holds, with its record slot (R581). -/
  okSteps : List (Nat × Nat) := []
  /-- The step begun and not ended, with the VARIANT and ARG of its BEGIN; the one that the last bring-up left so (R576). -/
  open_ : Option (Nat × Nat × Nat) := none
  inter : Option (Nat × Nat × Nat) := none
  /-- The resource under test when EMBTEST or ARRAYTEST hung: KIND, INDEX, SUB as in R597 (R579). -/
  hungAt : Option (Nat × Nat × Nat) := none
  /-- SYN_TBL0–3 BASE and CFG as the hardware saves them (R565). -/
  synShadow : Option (List (Nat × DWord)) := none
  /-- The breadcrumb store: record slot ↦ its two 64-bit words (R573). -/
  crumbs : List (Nat × (Nat × Nat)) := []
  chainwait : Nat := 3000
  testconc : Nat := 4
  memtest : Nat := 2
  /-- Fused integrator key hash (R554); 0: none. -/
  keyHash : Nat := 0
  /-- The environment of the bring-up in progress. -/
  env : BootEnv := {}
  /-- Die 0: dies that hold a test slot, and dies that wait for one, in order (R568). -/
  slots : List Nat := []
  slotQ : List Nat := []
  /-- This die waits for its test slot (R569); its window was taken without a slot. -/
  waitSlot : Bool := false
  slotTmo : Bool := false
  /-- Die 0 has granted this die a slot that it has not returned. -/
  hasSlot : Bool := false
  /-- TBASE at which the wait began. -/
  waitFrom : Nat := 0
  /-- Die 0 holds READY back for the chain (R570). -/
  waitChain : Bool := false
  /-- A CHAIN die in RECEIVE (R566, R567): the port that began the bundle, the blocks so far, tries. -/
  recvPort : Option Nat := none
  blocks : List (Nat × List Nat) := []
  tries : Nat := 0
  /-- Only the ROM has run on a FAILED die (R580). -/
  failedOnly : Bool := false
  /-- Flash offsets of the running Warden and Fumarole images. -/
  warden : Nat := 0
  fumarole : Nat := 0
  /-- Journal sequence number of the newest entry (R575). -/
  jseq : Nat := 0
  /-- OTHER blobs' store indices with UID [31:0] (R592, R593). -/
  foreign : List (Nat × Nat) := []
  deriving DecidableEq, Repr

/-- JTAG TAP and debug access port (R671 to R674). -/
structure JtagSt where
  /-- Current instruction: 2 IDCODE after TAP reset. -/
  ir : Nat := 2
  /-- Boundary cells: levels and output enables of the GPIO pads, and the other pads' cells. -/
  bndOut : Nat := 0
  bndEn : Nat := 0
  bndRest : Nat := 0
  /-- Boundary register in control of the pads (EXTEST, CLAMP, HIGHZ): 0 none, 1 drives, 2 high impedance. -/
  drive : Nat := 0
  dapStat : Nat := 0
  dapData : Nat := 0
  dapOff : Nat := 0
  dapErr : Bool := false
  deriving DecidableEq, Repr

/-- Reset control (R654 to R659). -/
structure RstSt where
  /-- The reset whose assertion is in force, until its release event. -/
  asserted : Option ResetKind := none
  /-- FLR (1), hot reset (6) and CHNRST on port 0 or 1 (4, 5) held until S0 (R659), with what the bring-up will meet. -/
  held : List (Nat × BootEnv) := []
  deriving DecidableEq, Repr

end Sys2Proof.Machine
end

