-- ==== Sys2Proof/Machine/Types/Wsp.lean ====
section
/-!
DEFINITION. State of Wellspring (R285 to R324): queues, the packet window, launches and graphs.
-/

namespace Sys2Proof.Machine

/-- An await of a packet (R291): handle, IGNERR, value, and its outcome once satisfied. -/
structure PkAwait where
  h : Nat
  ign : Bool
  w : Nat
  out : Option (Nat × Bool) := none
  deriving DecidableEq, Repr

/-- A signal of a packet: handle, value, whether its object passed R250, whether it is a RECORD's own. -/
structure PkSig where
  h : Nat
  n : Nat
  ok : Bool := true
  rec_ : Bool := false
  deriving DecidableEq, Repr

/-- The placing of a launch's blocks (R305): the next linear index, blocks on Embers, blocks saved. -/
structure PkLaunch where
  next : Nat := 0
  live : Nat := 0
  saved : Nat := 0
  stop : Bool := false
  deriving DecidableEq, Repr

/-- Stage of a packet (R297). -/
inductive PkStage where
  | fetched | parsed | committed | running | done
  deriving DecidableEq, Repr

/-- A packet in the window, or a node of a running graph (`parent`). -/
structure Pkt where
  id : Nat
  q : Nat
  sub : Nat
  off : Nat
  bytes : List Nat
  stage : PkStage := .fetched
  /-- Reason of a PACKET refusal (R293, R644); 0: none. -/
  ref_ : Nat := 0
  /-- A handle that failed R250, and how. -/
  bad : Option (Nat × Nat) := none
  deps : List Nat := []
  awaits : List PkAwait := []
  sigs : List PkSig := []
  err : Nat := 0
  pins : List Nat := []
  /-- The COND that resolves the predicate, and the outcome (R301). -/
  predBy : Option Nat := none
  pred : Option Bool := none
  /-- For a COND: what Q[QD] was before it. -/
  prev : Option Nat × Option Bool := (none, some false)
  nop : Bool := false
  /-- Results of remote handle checks (R298): handle ↦ RESULT, none while asked. -/
  chk : List (Nat × Option Nat) := []
  launch : Option PkLaunch := none
  /-- Graph launch: the pinned map slot; and for a node: its launch, node index. -/
  graph : Option Nat := none
  parent : Option (Nat × Nat) := none
  /-- For a packet of a render pass after its RP_BEGIN: the RP_BEGIN. -/
  pass : Nat := 0
  /-- TBASE of its commit. -/
  tc : Nat := 0
  deriving DecidableEq, Repr

/-- A submission whose packets are being fetched or have not all retired (R286). -/
structure WspSub where
  idx : Nat
  cbva : Nat
  cblen : Nat
  subid : Nat
  dl : Nat
  after : Bool
  /-- Offset of the next packet to fetch; at `cblen` or beyond all are fetched. -/
  next : Nat := 0
  /-- Tag ↦ packet that carried it last (R294); Qi ↦ the COND that wrote it last and its outcome. -/
  tags : List (Nat × Nat) := []
  preds : List (Nat × (Option Nat × Option Bool)) := []
  missed : Bool := false
  /-- Render pass being parsed (R325): 0 none, 1 begun, 2 begun with a state; and its RP_BEGIN. -/
  pass : Nat := 0
  passBegin : Nat := 0
  /-- The pass became NOPs (R326). -/
  passNop : Bool := false
  /-- Whether a packet was cut off and the rest of the buffer skipped (R293). -/
  cut : Bool := false
  deriving DecidableEq, Repr

/-- A queue that is resident, or evicted with state (R273, R320). -/
structure WspQ where
  slot : Option Nat := none
  gen : Nat := 0
  ctx : Nat := 0
  prio : Nat := 3
  rbase : Nat := 0
  lg : Nat := 4
  dlrel : Nat := 0
  head : Nat := 0
  tail : Nat := 0
  cboff : Nat := 0
  dlmiss : Nat := 0
  subs : List WspSub := []
  /-- Failed packets: submission and identifier (R296). -/
  failed : List (Nat × Nat) := []
  /-- Code of the first failure since the previous RECORD (R308). -/
  recErr : Nat := 0
  /-- Times: residence began, idle since. -/
  tRes : Nat := 0
  tIdle : Nat := 0
  /-- The queue is being evicted: no more of its blocks are placed (R274). -/
  evict : Bool := false
  deriving DecidableEq, Repr

/-- A resident context or copy (R273): what its record holds. -/
structure WspCtx where
  h : Nat
  pasid : Nat
  errpol : Nat
  priomax : Nat
  group : Nat
  save : Nat
  deriving DecidableEq, Repr

structure WspSt where
  qs : List (Nat × WspQ) := []
  ctxs : List WspCtx := []
  /-- Runnable queues that are not resident, in order of first doorbell. -/
  runq : List Nat := []
  /-- Doorbells whose submissions have not all been fetched: queue, TAIL, TBASE. -/
  bells : List (Nat × Nat × Nat) := []
  win : List Pkt := []
  nextId : Nat := 1
  /-- Queue index served last by placement, per priority (R315). -/
  turn : List (Nat × Nat) := []
  /-- Ember ↦ TBASE since which it has been idle (R316). -/
  idle : List (Nat × Nat) := []
  /-- Embers asked to power on, and Embers removed from placement (R316, R523). -/
  wantOn : List Nat := []
  outOf : List Nat := []
  deriving DecidableEq, Repr

end Sys2Proof.Machine
end

