-- ==== Sys2Proof/Machine/State.lean ====
section
/-!
DEFINITION. The machine state: one die of the CH16, as plain data, with the queue of waiting commands.
-/

namespace Sys2Proof.Machine

/-- Why a step can stop with a fault. -/
inductive Fault where
  /-- Raised by no meaning of this model: every error the spec describes is an effect on the state. Safe. -/
  | none_
  deriving DecidableEq, Repr

/-- Why a command can be refused. -/
inductive Refusal where
  /-- Raised by a dispatch arm whose meaning is not written yet. Safe: nothing can be proved of the command's effect. -/
  | notModelled (mnemonic : String)
  deriving DecidableEq, Repr

/-- One die. Register fields live in `regs` (one cell per field, keyed by offset and lowest bit; an unlisted field reads as
its reset value); everything else the spec gives the die is in the fields below. -/
structure State where
  regs : List (Nat × DWord) := []
  /-- Raw words of register-like stores without fields: MSI-X table and PBA (R457), mailbox buffers (R584). -/
  raw : List (Nat × Word) := []
  /-- R10: latch and holding word of each master, by index. -/
  latch : List (Nat × Latch) := []
  /-- The access being served was answered with an error (R470). The model's own field. -/
  busErr : Bool := false
  ap : List (Nat × ApWin) := []
  own : OwnSt := {}
  txn : List (Nat × TxnSlot) := []
  staged : List TxnEntry := []
  flt : FltSt := {}
  tel : TelSt := {}
  cru : CruSt := {}
  pwr : PwrSt := {}
  wdt : WdtSt := {}
  boot : BootSt := {}
  jtag : JtagSt := {}
  rst : RstSt := {}
  pad : PadSt := {}
  syn : SynSt := {}
  sin : SinSt := {}
  dtu : DtuSt := {}
  wsp : WspSt := {}
  emb : List (Nat × Ember) := []
  saved : List Saved := []
  gfx : GfxSt := {}
  dco : DcoSt := {}
  cif : CifSt := {}
  fum : FumSt := {}
  chl : ChlSt := {}
  /-- Device memory of this die by local address [40:0] (R22): what its point of coherence holds (R149). -/
  mem : List Host.Cell := []
  /-- Boot flash by byte offset; an unlisted byte is erased (0xFF) (R551). -/
  flash : List Host.Cell := []
  /-- AO SRAM by byte offset (R404). -/
  ao : List Host.Cell := []
  /-- What the die has sent out, oldest first. The model's own field. -/
  out : List Out := []
  /-- Index of the next free value. The model's own field. -/
  fresh : Nat := 0
  /-- The commands that wait, first in, first out. -/
  pending : List Instr := []
  deriving DecidableEq, Repr

/-- The machine as a power-on reset leaves it, before its release: every register field at its Reset value, every store as R661
leaves it. The first command that has an effect is POR_RELEASE. -/
def State.reset : State := { rst := { asserted := some .por } }

end Sys2Proof.Machine
end

