-- ==== Sys2Proof/Machine/Keep.lean ====
section
/-!
DEFINITION. What register fields keep across resets and states (R18, R19, R62, R517, R660).
-/

namespace Sys2Proof.Machine

/-- The instance of a register at an offset: (first index, second index). -/
def Reg.inst (r : Reg) (off : Nat) : Option (Nat × Nat) :=
  if off < r.off then none
  else
    let d := off - r.off
    let i := if r.s1 = 0 then 0 else d / r.s1
    let d := d - i * r.s1
    let k := if r.s2 = 0 then 0 else d / r.s2
    if d - k * r.s2 = 0 && i < r.n1 && k < r.n2 then some (i, k) else none

/-- The register whose (low) word lies at an offset. -/
def findReg (off : Nat) : Option (Reg × Nat × Nat) :=
  (R.windowAt off).findSome? fun r => (r.inst off).map fun p => (r, p.1, p.2)

/-- The field that a register cell holds. -/
def fieldAt (key : Nat) : Option Field :=
  (findReg (key / 64)).bind fun r => r.1.fields.find? fun f => f.lo == key % 64

/-- Fields with Kept in none that record an event; the other such RO fields show what the state of the die is, and follow it
(log entry 44). -/
def eventFields : List Field := [R.HIF_STAT_APERR, R.PWR_STAT_CAPSAT, R.PWR_STAT_THROT, R.PWR_MEAS_P, R.PAD_STAT_CONFL,
  R.THM_EMB_VALID, R.THM_EMB_TEMP, R.THM_SITE_VALID, R.THM_SITE_TEMP, R.THM_MAX_VALID, R.THM_MAX_SRC, R.THM_MAX_TEMP]

/-- The field shows the state of a unit. -/
def Field.mirror (f : Field) : Bool := f.kept == 0 && f.acc == .ro && !(eventFields.any fun g => g.off == f.off && g.lo == f.lo)

/-- Keep the cells of the fields that `p` names, and return the others to their Reset values. -/
def State.regsFilter (s : State) (p : Nat → Field → Bool) : State :=
  { s with regs := s.regs.filter fun c => match fieldAt c.1 with | some f => p (c.1 / 64) f | none => true }

/-- The state S1 or S2 is left (R18): fields that are not kept in it return to their Reset values, the sensors' readings among
them. -/
def State.stateLeft (s : State) (bit : Nat) : State :=
  { s.regsFilter fun _ f => f.kept &&& bit != 0 || f.mirror with pwr := { s.pwr with temps := [] } }

/-- One of a list of fields. -/
def Field.isIn (f : Field) (l : List Field) : Bool := l.any fun g => g.off == f.off && g.lo == f.lo

end Sys2Proof.Machine
end

