-- ==== Sys2Proof/Machine/Ops.lean ====
section
/-!
DEFINITION. The named operations over registers, memory, time, the error log, the fault queue and the outbox that every
command's meaning is written with.
-/

namespace Sys2Proof.Machine

/-! ## Numbers -/

/-- Bits [lo+w-1:lo] of a number. -/
def bitsOf (v lo w : Nat) : Nat := (v >>> lo) % 2 ^ w

/-- One bit as a Bool. -/
def bitB (v k : Nat) : Bool := (v >>> k) % 2 == 1

/-- A number with bit k set or cleared. -/
def putBit (v k : Nat) (b : Bool) : Nat :=
  if b then v ||| 1 <<< k else if bitB v k then v - 1 <<< k else v

/-- Signed reading of the low w bits. -/
def sgn (w v : Nat) : Int :=
  if v % 2 ^ w < 2 ^ (w - 1) then (v % 2 ^ w : Int) else (v % 2 ^ w : Int) - 2 ^ w

/-- Low w bits of an integer. -/
def unsgn (w : Nat) (i : Int) : Nat := (i % (2 ^ w : Int)).toNat

def b2n (b : Bool) : Nat := if b then 1 else 0

/-- Number of set bits among the low n. -/
def popc : Nat → Nat → Nat
  | 0, _ => 0
  | n + 1, v => v % 2 + popc n (v / 2)

/-- Little-endian bytes of a number. -/
def toBytes : Nat → Nat → List Nat
  | 0, _ => []
  | n + 1, v => v % 256 :: toBytes n (v / 256)

/-- The number that little-endian bytes spell. -/
def ofBytes : List Nat → Nat
  | [] => 0
  | b :: l => b % 256 + 256 * ofBytes l

/-! ## Register fields -/

/-- Offset of the (i, k) instance of a field's register. -/
def Field.offAt (f : Field) (i k : Nat) : Nat := f.off + i * f.s1 + k * f.s2

/-- Cell key of a field: its register's offset and its lowest bit. -/
def Field.key (f : Field) (i k : Nat) : Nat := f.offAt i k * 64 + f.lo

/-- The Reset value of an instance of a field. -/
def Field.rstAt (f : Field) (i k : Nat) : Nat :=
  match f.exc.lookup (f.offAt i k) with
  | some v => v
  | none => f.rst

/-- The value of a register field. -/
def State.get (s : State) (f : Field) (i : Nat := 0) (k : Nat := 0) : Nat :=
  (Cells.get (BitVec.ofNat 64 (f.rstAt i k)) s.regs (f.key i k)).toNat

/-- A one-bit field as a Bool. -/
def State.flag (s : State) (f : Field) (i : Nat := 0) (k : Nat := 0) : Bool := s.get f i k != 0

/-- Write a register field, cut to its width. -/
def State.set (s : State) (f : Field) (v : Nat) (i : Nat := 0) (k : Nat := 0) : State :=
  { s with regs := Cells.set (BitVec.ofNat 64 (f.rstAt i k)) s.regs (f.key i k) (BitVec.ofNat 64 (v % 2 ^ f.w)) }

/-- Set a one-bit field. -/
def State.setB (s : State) (f : Field) (b : Bool) (i : Nat := 0) (k : Nat := 0) : State := s.set f (b2n b) i k

/-- Advance a count that holds at its largest value. -/
def State.incSat (s : State) (f : Field) (i : Nat := 0) (k : Nat := 0) : State :=
  s.set f (min (s.get f i k + 1) (2 ^ f.w - 1)) i k

/-- Advance a count by n, holding at its largest value. -/
def State.addSat (s : State) (f : Field) (n : Nat) (i : Nat := 0) (k : Nat := 0) : State :=
  s.set f (min (s.get f i k + n) (2 ^ f.w - 1)) i k

/-- Advance a count that wraps. -/
def State.incWrap (s : State) (f : Field) (i : Nat := 0) (k : Nat := 0) : State :=
  s.set f (s.get f i k + 1) i k

/-! ## Time, identity, outbox, free values -/

/-- TBASE, in counts of 10 ns (R502). -/
def State.tb (s : State) : Nat := s.get R.CRU_TB_NOW_TBASE

/-- Counts in a millisecond and in a microsecond. -/
def msC : Nat := 100000
def usC : Nat := 100

/-- Record something the die sends. -/
def State.emit (s : State) (o : Out) : State := { s with out := s.out ++ [o] }

/-- This die's number (R453). -/
def State.die (s : State) : Nat := s.get R.CHL_ROLL_DIE

/-- This die acts as die 0: it holds number 0, or it is a root that no roll call has numbered (R422). -/
def State.isDie0 (s : State) : Bool :=
  s.die == 0 && (s.flag R.CHL_ROLL_VALID || s.flag R.CHL_STAT_ROOT)

/-- A free value of w bits, and the counter advanced so that the next one is another. -/
def State.free (s : State) (w : Nat) : Nat × State :=
  ((Config.freeBits w s.fresh).toNat, { s with fresh := s.fresh + 1 })

/-- Route field of a die (R453): port 0, port 1, 2 local, 3 none; bit 2 management only; bit 3 SLEEP on the path. -/
def State.route (s : State) (d : Nat) : Nat := bitsOf
  (match d with
   | 0 => s.get R.CHL_ROUTE_ROUTE0 | 1 => s.get R.CHL_ROUTE_ROUTE1 | 2 => s.get R.CHL_ROUTE_ROUTE2
   | 3 => s.get R.CHL_ROUTE_ROUTE3 | 4 => s.get R.CHL_ROUTE_ROUTE4 | 5 => s.get R.CHL_ROUTE_ROUTE5
   | 6 => s.get R.CHL_ROUTE_ROUTE6 | 7 => s.get R.CHL_ROUTE_ROUTE7 | _ => 3) 0 4

/-- Hop fields by die (R453). -/
def hopFields : List Field := [R.CHL_HOPS_HOPS0, R.CHL_HOPS_HOPS1, R.CHL_HOPS_HOPS2, R.CHL_HOPS_HOPS3, R.CHL_HOPS_HOPS4,
  R.CHL_HOPS_HOPS5, R.CHL_HOPS_HOPS6, R.CHL_HOPS_HOPS7]

def State.hops (s : State) (d : Nat) : Nat := match hopFields[d]? with | some f => s.get f | none => 0

/-- The last roll call numbered the die (R23): this one, or one with hops to it. The hops stand when a route is lost. -/
def State.onChain (s : State) (d : Nat) : Bool := s.flag R.CHL_ROLL_VALID && (d == s.die || s.hops d != 0)

/-- A management message can reach the die: its route is a port (R443). -/
def State.mgmtReach (s : State) (d : Nat) : Bool := s.isDie0 && d == 0 || bitsOf (s.route d) 0 2 < 2 && s.flag R.CHL_ROLL_VALID

/-- Memory traffic can reach the die: a route that is not management-only. -/
def State.memReach (s : State) (d : Nat) : Bool := s.mgmtReach d && !bitB (s.route d) 2

/-- The port toward a die. -/
def State.portTo (s : State) (d : Nat) : Nat := bitsOf (s.route d) 0 2

/-! ## Chain messages (R429 to R436) -/

/-- Virtual channel of an opcode. -/
def chlVc (op : Nat) : Nat := if op < 8 then 0 else if op < 0x10 then 1 else if op = 0x20 then 2 else 3

/-- Raw entries of an opcode. -/
def chlRaw (op : Nat) : Nat := if op = 4 || op = 5 then 1 else 0

/-- NDATA. -/
def ChlMsg.nd (m : ChlMsg) : Nat := m.data.length / 128
/-- Credits that a message costs (R435), and flits it takes when it has a header flit of its own (log entry 42). -/
def ChlMsg.cost (m : ChlMsg) : Nat := 1 + chlRaw m.op + m.nd
def ChlMsg.flits (m : ChlMsg) : Nat := 1 + m.nd
/-- Subtype, LOCAL and subtype argument of a management message. R431 puts REGREQ's write flag at bit 25 of the argument, to which R430
gives 25 bits: it has 26 here (log entry 50). -/
def ChlMsg.sub (m : ChlMsg) : Nat := m.arg % 256
def ChlMsg.local_ (m : ChlMsg) : Bool := m.op == 0x20 && bitB m.arg 8
def ChlMsg.marg (m : ChlMsg) : Nat := bitsOf m.arg 16 26
/-- DPA and lines of a memory request. -/
def ChlMsg.dpa (m : ChlMsg) : Nat := if m.op = 5 then bitsOf m.arg 0 44 else bitsOf m.arg 0 37 * 128
def ChlMsg.lines (m : ChlMsg) : Nat := if m.op = 2 || m.op = 3 then bitsOf m.arg 37 5 + 1 else 1

/-- Bytes filled up with zeros to whole data flits. -/
def flitPad (bs : List Nat) : List Nat := bs ++ List.replicate ((128 - bs.length % 128) % 128) 0

/-- log2 of a power of two. -/
def lg2 : Nat → Nat → Nat
  | 0, _ => 0
  | n + 1, v => if v ≤ 1 then 0 else 1 + lg2 n (v / 2)

/-- The contents of a message by its opcode (R430, R431), from the numbers it carries. -/
def chlPack (op : Nat) (a : List Nat) : ChlMsg :=
  let x := fun i => a.getD i 0
  let syn := fun (bs : List Nat) => ({ op, arg := op, data := flitPad bs } : ChlMsg)
  match op with
  | 1 => { op, arg := x 0 / 128 }
  | 2 => { op, arg := x 0 / 128 + x 1 * 2 ^ 37 }
  | 3 => { op, arg := x 0 / 128 + (a.tail.length / 128 - 1) * 2 ^ 37, data := a.tail }
  | 4 => { op, arg := x 0 / 128, raw := toBytes 16 (x 1), data := a.drop 2 }
  | 5 => {
    op, arg := x 0 + x 1 * 2 ^ 44 + x 2 * 2 ^ 48 + x 3 * 2 ^ 49, raw := toBytes 8 (x 4) ++ toBytes 8 (x 5) }
  | 8 => { op, data := a }
  | 9 => { op, arg := x 0 }
  | 0x10 => syn (toBytes 8 (x 0) ++ toBytes 8 (x 1))
  | 0x11 => syn (toBytes 4 (x 0) ++ toBytes 4 (x 1) ++ toBytes 8 (x 2))
  | 0x12 => syn (toBytes 4 (x 0) ++ toBytes 4 (x 1) ++ toBytes 8 (x 2))
  | 0x13 => syn (toBytes 4 0 ++ toBytes 4 (x 0) ++ toBytes 2 (x 1) ++ [x 2])
  | 0x14 => syn (toBytes 4 (x 0) ++ toBytes 4 (x 1) ++ [x 2])
  | 0x15 | 0x16 => syn (toBytes 4 (x 0) ++ [x 1, x 2])
  | 0x17 => syn (toBytes 8 (x 0) ++ toBytes 4 (x 1) ++ [lg2 64 (x 2 / 4096), x 3] ++ toBytes 2 0 ++ toBytes 4 (x 4))
  | 0x18 => syn (toBytes 16 0 ++ toBytes 4 (x 0))
  | 0x19 | 0x1A => { syn (toBytes 32 (Config.fixedBits 256 (op :: a)).toNat) with tlp := a }
  | _ => { op }

def State.chlPort (s : State) (p : Nat) : ChlPort := Cells.get {} s.chl.port p
def State.chlPut (s : State) (p : Nat) (x : ChlPort) : State := { s with chl := { s.chl with port := Cells.set {} s.chl.port p x } }
def State.chlUpd (s : State) (p : Nat) (f : ChlPort → ChlPort) : State := s.chlPut p (f (s.chlPort p))

/-- Put a message on the wire. -/
def State.chlWire (s : State) (p : Nat) (m : ChlMsg) : State :=
  s.emit (.chl p m.op m.src m.dst m.tag m.st m.arg (m.raw ++ m.data))

/-- Put a link-control entry on the wire (R430). -/
def State.chlCtl (s : State) (p op arg : Nat) : State := s.chlWire p { op, arg }

/-- A message may go now: its credits are held and the replay buffer of 512 flits has room. -/
def ChlPort.fits (x : ChlPort) (m : ChlMsg) : Bool :=
  x.cred.getD (chlVc m.op) 0 ≥ m.cost && (x.replay.map ChlSent.flits).sum + m.flits ≤ 512

/-- Close the groups of a message's flits (R442): each tag is a function of the keys and the flits (log entry 43). -/
def State.chlTags (s : State) (p n : Nat) : State :=
  (List.range n).foldl (fun s _ =>
    let g := (s.chlPort p).txg
    (s.chlUpd p fun x => { x with txg := g + 1 }).chlWire p
      { op := 0xF4, arg := g, data := toBytes 12 (Config.fixedBits 96 [0xF4, p, s.tb, g]).toNat }) s

/-- Send a message: credits, sequence numbers, replay buffer. -/
def State.chlSend (s : State) (p : Nat) (m : ChlMsg) (waited : Bool := false) : State :=
  let v := chlVc m.op
  let s := (s.chlUpd p fun x => { x with
    cred := x.cred.set v (x.cred.getD v 0 - m.cost), seq := (x.seq + m.flits) % 4096,
    replay := x.replay ++ [ChlSent.mk x.seq m.flits 1 m] }).chlWire p m
  let s := if s.flag R.CHLP_STAT_ENCON p && (s.chlPort p).proved then s.chlTags p ((m.flits + 31) / 32) else s
  -- a forwarded message that waited leaves the buffer of the port it came by (R435)
  if m.src != s.die && waited then s.chlCtl (1 - p) 0xF3 (v + m.cost * 2 ^ 16) else s

/-- The port sends messages: authenticating, waiting for roll call, ACTIVE, QUARANTINE. -/
def State.chlOpen (s : State) (p : Nat) : Bool := 3 ≤ s.get R.CHLP_STAT_STATE p && s.get R.CHLP_STAT_STATE p ≤ 6

/-- Merge a request into the last one that waits (R433): full lines, one destination, consecutive, one aligned 4 KiB window. -/
def chlMerge (q : List ChlMsg) (m : ChlMsg) : Option (List ChlMsg × Nat) :=
  match q.getLast? with
  | none => none
  | some l =>
    let n := l.lines
    if l.src = m.src && l.dst = m.dst && !l.poison && !m.poison && m.dpa = l.dpa + 128 * n && l.dpa / 4096 = m.dpa / 4096 &&
        (l.op = 3 && m.op = 3 || (l.op = 1 || l.op = 2) && m.op = 1) then
      some (q.dropLast ++ [if l.op = 3 then { l with arg := bitsOf l.arg 0 37 + (n + m.lines - 1) * 2 ^ 37, data := l.data ++ m.data }
        else { l with op := 2, arg := bitsOf l.arg 0 37 + n * 2 ^ 37 }], l.tag)
    else none

/-- Two requests became one: the second's outstanding entry joins the first's. -/
def State.reqJoin (s : State) (tag add : Nat) : State :=
  match s.chl.req.find? fun r => r.msg.tag == add with
  | none => s
  | some x => { s with chl := { s.chl with req := (s.chl.req.filter fun r => r.msg.tag != add).map fun r =>
      if r.msg.tag == tag then { r with lines := r.lines + x.lines, who := r.who ++ x.who } else r } }

/-- Hand a message to a port: sent, or held behind its channel (R427, R435, R446). A port that is down takes none. -/
def State.chlPost (s : State) (p : Nat) (m : ChlMsg) : State :=
  let x := s.chlPort p
  if s.chlOpen p && x.fits m && !(x.q.any fun w => chlVc w.op == chlVc m.op) then s.chlSend p m
  else if s.chlOpen p || s.get R.CHLP_STAT_STATE p = 7 || s.get R.CHLP_STAT_STATE p = 9 then
    match if m.src == s.die && m.op < 4 then chlMerge x.q m else none with
    | some (q, tag) => (s.chlPut p { x with q }).reqJoin tag m.tag
    | none => s.chlPut p { x with q := x.q ++ [m] }
  else s

/-- Send what waits on a virtual channel, in order, as far as credits and the replay buffer allow. -/
def State.chlPumpVc (s : State) (p v : Nat) : Nat → State
  | 0 => s
  | n + 1 =>
    let x := s.chlPort p
    match x.q.find? fun m => chlVc m.op == v with
    | some m => if s.chlOpen p && x.fits m then ((s.chlPut p { x with q := x.q.erase m }).chlSend p m true).chlPumpVc p v n else s
    | none => s

def State.chlPump (s : State) (p : Nat) : State :=
  let n := (s.chlPort p).q.length
  if n = 0 then s else [1, 2, 3, 0].foldl (fun s v => s.chlPumpVc p v n) s

/-- Send a message of this die; a request is outstanding until it is answered. Line addresses stand as DPAs. -/
def State.chlOut (s : State) (p dst op : Nat) (args : List Nat) : State :=
  let m := { chlPack op args with src := s.die, dst }
  if op ≥ 6 then s.chlPost p m
  else
    let m := { m with tag := s.chl.tag }
    let s := { s with chl := { s.chl with
      tag := (s.chl.tag + 1) % 65536,
      req := s.chl.req ++ [ChlReq.mk m m.lines (if s.chl.who = 0 then [] else [s.chl.who]) s.chl.acc false] } }
    s.chlPost p m

/-- What a step sends belongs to a packet's work, and to an Ember access. -/
def State.chlAs (s : State) (pk : Nat) (acc : Option (Nat × Nat)) (f : State → State) : State :=
  let t := f { s with chl := { s.chl with who := pk, acc } }
  { t with chl := { t.chl with who := 0, acc := none } }

/-- Every write-through this die sent has been acknowledged (R165). -/
def State.wtAcked (s : State) : Bool := s.chl.req.all fun r => r.msg.op != 3 && r.msg.op != 4

/-- The management message of a subtype (R430): its argument, its bytes. -/
def mgtMsg (sub marg : Nat) (local_ : Bool) (data : List Nat) : ChlMsg :=
  { op := 0x20, arg := sub + 256 * b2n local_ + 65536 * marg, data := flitPad data }

/-- Send a management message toward a die along its route. -/
def State.mgmt (s : State) (dst sub : Nat) (data : List Nat) (marg : Nat := 0) : State :=
  if s.mgmtReach dst then s.chlPost (s.portTo dst) { mgtMsg sub marg false data with src := s.die, dst } else s

/-- A LOCAL management message on a port, for the partner. -/
def State.mgmtLocal (s : State) (p sub : Nat) (data : List Nat) (marg : Nat := 0) : State :=
  s.chlPost p { mgtMsg sub marg true data with src := s.die, dst := s.get R.CHLP_STAT_PEERDIE p }

/-- Send a management message to die 0, held until this die has a number (R567). -/
def State.mgmtZero (s : State) (sub : Nat) (data : List Nat) : State :=
  if s.flag R.CHL_ROLL_VALID then s.mgmt 0 sub data
  else { s with chl := { s.chl with held := s.chl.held ++ [(sub, data)] } }

/-- Cut bytes at line boundaries: the pieces of a store, each within one line. -/
def linePieces : Nat → Nat → List Nat → List (Nat × List Nat)
  | 0, _, _ => []
  | _, _, [] => []
  | fuel + 1, a, bs =>
    let n := 128 - a % 128
    (a, bs.take n) :: linePieces fuel (a + n) (bs.drop n)

/-- A write-through of bytes within one line: WR for a whole line, WRP otherwise. -/
def State.chlStore (s : State) (dpa : Nat) (bs : List Nat) : State :=
  let d := bitsOf dpa 41 3
  if bs.length = 128 then s.chlOut (s.portTo d) d 3 (dpa :: bs)
  else
    let o := dpa % 128
    s.chlOut (s.portTo d) d 4 ((dpa - o) :: ((2 ^ bs.length - 1) * 2 ^ o) ::
      (List.replicate o 0 ++ bs ++ List.replicate (128 - o - bs.length) 0))

/-! ## Interrupt vectors (R463, R464) -/

/-- Set bit d of vector v's byte in HIF_IDIE. -/
def State.idieSet (s : State) (v d : Nat) : State :=
  s.set R.HIF_IDIE_BYTES (putBit (s.get R.HIF_IDIE_BYTES (v / 4)) (v % 4 * 8 + d) true) (v / 4)

/-- What a raw word reads as before it is written: the mask bit of an MSI-X vector reads 1 (log entry 21). -/
def rawDflt (off : Nat) : Word := if 0x8000 ≤ off && off < 0x8400 && off % 16 == 12 then 1 else 0

def State.rawGet (s : State) (off : Nat) : Nat := (Cells.get (rawDflt off) s.raw off).toNat
def State.rawSet (s : State) (off v : Nat) : State :=
  { s with raw := Cells.set (rawDflt off) s.raw off (BitVec.ofNat 32 v) }

/-- Send an MSI-X message; a masked vector sets its pending bit instead (R464: PCI Express masking and pending-bit rules). -/
def State.msix (s : State) (v : Nat) : State :=
  if bitB (s.rawGet (0x8000 + 16 * v + 12)) 0 then
    s.rawSet (0x9000 + 4 * (v / 32)) (putBit (s.rawGet (0x9000 + 4 * (v / 32))) (v % 32) true)
  else s.emit (.msix v)

/-- Raise a block event of vector v: on die 0 the IDIE bit and the MSI-X message, elsewhere an IRQ message to die 0. -/
def State.vector (s : State) (v : Nat) : State :=
  if s.isDie0 then (s.idieSet v 0).msix v else s.mgmt 0 0x0D [v, s.die]

/-- Raise vector v when an enable holds. -/
def State.vectorIf (s : State) (b : Bool) (v : Nat) : State := if b then s.vector v else s

/-! ## Telemetry counters (R651) -/

def State.telAdd (s : State) (i n : Nat) : State :=
  { s with tel := { s.tel with cnt := Cells.set 0 s.tel.cnt i (Cells.get 0 s.tel.cnt i + n) } }

/-! ## Fault records (R643 to R648) -/

/-- FQ_STAT.OVERFLOW goes to 1, and vector 0 under R649. -/
def State.fltIrq (s : State) : State :=
  if s.flag R.FQ_CFG_IEN && !s.flag R.FQ_STAT_IPEND then (s.set R.FQ_STAT_IPEND 1).vector 0 else s

/-- Drop a record (R648): class count, OVERFLOW, SUMPEND and the pending summary. -/
def State.fltDrop (s : State) (r : FaultRec) : State :=
  let s := s.incSat R.FQ_DROP_COUNT r.cls
  let was := s.flag R.FQ_STAT_OVERFLOW
  let s := (s.set R.FQ_STAT_OVERFLOW 1).set R.FQ_STAT_SUMPEND 1
  let sm : FltSum := match s.flt.sum with
    | some m => { count := m.count + 1, classes := m.classes ||| 1 <<< r.cls, first := m.first, last := r.seq }
    | none => { count := 1, classes := 1 <<< r.cls, first := r.seq, last := r.seq }
  let s := { s with flt := { s.flt with sum := some sm } }
  if was then s else s.fltIrq

/-- Number a record and stage it, or drop it when the staging buffer of 64 is full (R645, R646, R651). -/
def State.fltNumber (s : State) (r : FaultRec) : State :=
  let r := { r with seq := s.get R.FQ_STAT_NEXTSEQ, tb := s.tb, die := s.die }
  let s := (s.incWrap R.FQ_STAT_NEXTSEQ).telAdd 9 1
  if s.flt.staged.length < 64 then { s with flt := { s.flt with staged := s.flt.staged ++ [r] } } else s.fltDrop r

/-- A domain bit of PWR_DOM_ON (R547): bits 0 to 7 the named domains, 16 + n logical Ember n. -/
def State.domOn (s : State) (d : Nat) : Bool :=
  if d < 16 then bitB (s.get R.PWR_DOM_ON_ON_DOM) d else bitB (s.get R.PWR_DOM_ON_ON_EMB) (d - 16)

/-- Generate a fault record; while FAB is off it waits for FAB, and so it does while a die leaves S3 and TBASE has not resumed
(R646, R536). -/
def State.fault (s : State) (r : FaultRec) : State :=
  if s.domOn 0 && s.get R.PWR_STAT_STATE ≠ 3 then s.fltNumber r else { s with flt := { s.flt with later := s.flt.later ++ [r] } }

/-- FAB is on again: the records that waited are generated (R646). -/
def State.fltWake (s : State) : State :=
  s.flt.later.foldl State.fltNumber { s with flt := { s.flt with later := [] } }

/-! ## Error completions (R470) -/

/-- Log an access in CHIP_ELOG unless the log is full, and count it. -/
def State.elog (s : State) (m : Master) (k : ElogKind) (off : Nat) (bar4 : Bool := false) : State :=
  let s := s.incSat R.CHIP_ECNT_COUNT
  if s.flag R.CHIP_ELOG_VALID then s
  else ((((s.set R.CHIP_ELOG_VALID 1).set R.CHIP_ELOG_MASTER m.idx).set R.CHIP_ELOG_KIND k.code).setB
    R.CHIP_ELOG_BAR bar4).set R.CHIP_ELOG_ADDR_OFFSET off

/-- The access ends with an error in its master's form: M2's sticky flag, M3's access fault; M1's answer reads `busErr`. -/
def State.errMark (s : State) (m : Master) : State :=
  let s := { s with busErr := true }
  match m with
  | .m2 => { s with jtag := { s.jtag with dapErr := true } }
  | .m3 => s.emit (.irqMcu 1)
  | _ => s

/-- Drop an access with an error completion, logged (R470). -/
def State.errComp (s : State) (m : Master) (k : ElogKind) (off : Nat) : State := (s.elog m k off).errMark m

/-! ## Ownership and the domains of the register windows -/

/-- The master holds the die (R466): STATE is OWNED or OFFERED and OWNER names it. The Warden's writes always land (R467). -/
def State.owns (s : State) (m : Master) : Bool :=
  m == .warden || (s.get R.OWN_STAT_STATE ≥ 2 && s.get R.OWN_STAT_OWNER == m.idx)

/-- Domain of a register offset (R20, R62, R452, R487, R540, R586, R609, R652, R653, R675): none for AO. -/
def domOf (off : Nat) : Option Nat :=
  if off < 0x100000 then (if 0x200 ≤ off && off < 0x218 then none else some 0)
  else if off < 0x200000 then none
  else if off < 0x300000 then (if off == 0x200408 then none else some 0)
  else if off < 0x400000 then none
  else if off < 0x500000 then (if off == 0x400F00 || off == 0x400F04 then none else some 0)
  else if off < 0x900000 then some 0
  else if off < 0x901000 then some 0
  else if off < 0x902000 then some 4
  else if off < 0xA00000 then some 5
  else if off < 0xB00000 then some 2
  else if off < 0xC00000 then some 3
  else if off < 0xD00000 then some 1
  else if off < 0xE00000 then (if 0xD00020 ≤ off && off < 0xD00038 then none else some 0)
  else if off < 0xF00000 then (if 0xE00200 ≤ off && off < 0xE00300 then none else some 0)
  else if off < 0x1000000 then none
  else if off < 0x1100000 then some (16 + (off - 0x1000000) / 0x10000)
  else none

/-- The domain takes accesses: powered, not draining, not in the retention of S2 (R516, R518). An entry drains FAB, GFX, DISP, CAM
and every Ember from its acceptance (R529); a die leaving S3 serves nothing until S0 (R534). -/
def State.domLive (s : State) (d : Nat) : Bool :=
  s.domOn d && !s.pwr.drains.contains d && !(s.pwr.entry.isSome && (d < 4 || 16 ≤ d)) &&
  !(s.get R.PWR_STAT_STATE == 2 && (d < 4 || d == 6)) && s.get R.PWR_STAT_STATE != 3

/-- The block whose ENG reset covers an offset (R658), as a bit of CRU_RST_ENG: BLK bits 0 to 7, 16 + n for Ember n. -/
def engOf (off : Nat) : Option Nat :=
  if 0x1000 ≤ off && off < 0x1200 then some 0
  else if 0xF00000 ≤ off && off < 0x1000000 then some 1
  else if 0x700000 ≤ off && off < 0x800000 then some 2
  else if 0x800000 ≤ off && off < 0x900000 then some 3
  else if 0xA00000 ≤ off && off < 0xB00000 then some 4
  else if 0xB00000 ≤ off && off < 0xC00000 then some 5
  else if 0x400000 ≤ off && off < 0x500000 then some 6
  else if 0x380000 ≤ off && off < 0x400000 then some 7
  else if 0x1000000 ≤ off && off < 0x1100000 then some (16 + (off - 0x1000000) / 0x10000)
  else none

/-- The ENG reset of a block runs (R658). -/
def State.engRuns (s : State) (b : Nat) : Bool :=
  if b < 16 then bitB (s.get R.CRU_RST_ENG_BLK) b else bitB (s.get R.CRU_RST_ENG_EMB) (b - 16)

/-- BOOT_STAT.PHASE reads READY. -/
def State.ready (s : State) : Bool := s.get R.BOOT_STAT_PHASE == 3

/-- Before READY, or FAILED, this access is refused under R560 or R580. -/
def State.early (s : State) (m : Master) (off : Nat) (write : Bool) : Bool :=
  match s.get R.BOOT_STAT_PHASE with
  | 3 => false
  | 4 => if s.boot.failedOnly then m == .m0 && (write || !(off < 0x20 || (0x100000 ≤ off && off < 0x200000)))
         else m != .warden && !(off < 0x200000)
  | _ => m == .m0 && (write || !(off < 0x20 || (0x100000 ≤ off && off < 0x200000)))

/-- What becomes of a write before the register's own checks. -/
inductive Gate where
  | live | stage (slot : Nat) | drop (k : ElogKind) | early | asleep | noPath
  deriving DecidableEq, Repr

/-- Transaction block of an offset (R481): its window number, or 16 for the Ember windows; none where nothing is staged. -/
def txnBlock (off : Nat) : Option Nat :=
  if 0x380000 ≤ off && off < 0x400000 then none
  else if off < 0x1000000 then some (off / 0x100000)
  else if off < 0x1100000 then some 16
  else none

/-- The slot that holds the block of an offset, if any (R483). -/
def State.txnHolder (s : State) (off : Nat) : Option Nat :=
  match txnBlock off with
  | none => none
  | some b => (List.range 4).find? fun n => s.get R.TXN_S_STAT_STATE n != 0 && bitB (s.get R.TXN_S_BLK_MASK n) b

/-- Offsets the microcontroller reaches (R402, R468): its local bus with AO SRAM, and the ownership mirrors. -/
def m3Reach (off : Nat) : Bool := (0x380000 ≤ off && off < 0x400000) || (0x200 ≤ off && off < 0x210)

/-- The checks of R13, R466, R483, R484, R560 and R658 on a write of a master to an owner-gated offset. -/
def State.gate (s : State) (m : Master) (off : Nat) : Gate :=
  if m == .m3 && !m3Reach off then .noPath
  else if s.early m off true then .early
  else if !s.domLive 0 && (domOf off).isSome then .asleep
  else if (engOf off).any s.engRuns then .drop .domainOff
  else if (domOf off).any (fun d => !s.domLive d) then .drop .domainOff
  else if !(s.owns m || (m == .m3 && 0x380000 ≤ off)) then .drop .nonowner
  else if m == .warden then .live
  else match s.txnHolder off with
    | none => .live
    | some n => match s.get R.TXN_S_STAT_STATE n with
      | 1 => .stage n
      | 2 => .drop .txnHeld
      | _ => .drop .txnFull

/-- Stage an owner write in its slot (R483): no free entry among the 256 fails the slot with FULL. -/
def State.stage (s : State) (m : Master) (n off val : Nat) (wide : Bool) : State :=
  if s.staged.length < 256 then
    { (s.set R.TXN_S_STAT_COUNT (s.get R.TXN_S_STAT_COUNT n + 1) n) with
      staged := s.staged ++ [{ slot := n, off, val, wide }] }
  else ((s.set R.TXN_S_STAT_STATE 3 n).set R.TXN_S_STAT_REASON 6 n).errComp m .txnFull off

/-- RTC and TBASE are captured together (R400). -/
def State.rtcCapture (s : State) : State :=
  (s.set R.FUM_TBSYNC_RTC_VALUE (s.get R.FUM_RTC_RTC)).set R.FUM_TBSYNC_TB_VALUE s.tb

/-- An access ends S1 first and is then served (R526); what S1 does not keep returns to its Reset value (R18), and the exit to S0
captures the RTC (R400). -/
def State.wakeS1 (s : State) : State :=
  if s.get R.PWR_STAT_STATE == 1 then ((s.stateLeft 64).set R.PWR_STAT_STATE 0).rtcCapture else s

/-- An access by a master begins: it ends S1, unless it is the microcontroller's, and uses up the master's latch and holding
word (R10). -/
def State.access (s : State) (m : Master) : State :=
  let s := if m == .m3 then s else s.wakeS1
  { s with busErr := false, latch := Cells.set {} s.latch m.idx {} }

/-- A write by a master to an owner-gated offset that is dropped, or goes on to `act`, with the slot that stages it. -/
def State.gated (s : State) (m : Master) (off : Nat) (act : Option Nat → State → State) : State :=
  let s := s.access m
  match s.gate m off with
  | .early => s.incSat R.BOOT_EARLY_COUNT
  | .noPath => s.errMark m
  | .asleep => (s.incSat R.PWR_DROP_COUNT).errMark m
  | .drop k => s.errComp m k off
  | .stage n => act (some n) s
  | .live => act none s

/-- A write by a master to an owner-gated offset: dropped, staged, or performed by `live`. -/
def State.ownerWrite (s : State) (m : Master) (off val : Nat) (wide : Bool) (live : State → State) : State :=
  s.gated m off fun n s => match n with
    | some n => s.stage m n off val wide
    | none => live s

/-! ## Memory -/

/-- Byte of a cell store; an unlisted address reads as `d`. -/
def byteAt (d : Nat) (l : List Host.Cell) (a : Nat) : Nat := (Cells.get (BitVec.ofNat 8 d) l a).toNat

/-- Write one byte, keeping the canonical form. -/
def putByte (d : Nat) (l : List Host.Cell) (a v : Nat) : List Host.Cell :=
  Cells.set (BitVec.ofNat 8 d) l a (BitVec.ofNat 8 v)

/-- Bytes of a store from an address up. -/
def bytesAt (d : Nat) (l : List Host.Cell) : Nat → Nat → List Nat
  | _, 0 => []
  | a, n + 1 => byteAt d l a :: bytesAt d l (a + 1) n

/-- Write bytes from an address up. -/
def putBytes (d : Nat) (l : List Host.Cell) : Nat → List Nat → List Host.Cell
  | _, [] => l
  | a, b :: bs => putBytes d (putByte d l a b) (a + 1) bs

/-- Little-endian number in local DRAM; unwritten DRAM reads as zero. -/
def State.memNat (s : State) (a n : Nat) : Nat := ofBytes (bytesAt 0 s.mem a n)

/-- Write a little-endian number to local DRAM. -/
def State.memSet (s : State) (a n v : Nat) : State := { s with mem := putBytes 0 s.mem a (toBytes n v) }

/-- Installed DRAM in bytes (R22, R562). -/
def State.dramBytes (s : State) : Nat := s.get R.BOOT_DRAM_SIZE * 2 ^ 20

/-- Where a DPA lies (R22, R23): on this die within the installed DRAM, on another numbered die, or nowhere. -/
def State.dpaLoc (s : State) (dpa : Nat) : Loc :=
  let d := bitsOf dpa 41 3
  let a := bitsOf dpa 0 41
  if dpa ≥ 2 ^ 44 then .bad dpa
  else if d == s.die then (if a < s.dramBytes then .loc a else .bad dpa)
  else if s.onChain d then .remote dpa
  else .bad dpa

/-- The MEMC answers: powered, not locked out, not in retention (R516, R523). -/
def State.memcOn (s : State) : Bool := s.domLive 6

/-- Status of a device-memory access to a place (R23, R177, R446, R518, R523, R658). -/
def State.locStatus (s : State) (l : Loc) : Status :=
  if s.engRuns 3 then .error else match l with
  | .loc _ => if s.memcOn then .ok else if s.domOn 6 then .domainAsleep else .error
  | .remote dpa =>
    if !s.memReach (bitsOf dpa 41 3) then .unreachable else if bitB (s.route (bitsOf dpa 41 3)) 3 then .domainAsleep else .ok
  | .host _ => if (s.flag R.HIF_STAT_LINKUP && !s.engRuns 0) || !s.isDie0 then .ok else .error
  | .bad _ => .error

/-- Store bytes at a place: local DRAM takes them, other places get the write sent (R149, R174). -/
def State.storeAt (s : State) (l : Loc) (bs : List Nat) : State :=
  match l with
  | .loc a => { s with mem := putBytes 0 s.mem a bs }
  | .remote dpa => (linePieces bs.length dpa bs).foldl (fun s p => s.chlStore p.1 p.2) s
  | .host a => s.emit (.hostWrite a bs)
  | .bad _ => s

/-- Bytes at a place: local DRAM gives its own, other places what the command brought as `ext`. -/
def State.loadAt (s : State) (l : Loc) (n : Nat) (ext : List Nat) : List Nat :=
  match l with
  | .loc a => bytesAt 0 s.mem a n
  | _ => (ext ++ List.replicate n 0).take n

/-- The MEMORY record of an access to a place that does not exist (R23). -/
def State.badAddr (s : State) (a stream : Nat) : State :=
  s.fault { cls := 3, cause := 3, d0 := a, d1 := stream * 2 ^ 32 }

end Sys2Proof.Machine

namespace Sys2Proof.Machine

/-! ## Registers as words: finding, locks, writing fields (R9 to R16) -/

/-- The lock named by the Meaning columns for the RWL fields of the register at an offset holds. -/
def State.lockHolds (s : State) (off : Nat) : Bool :=
  if 0xD00000 ≤ off && off < 0xD0000C then s.flag R.WDT_CTL_LOCK
  else if off == 0xE00000 || off == 0xE00008 then s.flag R.FQ_CFG_EN
  else if 0x700040 ≤ off && off < 0x700058 then s.flag R.DTU_CTL_ACEN
  else if off == 0x700060 || off == 0x700068 then s.flag R.DTU_MN_CFG_EN
  else if 0x600010 ≤ off && off < 0x600050 then s.flag R.SYN_CTL_EN
  else if 0x800100 ≤ off && off < 0x800200 then s.flag R.SIN_RGN_ATTR_EN ((off - 0x800100) / 16)
  else if off == 0xA00000 then [0, 1].any fun c => s.flag R.DCO_C_CTL_EN c || (Cells.get {} s.dco.ch c).on
  else if 0xA01000 ≤ off && off < 0xA03000 then
    let c := (off - 0xA01000) / 0x1000
    let o := (off - 0xA01000) % 0x1000
    (s.flag R.DCO_C_CTL_EN c || (Cells.get {} s.dco.ch c).on) && (!(0x100 ≤ o && o < 0x180) || s.flag R.DCO_C_OUT_DSC c)
  else if 0xB00010 ≤ off && off < 0xB00020 then
    (List.range 4).any fun p => s.flag R.CIF_P_CTL_FSEN p
  else if 0xB01000 ≤ off && off < 0xB05000 then
    let p := (off - 0xB01000) / 0x1000
    if (off - 0xB01000) % 0x1000 == 0x34 then s.flag R.CIF_P_CTL_FSEN p else s.flag R.CIF_P_CTL_EN p
  else false

/-- A write would change a field that its lock guards (log entry 10). -/
def State.changesLocked (s : State) (r : Reg) (i k val : Nat) : Bool :=
  r.fields.any fun f => f.acc == .rwl && s.get f i k != bitsOf val f.lo f.w

/-- Perform a write on one field by its access code (R14). -/
def State.putField (s : State) (i k val : Nat) (f : Field) : State :=
  let x := bitsOf val f.lo f.w
  match f.acc with
  | .own | .rwl | .rw => s.set f x i k
  | .w1c => s.set f (s.get f i k - (s.get f i k &&& x)) i k
  | .w1s => s.set f (s.get f i k ||| x) i k
  | .ro | .wo => s

/-- Perform a write on every field of a register. -/
def State.putReg (s : State) (r : Reg) (i k val : Nat) : State :=
  r.fields.foldl (fun s f => s.putField i k val f) s

/-- The stored word of a register: its fields in place. -/
def State.regWord (s : State) (r : Reg) (i k : Nat) : Nat :=
  r.fields.foldl (fun v f => if f.acc == .wo then v else v + s.get f i k * 2 ^ f.lo) 0

/-- A live write to a register's fields, refused as LOCKED where it would change a locked field. -/
def State.lockedWrite (s : State) (m : Master) (off val : Nat) (r : Reg) (i k : Nat) (post : State → State) : State :=
  if s.lockHolds off && s.changesLocked r i k val then s.errComp m .locked off
  else post (s.putReg r i k val)

end Sys2Proof.Machine
end

