-- ==== Sys2Proof/Machine/PadFn.lean ====
section
/-!
DEFINITION. Pin function selection (R614 to R617) and the level of a pad (R618, R620).
-/

namespace Sys2Proof.Machine

/-- The candidates of a GPIO pin in priority order (R614), each with whether it is requested (R615). -/
def State.padCands (s : State) (n : Nat) : List Bool :=
  if n < 4 then [s.flag R.PAD_MCLK_EN n]
  else if n < 8 then [s.domOn 3 && s.flag R.CIF_P_CTL_FSEN (n - 4)]
  else if n < 10 then [s.flag R.SER_CTL_EN 0]
  else if n < 12 then [s.flag R.SER_CTL_EN 1]
  else if n < 16 then [s.flag R.SER_CTL_EN 2]
  else if n = 16 then [bitB (s.get R.CRU_TB_CAPCTL_EN) 0, s.flag R.SER_CTL_EN 2 && s.flag R.SER_CTL_CS1EN 2]
  else if n = 17 then [bitB (s.get R.CRU_TB_CAPCTL_EN) 1]
  else []

/-- Candidate i of pin n qualifies (R616): requested, and its FMASK bit 0. -/
def State.padQual (s : State) (n i : Nat) : Bool :=
  (s.padCands n).getD i false && !bitB (s.get R.PAD_PIN_FMASK n) i

/-- The function a pin takes (R616): 0 GPIO, i + 1 candidate i. -/
def State.padSel (s : State) (n : Nat) : Nat :=
  match (List.range 2).find? (fun i => s.padQual n i) with
  | some i => i + 1
  | none => 0

/-- The candidates that are requested and lose the pin to a higher one (R617). -/
def State.padLosers (s : State) (n : Nat) : List Nat :=
  (List.range 2).filter fun i => s.padQual n i && s.padSel n != i + 1

/-- One pin takes its function: FSEL, CONFL while a loss lasts, and one record at the start of each loss. -/
def State.padPlace (s : State) (n : Nat) : State :=
  let losers := s.padLosers n
  let s := s.set R.PAD_PIN_FSEL (s.padSel n) n
  match losers with
  | [] => { s with pad := { s.pad with lost := putBit s.pad.lost n false } }
  | l :: _ =>
    let s := s.set R.PAD_PIN_CONFL 1 n
    if bitB s.pad.lost n then s
    else { s with pad := { s.pad with lost := putBit s.pad.lost n true } }.fault { cls := 9, cause := 4, src := n, sub := l + 1 }

/-- Every pin with candidates takes its function (R616); PAD_STAT.CONFL follows. -/
def State.padUpdate (s : State) : State :=
  let s := (List.range 18).foldl State.padPlace s
  s.setB R.PAD_STAT_CONFL ((List.range 48).any fun n => s.flag R.PAD_PIN_CONFL n)

/-- TB_CAPk is placed on its pin; unplaced, it reads 0 (R617). -/
def State.tbCapPlaced (s : State) (k : Nat) : Bool := s.padSel (16 + k) == 1

/-- Bit of pin n in a pair of 32-pin registers. -/
def State.pinBit (s : State) (f : Field) (n : Nat) : Bool := bitB (s.get f (n / 32)) (n % 32)

/-- What the die drives on a pin under the GPIO function (R618), or as a frame-sync output (R396): nothing, or a level. A held pad
drives what was latched; the boundary register overrides both (R673). -/
def State.padDrive (s : State) (n : Nat) : Option Bool :=
  if s.jtag.drive = 2 then none
  else if s.jtag.drive = 1 then (if bitB s.jtag.bndEn n then some (bitB s.jtag.bndOut n) else none)
  else match s.pad.held with
  | some (drv, val) => if bitB drv n then some (bitB val n) else none
  | none =>
    if 4 ≤ n && n < 8 && s.get R.PAD_PIN_FSEL n = 1 then some (bitB s.pad.fsync (n - 4))
    else if s.get R.PAD_PIN_FSEL n ≠ 0 || !s.pinBit R.PAD_OE_OE n then none
    else if s.flag R.PAD_PIN_OD n && s.pinBit R.PAD_OUT_OUT n then none
    else some (s.pinBit R.PAD_OUT_OUT n)

/-- The level at a pad (R620): what the die drives, otherwise the outside's. -/
def State.padLevel (s : State) (n : Nat) : Bool := (s.padDrive n).getD (bitB s.pad.lvl n)

/-- PAD_INk as read: the levels of its pins. -/
def State.padIn (s : State) (k : Nat) : Nat :=
  ((List.range (if k = 0 then 32 else 16)).map fun b => b2n (s.padLevel (32 * k + b)) * 2 ^ b).sum

end Sys2Proof.Machine
end

