-- ==== Sys2Proof/Machine/Clock.lean ====
section
/-!
DEFINITION. Clocks and the time base (R495 to R515).
-/

namespace Sys2Proof.Machine

/-! ## ECLK steps -/

/-- The effective step (R499): the highest code of the request, the profile limit, and the power-cap and thermal limits. -/
def State.eclkEff (s : State) : Nat :=
  max (max (s.get R.CRU_ECLK_REQ_STEP) (s.get R.BOOT_PROF_STEPLIM)) (max (s.get R.PWR_LIMIT_CAPSTEP) (s.get R.PWR_LIMIT_THSTEP))

/-- VID code of a step's voltage point (R544): ⌈(mV − 500) / 2⌉. -/
def State.vidOf (s : State) (step : Nat) : Nat := (s.get R.CRU_VTAB_MV step - 500 + 1) / 2

/-- Begin a move toward the effective step when none runs (R500): up waits for the rail, down switches the divisor first. -/
def State.eclkMove (s : State) : State :=
  let t := s.eclkEff
  if s.cru.move.isSome || t = s.get R.CRU_ECLK_STAT_CUR then s
  else if t < s.get R.CRU_ECLK_STAT_CUR then
    { (s.set R.CRU_ECLK_STAT_BUSY 1).emit (.pin "VID" (s.vidOf t)) with cru := { s.cru with move := some ⟨t, true⟩ } }
  else (s.set R.CRU_ECLK_STAT_CUR t).emit (.pin "VID" (s.vidOf t))

/-- Recompute TARGET, LIMIT and CLAMPED (R499), and start a move where one is due. -/
def State.eclkUpdate (s : State) : State :=
  let req := s.get R.CRU_ECLK_REQ_STEP
  let t := s.eclkEff
  let s := s.set R.CRU_ECLK_STAT_TARGET t
  let lim := b2n (req < s.get R.BOOT_PROF_STEPLIM) + 2 * b2n (req < s.get R.PWR_LIMIT_CAPSTEP) +
    4 * b2n (req < s.get R.PWR_LIMIT_THSTEP)
  let s := s.set R.CRU_ECLK_STAT_LIMIT lim
  (if t ≠ req then s.set R.CRU_ECLK_STAT_CLAMPED 1 else s).eclkMove

/-- CRU_ECLK_REQ written by a master (R499): never refused, clamped. -/
def execEclkRequest (m : Master) (step : BitVec 3) (s : State) : Host.Outcome State Fault Refusal :=
  .next (s.ownerWrite m 0x200010 step.toNat false fun s => (s.set R.CRU_ECLK_REQ_STEP step.toNat).eclkUpdate)

/-- The rail is reported settled (R500, R544): with PGEN = 1 only while PG_EMB is high. -/
def execEclkRailSettled (pgEmb : Bool) (s : State) : Host.Outcome State Fault Refusal :=
  .next (let s := { s with pwr := { s.pwr with pgEmb } }
    match s.cru.move with
    | none => s
    | some mv =>
      if s.flag R.PWR_VCFG_PGEN && !pgEmb then s
      else
        let s := (s.set R.CRU_ECLK_STAT_CUR mv.target).set R.CRU_ECLK_STAT_BUSY 0
        { s with cru := { s.cru with move := none } }.eclkUpdate)

/-- A rail not settled within 1 ms abandons the move (R500). -/
def execEclkVddTimeout (s : State) : Host.Outcome State Fault Refusal :=
  .next (match s.cru.move with
    | none => s
    | some mv =>
      let s := { s.set R.CRU_ECLK_STAT_BUSY 0 with cru := { s.cru with move := none } }
      s.fault { cls := 8, cause := 4, d0 := mv.target })

/-- The FCLK divisor switches at the first TCLK tick after the write of CRU_FCLK.LOW (R501). -/
def execFclkSwitch (s : State) : Host.Outcome State Fault Refusal :=
  .next { s with cru := { s.cru with fclkLow := s.flag R.CRU_FCLK_LOW } }

/-! ## RPLL and the carry of TBASE (R497, R505) -/

/-- Latch TBASE with the RTC (R505). -/
def State.tbLatch (s : State) (rtc : Nat) : State :=
  { s with cru := { s.cru with latTb := s.tb, latRtc := rtc } }

/-- TBASE resumes at the latched value plus ⌊ΔRTC × 390,625 / 128⌋ (R505). -/
def State.tbCarry (s : State) (rtc : Nat) : State :=
  (s.set R.CRU_TB_NOW_TBASE (s.cru.latTb + (rtc - s.cru.latRtc) * 390625 / 128)).set R.FUM_RTC_RTC rtc

/-- This die is the reference of the time base (R502): die 0, or a die that is not chained. -/
def State.tbRef (s : State) : Bool := s.isDie0 || !s.flag R.CHL_ROLL_VALID

/-- Set the time-base state (R508); each change of LOCK sets EVT. -/
def State.tbState (s : State) (st : Nat) : State :=
  let s' := (s.set R.CRU_TB_STAT_STATE st).setB R.CRU_TB_STAT_LOCK (st == 3)
  if s.flag R.CRU_TB_STAT_LOCK == (st == 3) then s' else s'.set R.CRU_TB_STAT_EVT 1

/-- Enter FREE on a die that is not the reference (R508). -/
def State.tbFree (s : State) : State :=
  if s.tbRef then s
  else { s.tbState 1 with cru := { s.cru with good := 0, missed := 0, exT1 := none, exRsp := none, holdTo := none } }

/-- RPLL loses lock (R497). `rtc` is the RTC count of the edge TBASE is latched with. -/
def execRpllUnlock (rtc : BitVec 48) (s : State) : Host.Outcome State Fault Refusal :=
  .next (if !s.flag R.CRU_RPLL_STAT_LOCK then s
    else
      let s := ((s.set R.CRU_RPLL_STAT_LOCK 0).incSat R.CRU_RPLL_STAT_UNLOCKS).tbLatch rtc.toNat
      { s with cru := { s.cru with unlockTb := s.tb, exT1 := none, exRsp := none } })

/-- RPLL relocks (R497, R505): TBASE carried, the time unlocked recorded, FREE on a die that is not the reference. -/
def execRpllRelock (rtc : BitVec 48) (s : State) : Host.Outcome State Fault Refusal :=
  .next (if s.flag R.CRU_RPLL_STAT_LOCK || !s.domOn 0 then s
    else
      let s := (s.set R.CRU_RPLL_STAT_LOCK 1).tbCarry rtc.toNat
      (s.fault { cls := 8, cause := 3, d0 := s.tb - s.cru.unlockTb }).tbFree)

/-! ## Setting and capturing TBASE (R510, R511) -/

/-- CRU_TB_SET, live: only on the reference; a value below TBASE is dropped and logged LOCKED. -/
def State.tbSet (s : State) (m : Master) (v : Nat) : State :=
  if !s.tbRef then s
  else if v < s.tb then s.errComp m .locked 0x200108
  else s.set R.CRU_TB_NOW_TBASE v

/-- The high-word write of CRU_TB_SET (R510). -/
def execTbSet (m : Master) (tbase : DWord) (s : State) : Host.Outcome State Fault Refusal :=
  .next (s.ownerWrite m 0x20010C tbase.toNat true fun s => s.tbSet m tbase.toNat)

/-- An edge at pin function TB_CAPk, k = 0 or 1 (R511, R515): captured when enabled and of the selected edge. -/
def execTbCapture (k : Fin 2) (falling : Bool) (s : State) : Host.Outcome State Fault Refusal :=
  .next (if bitB (s.get R.CRU_TB_CAPCTL_EN) k && s.tbCapPlaced k && bitB (s.get R.CRU_TB_CAPCTL_EDGE) k == falling then
      let s := if bitB (s.get R.CRU_TB_CAPCTL_NEW) k then
        s.set R.CRU_TB_CAPCTL_OVR (putBit (s.get R.CRU_TB_CAPCTL_OVR) k true) else s
      (s.set R.CRU_TB_CAP_TBASE s.tb k).set R.CRU_TB_CAPCTL_NEW (putBit (s.get R.CRU_TB_CAPCTL_NEW) k true)
    else s)

/-! ## The locking exchange (R506 to R508) -/

/-- The port toward the upstream die (R506). -/
def State.upPort (s : State) : Nat := s.portTo 0

/-- The link of a port leaves ACTIVE and QUARANTINE: HOLDOVER where it leads to the upstream die (R508). -/
def State.tbLost (s : State) (p : Nat) : State := if s.tbRef || s.upPort ≠ p then s else s.tbState 4

/-- A roll call gives the die another upstream die than before (R506, R508): FREE. A die that was its own reference loses LOCK. -/
def State.tbJoin (s old : State) : State :=
  if s.tbRef || s.upPort ≥ 2 then s
  else if old.tbRef || old.upPort ≥ 2 || s.get R.CRU_TB_STAT_UPPORT ≠ s.upPort then
    let t := s.tbFree.set R.CRU_TB_STAT_UPPORT s.upPort
    if old.tbRef then t.set R.CRU_TB_STAT_EVT 1 else t
  else s

/-- A TB_CFG.PER interval has passed (R506, R508): four intervals without a complete exchange, or no route upstream, give
HOLDOVER; then the next exchange starts with REQ. `t1` is its departure stamp in units of 2^-16 count. -/
def execTsyncInterval (t1 : BitVec 80) (s : State) : Host.Outcome State Fault Refusal :=
  .next (if s.tbRef then s
    else
      let missed := s.cru.missed + 1
      let s := { s with cru := { s.cru with missed } }
      if s.upPort ≥ 2 then s.tbState 4
      else
        let s := if missed > 4 then s.tbState 4 else s
        let q := (s.cru.exSeq + 1) % 256
        let s := { s with cru := { s.cru with exSeq := q, exT1 := some t1.toNat, exRsp := none } }
        s.mgmtLocal s.upPort 0x08 [0, q])

/-- This die reports itself locked (R506): the reference, or LOCKED. -/
def State.tbLocked (s : State) : Bool := s.tbRef || s.flag R.CRU_TB_STAT_LOCK

/-- TSYNC REQ arrives on a port (R506): RSP with t2, then FOLLOW with t3. -/
def State.tsyncReq (s : State) (p seq t2 t3 : Nat) : State :=
  (s.mgmtLocal p 0x08 ([1, seq, b2n s.tbLocked] ++ toBytes 5 0 ++ toBytes 10 t2)).mgmtLocal p 0x08 ([2, seq] ++ toBytes 6 0 ++ toBytes 10 t3)

def execTsyncReq (port : Fin 2) (seq : BitVec 8) (t2 t3 : BitVec 80) (s : State) : Host.Outcome State Fault Refusal :=
  .next (s.tsyncReq port seq.toNat t2.toNat t3.toNat)

/-- TSYNC RSP arrives (R506): t4 is its arrival stamp. A sequence not outstanding is ignored. -/
def State.tsyncRsp (s : State) (seq : Nat) (locked : Bool) (t2 t4 : Nat) : State :=
  if s.cru.exT1.isSome && s.cru.exSeq = seq then { s with cru := { s.cru with exRsp := some (t2, t4, locked) } } else s

def execTsyncRsp (seq : BitVec 8) (locked : Bool) (t2 t4 : BitVec 80) (s : State) : Host.Outcome State Fault Refusal :=
  .next (s.tsyncRsp seq.toNat locked t2.toNat t4.toNat)

/-- Offset of a complete exchange in ps (R507), from stamps in 2^-16 counts of 10,000 ps. -/
def tsyncOffset (t1 t2 t3 t4 : Nat) (asym : Int) : Int :=
  ((((t2 : Int) - t1) - ((t4 : Int) - t3)) * 10000 / 65536 - asym) / 2

/-- The rate correction the servo chooses: a free value within ±500 ppm (R507, log entry 1). -/
def State.freeRate (s : State) : State :=
  let (v, s) := s.free 32
  s.set R.CRU_TB_RATE_PPB (unsgn 32 ((v % 1000001 : Nat) - 500000))

/-- Apply a complete exchange's offset (R507, R508): the correction rule, the report, the state. -/
def State.tsyncApply (s : State) (off : Int) (upLocked : Bool) : State :=
  let thr : Int := max 1 (s.get R.CRU_TB_CFG_STEPTHR) * 10000
  let lim : Int := 2 ^ 31 - 1
  let s := s.set R.CRU_TB_OFS_PS (unsgn 32 (max (-lim) (min lim off)))
  let s := if off > thr then s.set R.CRU_TB_NOW_TBASE (s.tb + (off / 10000).toNat)
    else if off < -thr then { s with cru := { s.cru with holdTo := some ((-off) / 10000).toNat } }
    else s.freeRate
  let ok := decide (-1000 ≤ off ∧ off ≤ 1000) && upLocked
  let st := s.get R.CRU_TB_STAT_STATE
  -- exchanges are consecutive within ACQUIRE and LOCKED
  let good := if !ok then 0 else if st = 2 || st = 3 then s.cru.good + 1 else 1
  let s := { s with cru := { s.cru with good, missed := 0, exT1 := none, exRsp := none } }
  if decide (off > 2000 ∨ off < -2000) || !upLocked then s.tbState 2
  else if good ≥ 8 then s.tbState 3
  else if st = 3 then s
  else s.tbState 2

/-- TSYNC FOLLOW arrives (R506, R507): the exchange is complete. -/
def State.tsyncFollow (s : State) (seq t3 : Nat) : State :=
  match s.cru.exT1, s.cru.exRsp with
  | some t1, some (t2, t4, locked) =>
    if s.cru.exSeq ≠ seq || s.tbRef then s
    else s.tsyncApply (tsyncOffset t1 t2 t3 t4 (sgn 16 (s.get R.CRU_TB_ASYM_PS s.upPort))) locked
  | _, _ => s

def execTsyncFollow (seq : BitVec 8) (t3 : BitVec 80) (s : State) : Host.Outcome State Fault Refusal :=
  .next (s.tsyncFollow seq.toNat t3.toNat)

end Sys2Proof.Machine
end

