-- ==== Sys2Proof/Machine/Txn.lean ====
section
/-!
DEFINITION. Configuration transactions (R481 to R486): opening, committing, aborting and rolling back slots.
-/

namespace Sys2Proof.Machine

/-- Raise vector 3 for a slot's end when TXN_CFG.IRQ is set. -/
def State.txnIrq (s : State) : State := s.vectorIf (s.flag R.TXN_CFG_IRQ) 3

/-- End a slot (R485, R486): its entries are discarded, its blocks freed, REASON set, its TXN_EVT bit set. -/
def State.txnEnd (s : State) (n reason : Nat) : State :=
  let s := { s with staged := s.staged.filter (fun e => e.slot != n), txn := Cells.del s.txn n }
  let s := (((s.set R.TXN_S_STAT_STATE 0 n).set R.TXN_S_STAT_REASON reason n).set R.TXN_S_STAT_COUNT 0 n).set
    R.TXN_S_BLK_MASK 0 n
  let s := s.set R.TXN_S_STAT_FAILIDX 0x1FF n
  let s := if reason == 1 then s.set R.TXN_EVT_APPLIED (putBit (s.get R.TXN_EVT_APPLIED) n true)
    else s.set R.TXN_EVT_ROLLED (putBit (s.get R.TXN_EVT_ROLLED) n true)
  s.txnIrq

/-- The CONFIG record of a slot that ended by TIMEOUT or by the expiry of the lease (R486, R644). -/
def State.txnRecord (s : State) (n cause : Nat) : State :=
  s.fault { cls := 9, cause, src := n, d0 := s.get R.TXN_S_BLK_MASK n + s.get R.TXN_S_STAT_COUNT n * 2 ^ 32 }

/-- Roll back every slot not yet applied (R478, R486); at an expiry each writes its record. -/
def State.txnRollAll (s : State) (reason : Nat) (record : Bool) : State :=
  (List.range 4).foldl (fun s n =>
    if s.get R.TXN_S_STAT_STATE n = 0 then s
    else (if record then s.txnRecord n 3 else s).txnEnd n reason) s

/-- The bits a block mask may set (R481). -/
def txnMaskOk : Nat := 0b1_0101_1111_1011_1100

/-- TXN_BEGIN, live (R481, R482). A zero mask does nothing (R494). -/
def State.txnBegin (s : State) (mask : Nat) : State :=
  if mask = 0 then s
  else if mask ||| txnMaskOk != txnMaskOk then s.set R.TXN_STAT_RESULT 3
  else if (List.range 4).any (fun n => s.get R.TXN_S_STAT_STATE n != 0 && s.get R.TXN_S_BLK_MASK n &&& mask != 0)
      || (bitB mask 10 && (s.flag R.DCO_C_STAT_PEND || s.flag R.DCO_C_STAT_PEND 1)) then s.set R.TXN_STAT_RESULT 1
  else match (List.range 4).find? (fun n => s.get R.TXN_S_STAT_STATE n == 0) with
    | none => s.set R.TXN_STAT_RESULT 2
    | some n =>
      let s := ((s.set R.TXN_S_STAT_STATE 1 n).set R.TXN_S_STAT_COUNT 0 n).set R.TXN_S_BLK_MASK mask n
      let s := (s.set R.TXN_STAT_RESULT 0).set R.TXN_STAT_SLOT n
      { s with txn := Cells.put s.txn n { deadline := s.tb + max 1 (s.get R.TXN_CFG_TMO) * msC } }

/-- TXN_COMMIT, live (R484). A commit of a FAILED slot releases it with reason FULL (R483). -/
def State.txnCommit (s : State) (n bound ch : Nat) : State :=
  match s.get R.TXN_S_STAT_STATE n with
  | 1 =>
    if bound ≥ 5 then s.set R.TXN_STAT_RESULT 5
    else
      let x := Cells.get {} s.txn n
      let s := (s.set R.TXN_S_STAT_STATE 2 n).set R.TXN_STAT_RESULT 0
      { s with txn := Cells.put s.txn n { x with bound, ch, at_ := s.get R.TXN_AT_TBASE } }
  | 3 => (s.txnEnd n 6).set R.TXN_STAT_RESULT 0
  | _ => s.set R.TXN_STAT_RESULT 4

/-- TXN_ABORT, live (R486): a slot not yet applying rolls back with ABORTED, a FAILED one with FULL (R483). -/
def State.txnAbort (s : State) (n : Nat) : State :=
  match s.get R.TXN_S_STAT_STATE n with
  | 0 => s.set R.TXN_STAT_RESULT 4
  | 3 => (s.txnEnd n 6).set R.TXN_STAT_RESULT 0
  | _ => (s.txnEnd n 2).set R.TXN_STAT_RESULT 0

/-- TXN_BEGIN: a write by a master. -/
def execTxnBegin (m : Master) (mask : BitVec 17) (s : State) : Host.Outcome State Fault Refusal :=
  .next (s.ownerWrite m 0xF00000 mask.toNat false fun s => s.txnBegin mask.toNat)

/-- TXN_COMMIT with GO = 1. -/
def execTxnCommit (m : Master) (slot : Fin 4) (bound : BitVec 3) (ch : BitVec 2) (s : State) :
    Host.Outcome State Fault Refusal :=
  .next (s.ownerWrite m 0xF00008 (2 ^ 31 + ch.toNat * 256 + bound.toNat * 16 + slot) false fun s =>
    s.txnCommit slot bound.toNat ch.toNat)

/-- TXN_ABORT with GO = 1. -/
def execTxnAbort (m : Master) (slot : Fin 4) (s : State) : Host.Outcome State Fault Refusal :=
  .next (s.ownerWrite m 0xF0000C (2 ^ 31 + slot) false fun s => s.txnAbort slot)

/-- A slot's timeout expires before its apply begins (R486). -/
def execTxnTimeout (slot : Fin 4) (s : State) : Host.Outcome State Fault Refusal :=
  .next (if s.get R.TXN_S_STAT_STATE slot = 0 then s else (s.txnRecord slot 2).txnEnd slot 3)

end Sys2Proof.Machine
end

