-- ==== Sys2Proof/Machine/Own.lean ====
section
/-!
DEFINITION. Ownership (R465 to R480): claims, elections, the lease, handover.
-/

namespace Sys2Proof.Machine

/-- Set a bit of OWN_EVT, and raise vector 2 when OWN_CFG.IRQ is set. -/
def State.ownEvt (s : State) (f : Field) : State := (s.set f 1).vectorIf (s.flag R.OWN_CFG_IRQ) 2

/-- Grant ownership (R473): OWNED, a fresh lease of 100 ms, EPOCH advanced, GAINED. -/
def State.ownGrant (s : State) (m : Nat) : State :=
  let s := ((s.set R.OWN_STAT_STATE 2).set R.OWN_STAT_OWNER m).incWrap R.OWN_STAT_EPOCH
  let s := { s with own := { s.own with leaseEnd := s.tb + 100 * msC, claims := [] } }
  s.ownEvt R.OWN_EVT_GAINED

/-- Open an election window of 1 ms (R472). -/
def State.ownElect (s : State) : State :=
  { s.set R.OWN_STAT_STATE 1 with own := { s.own with claims := [], electEnd := s.tb + msC } }

/-- Ownership is lost (R478): every slot not yet applied rolls back. -/
def State.ownLose (s : State) (reason : Nat) (record : Bool) : State := s.txnRollAll reason record

/-- A claim that landed (R471, R476). -/
def State.ownClaim (s : State) (m : Master) : State :=
  match s.get R.OWN_STAT_STATE with
  | 0 => s.ownGrant m.idx
  | 1 => { s with own := { s.own with claims := m.idx :: s.own.claims } }
  | 3 => if s.get R.OWN_STAT_OFFERTO = m.idx then (s.ownLose 4 false).ownGrant m.idx else s
  | _ => s

/-- A forced claim is admitted from M2 while the debug fuse permits it (R476, R589). -/
def State.forceOk (s : State) (m : Master) : Bool := m == .m2 && s.get R.BOOT_PROF_DBG == 0

/-- A write any master may make (R466), with the checks that still apply (R13, R560). -/
def State.openWrite (s : State) (m : Master) (off : Nat) (live : State → State) : State :=
  let s := s.access m
  if m == .m3 && !m3Reach off then s.errMark m
  else if s.early m off true then s.incSat R.BOOT_EARLY_COUNT
  else if !s.domLive 0 && (domOf off).isSome then (s.incSat R.PWR_DROP_COUNT).errMark m
  else if (domOf off).any (fun d => !s.domLive d) then s.errComp m .domainOff off
  else live s

/-- A claim with a wrong KEY is dropped and logged BADKEY (R471). -/
def claimKey : Nat := 0xC1A1

/-- KEY of OWN_REL (R476). -/
def relKey : Nat := 0x5245

/-- An OWN_CLAIM write whatever its FORCE bit. -/
def State.ownClaimWrite (s : State) (m : Master) (key : Nat) (force : Bool) : State :=
  s.openWrite m 0x204 fun s =>
    if key ≠ claimKey then s.errComp m .badkey 0x204
    else if force && s.forceOk m then
      ((if s.get R.OWN_STAT_STATE ≥ 2 then s.ownLose 4 false else s).ownGrant 2).ownEvt R.OWN_EVT_FORCED
    else s.ownClaim m

def execOwnClaim (m : Master) (key : BitVec 16) (s : State) : Host.Outcome State Fault Refusal :=
  .next (s.ownClaimWrite m key.toNat false)

/-- A claim with FORCE = 1 (R476); one that is not admitted is handled as a claim with FORCE = 0. -/
def execOwnForcedClaim (m : Master) (key : BitVec 16) (s : State) : Host.Outcome State Fault Refusal :=
  .next (s.ownClaimWrite m key.toNat true)

/-- The election window ends (R471, R472): the lowest-numbered claimant is granted, or nobody owns the die. -/
def execElectionWindowEnd (s : State) : Host.Outcome State Fault Refusal :=
  .next (if s.get R.OWN_STAT_STATE ≠ 1 then s
    else match s.own.claims.min? with
      | none => s.set R.OWN_STAT_STATE 0
      | some m => s.ownGrant m)

/-- OWN_HB: a write of 1 renews the lease, and die 0 forwards it to the dies that M1 owns (R474). `m1dies` names them. -/
def State.heartbeat (s : State) (beat : Bool) (m1dies : List Nat) : State :=
  if !beat then s
  else
    let s := { s with own := { s.own with leaseEnd := s.tb + 100 * msC } }
    if s.isDie0 && s.flag R.OWN_CFG_CHAINHB then
      m1dies.foldl (fun s d => if d = 0 then s else s.mgmt d 0x05 (toBytes 4 1) (0x208 + 2 ^ 25)) s
    else s

def execOwnHb (m : Master) (beat : Bool) (m1dies : List Nat) (s : State) : Host.Outcome State Fault Refusal :=
  .next (s.ownerWrite m 0x208 (b2n beat) false fun s => s.heartbeat beat m1dies)

/-- The lease expires (R474, R478). It does not run in S2 and S3. -/
def execLeaseExpiry (s : State) : Host.Outcome State Fault Refusal :=
  .next (if s.get R.OWN_STAT_STATE < 2 || s.get R.PWR_STAT_STATE ≥ 2 then s
    else
      let s := s.fault { cls := 9, cause := 1, src := s.get R.OWN_STAT_OWNER, d0 := s.get R.OWN_STAT_EPOCH }
      ((s.ownLose 4 true).ownElect).ownEvt R.OWN_EVT_EXPIRED)

/-- OWN_REL, live (R476): with OFFER = 0 a release and a new election window, with OFFER = 1 an offer to master `to_` for 100 ms. -/
def State.ownRel (s : State) (m : Master) (key : Nat) (offer : Bool) (to_ : Nat) : State :=
  if key ≠ relKey then s.errComp m .badkey 0x20C
  else if offer then
    let s := (s.set R.OWN_STAT_STATE 3).set R.OWN_STAT_OFFERTO to_
    { s with own := { s.own with offerEnd := s.tb + 100 * msC } }
  else ((s.ownLose 4 false).ownElect).ownEvt R.OWN_EVT_RELEASED

def execOwnRelease (m : Master) (key : BitVec 16) (s : State) : Host.Outcome State Fault Refusal :=
  .next (s.ownerWrite m 0x20C (key.toNat * 2 ^ 16) false fun s => s.ownRel m key.toNat false 0)

def execOwnOffer (m : Master) (key : BitVec 16) (to_ : BitVec 2) (s : State) : Host.Outcome State Fault Refusal :=
  .next (s.ownerWrite m 0x20C (key.toNat * 2 ^ 16 + 16 + to_.toNat) false fun s => s.ownRel m key.toNat true to_.toNat)

/-- An offer lapses (R476). -/
def execOfferLapse (s : State) : Host.Outcome State Fault Refusal :=
  .next (if s.get R.OWN_STAT_STATE = 3 then (s.set R.OWN_STAT_STATE 2).ownEvt R.OWN_EVT_LAPSED else s)

end Sys2Proof.Machine
end

