-- ==== Sys2Proof/Machine/Flash.lean ====
section
/-!
DEFINITION. The boot flash (R551 to R557, R590 to R597, R603, R604): directory, images, board configuration, licence store,
defect supplement, journal, as bytes.
-/

namespace Sys2Proof.Machine

/-- Bytes of the flash from an offset; an unwritten byte is erased. -/
def State.flBytes (s : State) (a n : Nat) : List Nat := bytesAt 0xFF s.flash a n

/-- Little-endian number in the flash. -/
def State.fl (s : State) (a n : Nat) : Nat := ofBytes (s.flBytes a n)

/-- Program bytes: a program can only clear bits, so a byte takes old AND new (JESD251 flash, R551; log entry 16). -/
def State.flProg (s : State) (a : Nat) (bs : List Nat) : State :=
  { s with flash := putBytes 0xFF s.flash a ((bs.zip (s.flBytes a bs.length)).map fun p => p.1 &&& p.2) }

/-- Erase n bytes from an offset. -/
def State.flErase (s : State) (a n : Nat) : State :=
  { s with flash := s.flash.filter fun c => !(a ≤ c.1 && c.1 < a + n) }

/-- One bit step of CRC-32 (IEEE 802.3, reflected). -/
def crcBit : Nat → Nat → Nat
  | 0, c => c
  | n + 1, c => crcBit n (if c % 2 = 1 then (c / 2) ^^^ 0xEDB88320 else c / 2)

/-- CRC-32 of bytes. -/
def crc32 (bs : List Nat) : Nat := bs.foldl (fun c b => crcBit 8 (c ^^^ b)) 0xFFFFFFFF ^^^ 0xFFFFFFFF

/-- A directory copy is good (R552). -/
def State.dirOk (s : State) (a : Nat) : Bool :=
  s.fl a 4 == 0x43444952 && s.fl (a + 8) 4 ≤ 32 && s.fl (a + 0xFFC) 4 == crc32 (s.flBytes a 0xFFC)

/-- The directory copy in use: good, with the higher sequence number (R552). -/
def State.dirBase (s : State) : Option Nat :=
  match s.dirOk 0, s.dirOk 0x1000 with
  | true, true => some (if s.fl 0x1004 4 > s.fl 4 4 then 0x1000 else 0)
  | true, false => some 0
  | false, true => some 0x1000
  | false, false => none

/-- A directory entry: its index in the directory, flash offset, length and flags. -/
structure DirEnt where
  idx : Nat
  off : Nat
  len : Nat
  flags : Nat
  deriving DecidableEq, Repr

/-- The entry of a type. -/
def State.dirEnt (s : State) (ty : Nat) : Option DirEnt :=
  match s.dirBase with
  | none => none
  | some b => (List.range (s.fl (b + 8) 4)).findSome? fun i =>
      let e := b + 0x10 + 32 * i
      if s.fl e 4 = ty then some ⟨i, s.fl (e + 4) 4, s.fl (e + 8) 4, s.fl (e + 12) 4⟩ else none

/-- Update an entry's flags by writing the copy not in use with the next sequence number (R552). -/
def State.dirFlags (s : State) (ty flags : Nat) : State :=
  match s.dirBase, s.dirEnt ty with
  | some b, some e =>
    let n := 0x1000 - b
    let seq := (s.fl (b + 4) 4 + 1) % 2 ^ 32
    let body := s.flBytes b 4 ++ toBytes 4 seq ++ s.flBytes (b + 8) 8
    let p := 0x10 + 32 * e.idx + 12
    let body := body ++ s.flBytes (b + 0x10) (p - 0x10) ++ toBytes 4 flags ++ s.flBytes (b + p + 4) (0xFFC - p - 4)
    (s.flErase n 0x1000).flProg n (body ++ toBytes 4 (crc32 body))
  | _, _ => s

/-- TRIAL and BAD of an entry's flags. -/
def DirEnt.trial (e : DirEnt) : Bool := bitB e.flags 0
def DirEnt.bad (e : DirEnt) : Bool := bitB e.flags 1

/-! ## Images (R603, R604) -/

/-- The image at a flash offset passes its check (R604); the limit is 128 KiB of TCM or 32 KiB of local memory. -/
def State.imageTests (s : State) (a magic limit : Nat) : List Bool :=
  [s.fl a 4 == magic && s.fl (a + 4) 4 == 1 && s.fl (a + 0x34) 4 == 0 && (s.flBytes (a + 0x60) 96).all (· == 0),
    s.boot.env.sigOk.contains a, s.fl (a + 12) 4 ≥ s.get R.BOOT_SVN_FUSED, s.fl (a + 0x2C) 4 + s.fl (a + 0x28) 4 ≤ limit,
    s.fl (a + 0x14) 4 ≤ s.fl (a + 0x10) 4 && s.fl (a + 0x10) 4 ≤ s.fl (a + 0x18) 4]

def State.imageOk (s : State) (a magic limit : Nat) : Bool := (s.imageTests a magic limit).all id

def State.wardenOk (s : State) (a : Nat) : Bool := s.imageOk a 0x57444E31 (128 * 1024)
def State.fumOk (s : State) (a : Nat) : Bool := s.imageOk a 0x46554D31 (32 * 1024)

/-- The first test that a Fumarole image fails. -/
def State.fumFailed (s : State) (a : Nat) : Nat := (s.imageTests a 0x46554D31 (32 * 1024)).idxOf false

/-- Warden and Fumarole images of one die fit each other (R605, first row). -/
def State.pairOk (s : State) (w f : Nat) : Bool :=
  s.fl (f + 0x14) 4 ≤ s.fl (w + 0x10) 4 && s.fl (w + 0x10) 4 ≤ s.fl (f + 0x18) 4 &&
  s.fl (w + 0x14) 4 ≤ s.fl (f + 0x10) 4 && s.fl (f + 0x10) 4 ≤ s.fl (w + 0x18) 4

/-- Digest of an image: header and body. -/
def State.imageDigest (s : State) (a : Nat) : Nat := s.fl a (256 + s.fl (a + 0x28) 4)

/-- The order in which two slots are tried (R557): a trial slot once, then the higher SVN, or the higher version at equal
SVNs, among slots without BAD, then the other. Types `ta` and `ta + 1`. -/
def State.slotOrder (s : State) (ta : Nat) : List Nat :=
  match s.dirEnt ta, s.dirEnt (ta + 1) with
  | some a, some b =>
    let rankB := s.fl (b.off + 12) 4 * 2 ^ 32 + s.fl (b.off + 8) 4 > s.fl (a.off + 12) 4 * 2 ^ 32 + s.fl (a.off + 8) 4
    let pick := (if rankB then [ta + 1, ta] else [ta, ta + 1]).filter fun t => if t = ta then !a.bad else !b.bad
    let tr := [ta, ta + 1].filter fun t => if t = ta then a.trial && !a.bad else b.trial && !b.bad
    tr.take 1 ++ pick.filter fun t => !(tr.take 1).contains t
  | some a, none => if a.bad then [] else [ta]
  | none, some b => if b.bad then [] else [ta + 1]
  | none, none => []

/-! ## Board configuration (R553, R554) -/

/-- The values a die takes from the board configuration, or the ROM defaults. -/
structure Board where
  ok : Bool
  chainwait : Nat
  testconc : Nat
  memtest : Nat
  rate : Nat
  gib : Nat
  ports : Nat × Nat
  asym : Nat × Nat
  pgen : Bool
  settle : Nat
  domReq : Nat
  deriving DecidableEq, Repr

/-- The ROM defaults of R553. -/
def State.romBoard (s : State) : Board :=
  { ok := false, chainwait := 3000, testconc := 4, memtest := 2, rate := 6400, gib := s.boot.env.modeGiB,
    ports := (1 + 2 * b2n (bitB s.boot.env.straps.toNat 3), 1 + 2 * b2n (bitB s.boot.env.straps.toNat 3)),
    asym := (0, 0), pgen := false, settle := 20, domReq := 31 }

/-- This die's UID (R488). -/
def State.uid (s : State) : Nat :=
  s.get R.CHIP_UID_UID + s.get R.CHIP_UID_UID 1 * 2 ^ 32 + s.get R.CHIP_UID_UID 2 * 2 ^ 64 + s.get R.CHIP_UID_UID 3 * 2 ^ 96

/-- The board configuration at a flash offset passes R553 and R554. -/
def State.boardOk (s : State) (a : Nat) : Bool :=
  let nd := s.fl (a + 8) 2
  let n := 0x40 + 64 * nd
  s.fl a 4 == 0x42434647 && s.fl (a + 4) 4 == 1 && 1 ≤ nd && nd ≤ 8 &&
  (if s.boot.keyHash ≠ 0 then s.boot.env.sigOk.contains a else s.fl (a + n) 4 == crc32 (s.flBytes a n))

/-- The die's section: the one with its UID, otherwise the all-zero one. -/
def State.boardSection (s : State) (a : Nat) : Option Nat :=
  let secs := (List.range (s.fl (a + 8) 2)).map fun i => a + 0x40 + 64 * i
  match secs.find? (fun p => s.fl p 16 == s.uid) with
  | some p => some p
  | none => secs.find? (fun p => s.fl p 16 == 0)

/-- The board values in force (R553). -/
def State.board (s : State) : Board :=
  match s.dirEnt 5 with
  | none => s.romBoard
  | some e =>
    match s.boardOk e.off, s.boardSection e.off with
    | true, some p =>
      { ok := true, chainwait := s.fl (e.off + 10) 2, testconc := s.fl (e.off + 12) 1, memtest := s.fl (e.off + 13) 1,
        rate := s.fl (p + 16) 2, gib := s.fl (p + 18) 2, ports := (s.fl (p + 21) 1, s.fl (p + 22) 1),
        asym := (s.fl (p + 24) 2, s.fl (p + 26) 2), pgen := bitB (s.fl (p + 28) 1) 7,
        settle := s.fl (p + 28) 1 % 128, domReq := s.fl (p + 29) 1 % 32 }
    | _, _ => s.romBoard

/-- Digest of a directory region: its bytes. -/
def State.regionDigest (s : State) (ty : Nat) : Nat :=
  match s.dirEnt ty with
  | none => 0
  | some e => s.fl e.off e.len

/-! ## Licences (R590 to R592) -/

/-- Result of the blobs so far: features in force (mask), candidates, BAD, OTHER, LIMIT count, and LICk by feature. -/
structure LicAcc where
  en : Nat := 0
  cand : Nat := 0
  bad : Nat := 0
  other : Nat := 0
  excess : Nat := 0
  lic : List (Nat × (Bool × Nat × Nat)) := []
  fails : List (Nat × Nat) := []
  foreign : List (Nat × Nat) := []
  deriving DecidableEq, Repr

/-- One blob in store order (R592). `keyBad` tells a bad key (3) from a bad signature (4). -/
def State.licBlob (s : State) (off : Nat) (acc : LicAcc) (i : Nat) : LicAcc :=
  let a := off + 512 * i
  let feat := s.fl (a + 8) 4
  if s.fl a 4 ≠ 0x4C494345 || s.fl (a + 4) 4 ≠ 1 || s.fl (a + 12) 4 ≠ 0 || feat < 1 || feat > 4 ||
      !(s.flBytes (a + 0x30) 392).all (· == 0) then { acc with bad := acc.bad + 1 }
  else if s.fl (a + 0x10) 16 ≠ s.uid then
    { acc with other := acc.other + 1, foreign := acc.foreign ++ [(i, s.fl (a + 0x10) 4)] }
  else if bitB acc.en (feat - 1) then acc
  else if acc.cand ≥ 4 then { acc with excess := acc.excess + 1 }
  else if s.boot.env.sigOk.contains a then
    { acc with cand := acc.cand + 1, en := acc.en ||| 1 <<< (feat - 1), lic := Cells.put acc.lic (feat - 1) (true, 1, i) }
  else
    let r := if s.boot.env.keyBad.contains a then 3 else 4
    { acc with cand := acc.cand + 1, lic := Cells.put acc.lic (feat - 1) (false, r, i), fails := acc.fails ++ [(i, r)] }

/-- Blobs in the store before its end mark (R591). -/
def State.licCount (s : State) (e : DirEnt) : Nat :=
  let n := min 32 (e.len / 512)
  match (List.range n).find? (fun i => s.fl (e.off + 512 * i) 4 == 0xFFFFFFFF) with
  | some i => i
  | none => n

/-- The licence store taken in order (R592). -/
def State.licStore (s : State) : LicAcc :=
  match s.dirEnt 6 with
  | none => {}
  | some e => (List.range (s.licCount e)).foldl (s.licBlob e.off) {}

/-! ## The defect supplement (R597, R598) -/

/-- Records in the supplement before its end mark. -/
def State.supCount (s : State) (e : DirEnt) : Nat :=
  match (List.range (e.len / 32)).find? (fun i => s.fl (e.off + 32 * i) 4 == 0xFFFFFFFF) with
  | some i => i
  | none => e.len / 32

/-- A record is of this die and good, of this die and bad, or of another die. -/
def State.supGood (s : State) (a : Nat) : Bool :=
  s.fl a 4 == 0x44535550 && s.fl (a + 4) 16 == s.uid && s.fl (a + 0x1C) 4 == crc32 (s.flBytes a 0x1C)

/-- This die's good records, as (KIND, INDEX, SUB). -/
def State.supRecs (s : State) : List (Nat × Nat × Nat) :=
  match s.dirEnt 7 with
  | none => []
  | some e => (((List.range (s.supCount e)).filter fun i => s.supGood (e.off + 32 * i)).map fun i =>
      let a := e.off + 32 * i
      (s.fl (a + 0x14) 1, s.fl (a + 0x15) 1, s.fl (a + 0x16) 1)).filter fun r => 1 ≤ r.1 && r.1 ≤ 3

/-- Offsets of this die's records that a bad CRC spoils (R597). -/
def State.supBad (s : State) : List Nat :=
  match s.dirEnt 7 with
  | none => []
  | some e => ((List.range (s.supCount e)).filter fun i =>
      let a := e.off + 32 * i
      s.fl a 4 == 0x44535550 && s.fl (a + 4) 16 == s.uid && !s.supGood a).map (32 * ·)

/-- Append a supplement record (R598); a CHAIN die sends it to its broadcaster; with no room FULL and SUP_FULL. -/
def State.supAppend (s : State) (kind index sub cause : Nat) : State :=
  let body := toBytes 4 0x44535550 ++ toBytes 16 s.uid ++ [kind, index, sub, cause] ++ toBytes 4 (s.tb % 2 ^ 32)
  let rec_ := body ++ toBytes 4 (crc32 body)
  let s := if kind = 1 then s.set R.BOOT_DEF_EMBS_MASK (putBit (s.get R.BOOT_DEF_EMBS_MASK) index true) else s
  if bitB s.boot.env.straps.toNat 0 && !bitB s.boot.env.straps.toNat 1 then
    s.mgmtZero 0x0F ([7, 0, 0, 0, 32] ++ toBytes 11 0 ++ rec_)
  else match s.dirEnt 7 with
    | none => s
    | some e =>
      let n := s.supCount e
      if n < e.len / 32 then s.flProg (e.off + 32 * n) rec_
      else (s.set R.BOOT_DEF_STAT_FULL 1).fault { cls := 10, cause := 7, d0 := kind + index * 2 ^ 32, d1 := sub }

/-! ## The journal (R575) -/

/-- Find the slot for the next entry: the first erased one, otherwise the oldest 64 KiB sector is erased for it. -/
def State.jslot (s : State) (e : DirEnt) : State × Nat :=
  let n := e.len / 256
  match (List.range n).find? (fun i => s.fl (e.off + 256 * i) 4 == 0xFFFFFFFF) with
  | some i => (s, e.off + 256 * i)
  | none =>
    let secs := List.range (e.len / 65536)
    let oldest := secs.foldl (fun b i => if s.fl (e.off + 65536 * i + 0x14) 4 < s.fl (e.off + 65536 * b + 0x14) 4 then i else b) 0
    (s.flErase (e.off + 65536 * oldest) 65536, e.off + 65536 * oldest)

/-- Write a journal entry (R575); a CHAIN die sends it to its broadcaster (R567). -/
def State.journal (s : State) (state step entry : Nat) : State :=
  let q := s.boot.jseq + 1
  let s := { s with boot := { s.boot with jseq := q } }
  let steps := (s.boot.hist.take 27).flatMap fun h =>
    toBytes 4 (h.1 + h.2.1 * 2 ^ 8 + min 15 h.2.2.1 * 2 ^ 12 + h.2.2.2 * 2 ^ 16) ++ toBytes 4 0
  let body := toBytes 4 0x4A524E4C ++ toBytes 16 s.uid ++ toBytes 4 q ++ toBytes 4 (state + step * 2 ^ 8 + entry * 2 ^ 16) ++
    toBytes 4 (min 27 s.boot.hist.length) ++ steps
  let body := body ++ List.replicate (0xFC - body.length) 0
  let ent := body ++ toBytes 4 (crc32 body)
  if bitB s.boot.env.straps.toNat 0 && !bitB s.boot.env.straps.toNat 1 then s.mgmtZero 0x0F ([8, 0, 0, 0, 0, 1] ++ toBytes 10 0 ++ ent)
  else match s.dirEnt 8 with
    | none => s.set R.BOOT_STAT_JFAIL 1
    | some e => let p := s.jslot e; p.1.flProg p.2 ent

end Sys2Proof.Machine
end

