-- ==== Sys2Proof/Machine/Sin.lean ====
section
/-!
DEFINITION. The Sinter cache (R179 to R205): placement, policies, replacement, streams, maintenance, ECC; and the store and
load operations that every client of memory on this die uses.
-/

namespace Sys2Proof.Machine

/-! ## Organisation -/

/-- Slice and set of a line address (R179). -/
def sinSlice (a : Nat) : Nat := (bitsOf a 7 4 ^^^ bitsOf a 19 4) ^^^ bitsOf a 23 4
def sinSet (a : Nat) : Nat := bitsOf a 11 8
def lineOf (a : Nat) : Nat := a / 128 * 128

/-- Key of a way of a line's set. -/
def sinKey (line way : Nat) : Nat := sinSlice line * 4096 + sinSet line * 16 + way

/-- Full device physical address of a local address. -/
def State.dpaOf (s : State) (a : Nat) : Nat := s.die * 2 ^ 41 + a

/-- The ways of a line's set that hold a line, with the line. -/
def State.sinWays (s : State) (line : Nat) : List (Nat × SinLine) :=
  (List.range 16).filterMap fun w => (s.sin.lines.lookup (sinKey line w)).map fun l => (w, l)

/-- The way that holds a line. -/
def State.sinFind (s : State) (line : Nat) (host : Bool) : Option (Nat × SinLine) :=
  (s.sinWays line).find? fun p => p.2.line == line && p.2.host == host

def State.sinPut (s : State) (line way : Nat) (l : SinLine) : State :=
  { s with sin := { s.sin with lines := Cells.put s.sin.lines (sinKey line way) l } }

def State.sinDel (s : State) (line way : Nat) : State :=
  { s with sin := { s.sin with lines := Cells.del s.sin.lines (sinKey line way) } }

/-- The slice serves everything uncached (R198). -/
def State.sinByp (s : State) (line : Nat) : Bool := s.flag R.SIN_WAYDIS_BYP (sinSlice line)

/-- A performance event (R200): every counter that selects it advances. -/
def State.sinEvt (s : State) (e n : Nat) : State :=
  if n = 0 then s
  else
    let sel := [s.get R.SIN_PERF_SEL_SEL0, s.get R.SIN_PERF_SEL_SEL1, s.get R.SIN_PERF_SEL_SEL2, s.get R.SIN_PERF_SEL_SEL3]
    (List.range 4).foldl (fun s j => if sel[j]? == some e then s.set R.SIN_PERF_COUNT (s.get R.SIN_PERF_COUNT j + n) j else s) s

/-! ## Policies -/

/-- The regions and default policy in force. -/
def State.sinPol (s : State) : SinPol :=
  { rgn := (List.range 16).map fun n =>
      (s.flag R.SIN_RGN_ATTR_EN n, s.get R.SIN_RGN_BASE_GRAN n, s.get R.SIN_RGN_LIM_GRAN n, s.get R.SIN_RGN_ATTR_POL n),
    defpol := s.get R.SIN_CTL_DEFPOL }

/-- Policy of a 64 KiB granule (R181): 0 WB, 1 WT, 2 WC, 3 UC. -/
def SinPol.at_ (p : SinPol) (g : Nat) : Nat :=
  match p.rgn.find? fun r => r.1 && r.2.1 ≤ g && g ≤ r.2.2.1 with
  | some r => r.2.2.2
  | none => p.defpol

/-- Policy of a local address. -/
def State.polOf (s : State) (a : Nat) : Nat := s.sinPol.at_ (a % 2 ^ 41 / 2 ^ 16)

/-- The line's policy is changing in the running transition (R184). -/
def State.sinMoving (s : State) (a : Nat) : Bool :=
  match s.sin.trans with
  | some p => p.at_ (a % 2 ^ 41 / 2 ^ 16) != s.polOf a
  | none => false

/-! ## DRAM under the cache -/

/-- Give DRAM's bytes back to a local line whose newer data is lost. -/
def State.sinRevert (s : State) (line : Nat) (under : Option (List Nat)) : State :=
  match under with
  | some bs => { s with mem := putBytes 0 s.mem (line % 2 ^ 41) bs }
  | none => s

/-- The bytes of a local line now. -/
def State.lineBytes (s : State) (line : Nat) : List Nat := bytesAt 0 s.mem (line % 2 ^ 41) 128

/-! ## Poison (R195, R196) -/

/-- The poison entry of a line. -/
def State.poisoned (s : State) (line : Nat) (host : Bool) : Option Nat :=
  (List.range 16).find? fun e =>
    s.flag R.SIN_POISON_VALID e && s.flag R.SIN_POISON_HOST e == host && s.get R.SIN_POISON_LINE e == line / 128

/-- Record a poisoned line; with no free entry POISON_OVF. -/
def State.poison (s : State) (line : Nat) (host : Bool) : State :=
  if (s.poisoned line host).isSome then s
  else match (List.range 16).find? fun e => !s.flag R.SIN_POISON_VALID e with
    | none => s.set R.SIN_STAT_POISON_OVF 1
    | some e => (((s.set R.SIN_POISON_VALID 1 e).setB R.SIN_POISON_HOST host e).set R.SIN_POISON_LINE (line / 128) e)

/-- An access to a poisoned line writes a record (R196). -/
def State.poisonFault (s : State) (line : Nat) (host : Bool) (stream : Nat) : State :=
  s.fault { cls := 3, cause := 2, src := sinSlice line, d0 := line,
            d1 := b2n host + sinSet line * 2 ^ 16 + stream * 2 ^ 32 }

/-! ## Replacement (R187, R188) -/

/-- Insertion age of a fill (R187); an access the table does not list inserts at a free age (log entry 1). -/
def State.insAge (s : State) (cl : SinClient) (k : SinKind) (hint : Nat) (host remote : Bool) : Nat × State :=
  if host then (2, s)
  else if remote then (1, s)
  else match cl, k with
    | .ember, .read => (if hint = 1 then 3 else 1, s)
    | .ember, .write => (1, s)
    | .texture, _ => (1, s)
    | .wellspring, .read => (1, s)
    | .dtu, .read => (1, s)
    | .binner, .write => (2, s)
    | .resolve, .write => (2, s)
    | .cif, .write => (2, s)
    | .dco, .read => (3, s)
    | .die, _ => (1, s)
    | .hif, _ => (2, s)
    | _, _ => s.free 2

/-- Drop a line that leaves the cache: a Dirty one is written back (event 0x07). Returns whether it was Dirty. -/
def State.sinOut (s : State) (way : Nat) (l : SinLine) : State :=
  let s := if l.under.isSome then s.sinEvt 7 1 else s
  s.sinDel l.line way

/-- Put a line into its set (R188); nothing when no way can take it. -/
def State.sinInsert (s : State) (l : SinLine) : State :=
  let copies := l.host || l.remote
  let ways := s.sinWays l.line
  let dis := s.get R.SIN_WAYDIS_DIS (sinSlice l.line)
  let rmt := min 16 (s.get R.SIN_CTL_RMT_WAYS)
  let nCopies := (ways.filter fun p => p.2.host || p.2.remote).length
  let enabled := (List.range 16).filter fun w => !bitB dis w
  let cands := if copies && nCopies ≥ rmt then
      enabled.filter fun w => match ways.lookup w with | some x => x.host || x.remote | none => false
    else enabled
  match cands.find? fun w => (ways.lookup w).isNone with
  | some w => s.sinPut l.line w l
  | none =>
    let m := (cands.map fun w => match ways.lookup w with | some x => x.age | none => 0).foldl max 0
    let aged := ways.map fun p => (p.1, { p.2 with age := min 3 (p.2.age + 3 - m) })
    let s := aged.foldl (fun s p => s.sinPut l.line p.1 p.2) s
    match cands.find? fun w => match aged.lookup w with | some x => x.age == 3 | none => false with
    | none => s
    | some w => match aged.lookup w with
      | none => s
      | some v => ((if v.age == 3 && v.ins3 then s.sinEvt 0x0F 1 else s).sinOut w v).sinPut l.line w l

/-! ## Way windows and trips (R197, R198) -/

def State.winPut (s : State) (k : Nat) (v : Nat × Nat) : State :=
  { s with sin := { s.sin with win := Cells.set (0, 0) s.sin.win k v } }

/-- Count an access to a way; a full window restarts first. -/
def State.winAccess (s : State) (line way : Nat) : State :=
  let k := sinSlice line * 16 + way
  let c := Cells.get (0, 0) s.sin.win k
  s.winPut k (if c.1 ≥ 2 ^ 20 then (1, 0) else (c.1 + 1, c.2))

/-- Clean and drop every line for which `p` holds, and write out the combining buffers for which `q` holds; the number of
lines written back. -/
def State.sinClean (s : State) (p : Nat → SinLine → Bool) (drop : Bool) (q : WcBuf → Bool) : State × Nat :=
  let hit := s.sin.lines.filter fun e => p e.1 e.2
  let n := (hit.filter fun e => e.2.under.isSome).length
  let lines := if drop then s.sin.lines.filter fun e => !p e.1 e.2
    else s.sin.lines.map fun e => if p e.1 e.2 then (e.1, { e.2 with under := none }) else e
  let fills := s.sin.fills.map fun f =>
    if p 0 { line := f.line, host := f.host, remote := f.remote } then { f with under := none, keep := f.keep && !drop } else f
  let nb := (s.sin.wc.filter q).length
  (({ s with sin := { s.sin with lines, fills, wc := s.sin.wc.filter fun b => !q b } }.sinEvt 7 n).sinEvt 0x0B nb, n)

/-- A slice goes to bypass until the next bring-up (R198). -/
def State.sinDegrade (s : State) (sl : Nat) : State :=
  let s := ((s.set R.SIN_WAYDIS_DEG 1 sl).set R.SIN_WAYDIS_BYP 1 sl).set R.SIN_STAT_DEGRADED
    (putBit (s.get R.SIN_STAT_DEGRADED) sl true)
  (s.sinClean (fun k _ => k / 4096 == sl) true (fun b => b.slice == sl)).1

/-- A way trips (R197), or the slice degrades when it would be the third (R198). -/
def State.sinTrip (s : State) (sl way : Nat) : State :=
  if bitB (s.get R.SIN_WAYDIS_DIS sl) way then s
  else if s.get R.SIN_WAYDIS_NDIS sl ≥ 2 then s.sinDegrade sl
  else
    let s := (s.sinClean (fun k _ => k / 4096 == sl && k % 16 == way) true (fun _ => false)).1
    let s := (s.set R.SIN_WAYDIS_DIS (putBit (s.get R.SIN_WAYDIS_DIS sl) way true) sl).set R.SIN_WAYDIS_NDIS
      (s.get R.SIN_WAYDIS_NDIS sl + 1) sl
    let s := s.fault { cls := 3, cause := 1, src := sl, d1 := way * 2 ^ 8 + 0xFF * 2 ^ 32 }
    s.supAppend 2 sl way 3

/-- SIN_ECC_CNT and SIN_ECC_LOG take an error (R195, R203). -/
def State.eccLog (s : State) (unc tag : Bool) (line way sector : Nat) : State :=
  let s := s.incSat (if unc then R.SIN_ECC_CNT_UNC else R.SIN_ECC_CNT_CORR)
  let s := s.sinEvt (if unc then 0x0D else 0x0C) 1
  if !unc && s.flag R.SIN_ECC_LOG_VALID && s.flag R.SIN_ECC_LOG_UNC then s
  else
    let s := ((s.set R.SIN_ECC_LOG_VALID 1).setB R.SIN_ECC_LOG_UNC unc).setB R.SIN_ECC_LOG_TAG tag
    let s := (s.set R.SIN_ECC_LOG_SLICE (sinSlice line)).set R.SIN_ECC_LOG_SET (sinSet line)
    (s.set R.SIN_ECC_LOG_WAY way).set R.SIN_ECC_LOG_SECTOR sector

/-- The record of an uncorrected error (R195, R644). -/
def State.uncFault (s : State) (l : SinLine) (way sector stream : Nat) : State :=
  s.fault {
    cls := 3, cause := 1, src := sinSlice l.line, d0 := l.line,
    d1 := b2n l.host + 2 * b2n l.under.isSome + way * 2 ^ 8 + sinSet l.line * 2 ^ 16 + sector * 2 ^ 24 + stream * 2 ^ 32 }

/-- An ECC outcome on a line found in a way (R195, R197). -/
def State.sinEcc (s : State) (way : Nat) (l : SinLine) (e : SinEcc) (sector stream : Nat) : State :=
  let k := sinSlice l.line * 16 + way
  let corr := fun (s : State) =>
    let c := Cells.get (0, 0) s.sin.win k
    let s := s.winPut k (c.1, c.2 + 1)
    if c.2 + 1 ≥ 4 then s.sinTrip (sinSlice l.line) way else s
  match e with
  | .none_ => s
  | .corr => corr (s.eccLog false false l.line way sector)
  | .tagCorr => corr (s.eccLog false true l.line way sector)
  | .unc =>
    let s := (s.eccLog true false l.line way sector).sinDel l.line way
    let s := if l.under.isSome then (s.sinRevert l.line l.under).poison l.line l.host else s
    (s.uncFault l way sector stream).sinTrip (sinSlice l.line) way
  | .tagUnc =>
    let s := ((s.eccLog true true l.line way sector).sinDel l.line way).sinRevert l.line l.under
    ((s.set R.SIN_STAT_TAGLOST 1).uncFault l way sector stream).sinTrip (sinSlice l.line) way

/-! ## Combining buffers (R183) -/

/-- Merge a store into a line's combining buffer; a ninth line of the slice writes out the least recent. `old` is the line
as it was. -/
def State.wcStore (s : State) (line off n : Nat) (old : List Nat) : State :=
  let sl := sinSlice line
  let bits := (2 ^ n - 1) <<< off
  let mine := s.sin.wc.find? fun b => b.line == line
  let b : WcBuf := match mine with
    | some b => { b with mask := b.mask ||| bits }
    | none => { slice := sl, line, mask := bits, under := old }
  let rest := s.sin.wc.filter fun b => b.line != line
  let full := mine.isNone && (rest.filter fun b => b.slice == sl).length ≥ 8
  let rest := if full then rest.eraseIdx ((rest.findIdx? fun b => b.slice == sl).getD 0) else rest
  let s := if full then s.sinEvt 0x0B 1 else s
  if b.mask = 2 ^ 128 - 1 then ({ s with sin := { s.sin with wc := rest } }).sinEvt 0x0B 1
  else { s with sin := { s.sin with wc := rest ++ [b] } }

/-! ## Stream trackers (R189 to R191) -/

/-- Advance a tracker past the accepted lines contiguous with its expected line. -/
def SinTrk.advance : Nat → SinTrk → SinTrk
  | 0, t => t
  | n + 1, t =>
    if t.acc.contains t.exp then
      let win := if t.exp % 4096 = 0 then 1 else t.win + 1
      ({ t with
        exp := t.exp + 128, acc := t.acc.filter (· != t.exp), run := t.run + 1, win,
        stream := t.stream || win ≥ 8 } : SinTrk).advance n
    else t

def State.setStreams (s : State) : State := s.set R.SIN_STAT_STREAMS (s.sin.trk.filter (·.stream)).length

/-- A full-line store to a WB or WT line of this die: whether a stream accepted it. -/
def State.trkFull (s : State) (line : Nat) : State × Bool :=
  if !s.flag R.SIN_CTL_STRM_EN then (s, false)
  else match s.sin.trk.findIdx? fun t => t.exp ≤ line && line ≤ t.exp + 384 with
    | some i =>
      match s.sin.trk[i]? with
      | none => (s, false)
      | some t =>
        let t' := { t with acc := line :: t.acc }.advance 4
        let s := if !t.stream && t'.stream then s.sinEvt 8 1 else s
        ({ s with sin := { s.sin with trk := s.sin.trk.eraseIdx i ++ [t'] } }.setStreams, t.stream)
    | none =>
      let rest := if s.sin.trk.length ≥ 16 then s.sin.trk.drop 1 else s.sin.trk
      ({ s with sin := { s.sin with trk := rest ++ [({ exp := line + 128 } : SinTrk)] } }.setStreams, false)

/-- A partial store ends the run of a tracker whose range holds its line (R191). -/
def State.trkPartial (s : State) (line : Nat) : State :=
  if s.sin.trk.any (fun t => t.exp ≤ line && line ≤ t.exp + 384) then
    { s with sin := { s.sin with trk := s.sin.trk.filter fun t => !(t.exp ≤ line && line ≤ t.exp + 384) } }.setStreams
  else s

/-! ## One request to a line -/

/-- A store of bytes within one line homed here (R182, R184, R190). -/
def State.sinStoreLine (s : State) (cl : SinClient) (a : Nat) (bs : List Nat) : State :=
  let line := s.dpaOf (lineOf a)
  let full := bs.length == 128
  let old := s.lineBytes line
  let put := fun (s : State) => { s with mem := putBytes 0 s.mem a bs }
  let s := s.sinEvt 2 1
  let poison := s.poisoned line false
  let s := match poison with
    | some e => if full then s.set R.SIN_POISON_VALID 0 e else s.poisonFault line false 0xFF
    | none => s
  if poison.isSome && !full then s
  else if s.sinByp line then put (s.sinEvt 0x0E 1)
  else match s.polOf a with
    | 2 => put (s.wcStore line (a % 128) bs.length old)
    | 3 => put s
    | pol =>
      let (s, strm) := if full then s.trkFull line else (s.trkPartial line, false)
      let s' := put s
      match s.sinFind line false with
      | some (w, l) =>
        let s' := (s'.sinEvt 3 1).winAccess line w
        let through := pol == 1 || s.sinMoving a
        let under := match l.under with
          | some u => if through then some (u.take (a % 128) ++ bs ++ u.drop (a % 128 + bs.length)) else some u
          | none => if through then none else some old
        s'.sinPut line w { l with age := 0, under }
      | none =>
        let s' := s'.sinEvt 4 1
        if strm then s'.sinEvt 9 1
        else if pol = 1 then s'
        else
          match s.sin.fills.find? fun f => f.line == line && !f.host with
          | some f =>
            { s' with sin := { s'.sin with fills := s'.sin.fills.map fun g =>
              if g.line == line && !g.host then { g with under := some (f.under.getD old) } else g } }
          | none =>
            let (age, s') := s'.insAge cl .write 0 false false
            s'.sinInsert { line, age, ins3 := age == 3, under := some old }

/-- A store to a copy of a line homed elsewhere, or of host memory: the copy, if one is present, takes the bytes (R164). -/
def State.sinStoreCopy (s : State) (a : Nat) (host : Bool) (bs : List Nat) : State :=
  let line := lineOf a
  match s.sinFind line host with
  | none => s.sinEvt 4 1
  | some (w, l) =>
    let o := a % 128
    (s.sinEvt 3 1).sinPut line w { l with age := 0, data := l.data.take o ++ bs ++ l.data.drop (o + bs.length) }

/-- Store bytes at a place by a client: local lines under their policy; lines homed elsewhere update a copy and are written
through (R164, R182); one for a die that is asleep is held (R519). A store to no place writes a record (R23); one whose place
does not answer changes nothing. -/
def State.sinStore (s : State) (cl : SinClient) (l : Loc) (bs : List Nat) : State :=
  let held := match l with | .remote _ => s.locStatus l == .domainAsleep | _ => false
  if s.locStatus l ≠ .ok && !held then (match l with | .bad a => s.badAddr a 0xFF | _ => s)
  else match l with
  | .loc a => (linePieces bs.length a bs).foldl (fun s p => s.sinStoreLine cl p.1 p.2) s
  | .remote dpa => ((linePieces bs.length dpa bs).foldl (fun s p => s.sinStoreCopy p.1 false p.2) s).storeAt l bs
  | .host a => ((linePieces bs.length a bs).foldl (fun s p => s.sinStoreCopy p.1 true p.2) s).storeAt l bs
  | .bad _ => s

/-- A fill is requested for a line, unless one is on its way or nothing is allocated (R182, R185). -/
def State.sinAsk (s : State) (cl : SinClient) (line : Nat) (host remote : Bool) (hint : Nat) : State :=
  if s.sin.fills.any fun f => f.line == line && f.host == host && f.keep then s
  else if (host || remote) && (s.get R.SIN_CTL_RMT_WAYS = 0 || (host && !s.flag R.SIN_CTL_HOSTC)) then s
  else
    let (age, s) := s.insAge cl .read hint host remote
    { s with sin := { s.sin with fills := s.sin.fills ++ [{ line, host, remote, age }] } }

/-- A hit's effect on the age (R187). -/
def State.sinHit (s : State) (cl : SinClient) (hint w : Nat) (l : SinLine) : State :=
  let s := (s.sinEvt 3 1).winAccess l.line w
  let s := if l.host then s.sinEvt 6 1 else if l.remote then s.sinEvt 5 1 else s
  if cl == .dco || hint = 1 then s else s.sinPut l.line w { l with age := 0 }

/-- A read of one line by a client: the copy's bytes on a hit of a copy. A miss asks for a fill where the policy allocates.
`now`: the fill returns within this step. -/
def State.sinReadLine (s : State) (cl : SinClient) (line : Nat) (host remote : Bool) (hint : Nat) (now : Bool) :
    State × Option (List Nat) :=
  let s := s.sinEvt 2 1
  if s.sinByp line then (s.sinEvt 0x0E 1, none)
  else if !host && !remote && s.polOf line ≥ 2 then (s, none)
  else match s.sinFind line host with
    | some (w, l) => (s.sinHit cl hint w l, if host || remote then some l.data else none)
    | none =>
      let s := s.sinEvt 4 1
      if host || remote || !now then (s.sinAsk cl line host remote hint, none)
      else
        let (age, s) := s.insAge cl .read hint false false
        (s.sinInsert { line, age, ins3 := age == 3 }, none)

/-- The lines that n bytes at an address touch. -/
def lineSpan (a n : Nat) : List Nat := if n = 0 then [] else (List.range ((a % 128 + n + 127) / 128)).map fun i => lineOf a + 128 * i

/-- Read bytes at a place: the state after, the bytes, and the status. Lines homed elsewhere give a copy's bytes, otherwise
what the command brought as `ext`. A poisoned line, a place that does not exist and an unreachable die give ones (R23, R177,
R196). -/
def State.sinLoad (s : State) (cl : SinClient) (l : Loc) (n hint : Nat) (ext : List Nat) (stream : Nat := 0xFF) :
    State × List Nat × Status :=
  let ones := List.replicate n 255
  match s.locStatus l with
  | .ok => match l with
    | .loc a =>
      let lines := lineSpan (s.dpaOf a) n
      let s := lines.foldl (fun s x => (s.sinReadLine cl x false false hint true).1) s
      match lines.find? fun x => (s.poisoned x false).isSome with
      | some x => (s.poisonFault x false stream, ones, .error)
      | none => (s, bytesAt 0 s.mem a n, .ok)
    | .remote a | .host a =>
      let host := match l with | .host _ => true | _ => false
      let r := (lineSpan a n).foldl (fun (r : State × List Nat × Bool) x =>
        let q := r.1.sinReadLine cl x host (!host) hint false
        (q.1, r.2.1 ++ q.2.getD [], r.2.2 && q.2.isSome)) (s, [], true)
      (r.1, if r.2.2 then (r.2.1.drop (a % 128)).take n else (ext ++ List.replicate n 0).take n, .ok)
    | .bad _ => (s, ones, .error)
  | .error => (match l with
    | .bad a => s.badAddr a stream
    | _ => s, ones, .error)
  | .unreachable =>
    (s.fault { cls := 3, cause := 4, d0 := (match l with | .remote d => d | _ => 0), d1 := stream * 2 ^ 32 }, ones, .unreachable)
  | st => (s, ones, st)

/-! ## Acquires, links, maintenance, resets -/

/-- Make every copy for which `p` holds invalid; fills on their way are not kept (R166, R186). -/
def State.sinInval (s : State) (p : Nat → Bool → Bool) : State × Nat :=
  let hit := s.sin.lines.filter fun e => (e.2.host || e.2.remote) && p e.2.line e.2.host
  let lines := s.sin.lines.filter fun e => !((e.2.host || e.2.remote) && p e.2.line e.2.host)
  let fills := s.sin.fills.map fun f => if (f.host || f.remote) && p f.line f.host then { f with keep := false } else f
  ({ s with sin := { s.sin with lines, fills } }, hit.length)

/-- An acquire at device scope, or at system scope with `sys` (R166). -/
def State.sinAcquire (s : State) (sys : Bool) : State :=
  let (s, n) := s.sinInval fun _ host => sys || !host
  s.sinEvt 0x0A n

/-- The dies in `lost` are beyond a link that went down or into quarantine (R186). -/
def State.sinLinkLost (s : State) (lost : Nat → Bool) : State :=
  (s.sinInval fun line host => !host && lost (bitsOf line 41 3)).1

/-- Discard: lines leave without write-back, buffers clear unwritten; DRAM's older bytes stand again (R192). -/
def State.sinDiscard (s : State) (p : SinLine → Bool) : State :=
  let hit := s.sin.lines.filter fun e => p e.2
  let s := hit.foldl (fun s e => s.sinRevert e.2.line e.2.under) s
  let s := s.sin.wc.foldl (fun s b => if p { line := b.line } then s.sinRevert b.line (some b.under) else s) s
  let s := s.sin.fills.foldl (fun s f => if p { line := f.line, host := f.host, remote := f.remote } then s.sinRevert f.line f.under else s) s
  let fills := s.sin.fills.map fun f =>
    if p { line := f.line, host := f.host, remote := f.remote } then { f with under := none, keep := false } else f
  { s with sin := { s.sin with
    lines := s.sin.lines.filter (fun e => !p e.2), fills, wc := s.sin.wc.filter fun b => !p { line := b.line } } }

/-- Every Dirty line and buffer is written back and every line made invalid (R194): S2, S3, WARM, CHN, ENG of Sinter. -/
def State.sinPurge (s : State) : State :=
  let s := (s.sinClean (fun _ _ => true) true (fun _ => true)).1
  { s with sin := {} }

/-- A WDT reset discards Dirty lines (R194). -/
def State.sinLose (s : State) : State := { s.sinDiscard (fun _ => true) with sin := {} }

/-- SIN_WAYDIS from the defect map and supplement (R199). -/
def State.sinWayInit (s : State) : State :=
  (List.range 16).foldl (fun s sl =>
    let d := s.get R.BOOT_DEF_WAY_FUSED sl ||| s.get R.BOOT_DEF_WAY_SUP sl
    let n := popc 16 d
    let s := (s.set R.SIN_WAYDIS_DIS d sl).set R.SIN_WAYDIS_NDIS (min 2 n) sl
    let b := decide (n > 2)
    ((s.setB R.SIN_WAYDIS_DEG b sl).setB R.SIN_WAYDIS_BYP b sl).set R.SIN_STAT_DEGRADED
      (putBit (s.get R.SIN_STAT_DEGRADED) sl b)) s

/-! ## What the other units use -/

/-- Store by a control unit whose writes carry Wellspring's client (SYN records, rings, mirrors). -/
def State.memPut (s : State) (l : Loc) (bs : List Nat) : State := s.sinStore .wellspring l bs

/-- Write a little-endian number to local memory through the Sinter. -/
def State.memWr (s : State) (a n v : Nat) : State := s.memPut (.loc a) (toBytes n v)

end Sys2Proof.Machine
end

