-- ==== Sys2Proof/Machine/Syn.lean ====
section
/-!
DEFINITION. Handles, object tables, sync objects, waits and signals, and the SYN commands (R249 to R284).
-/

namespace Sys2Proof.Machine

/-! ## Handles and records -/

def hDie (h : Nat) : Nat := bitsOf h 29 3
def hGen (h : Nat) : Nat := bitsOf h 24 5
def hIdx (h : Nat) : Nat := bitsOf h 0 24

/-- Record size of table t (R252). -/
def recSize (t : Nat) : Nat := match t with | 0 => 64 | 1 => 128 | 2 => 64 | _ => 32

/-- Largest LOG2N of table t (R282). -/
def maxLog2n (t : Nat) : Nat := match t with | 0 => 24 | 1 => 16 | _ => 20

/-- Records of table t. -/
def State.tblSize (s : State) (t : Nat) : Nat := 2 ^ min (s.get R.SYN_TBL_CFG_LOG2N t) (maxLog2n t)

/-- Place of record i of table t (R252). -/
def State.recLoc (s : State) (t i : Nat) : Loc := s.dpaLoc (s.get R.SYN_TBL_BASE_ADDR t * 2 ^ 12 + i * recSize t)

/-- n bytes of a record at an offset, as a number; a record outside this die's DRAM reads as zero. -/
def State.recNat (s : State) (t i off n : Nat) : Nat :=
  match s.recLoc t i with
  | .loc a => s.memNat (a + off) n
  | _ => 0

/-- Write n bytes of a record. -/
def State.recSet (s : State) (t i off n v : Nat) : State :=
  match s.recLoc t i with
  | .loc a => s.memWr (a + off) n v
  | _ => s

/-! ## Sync entries -/

def SyncObj.err (o : SyncObj) : Nat := bitsOf o.w20 0 16
def SyncObj.gen (o : SyncObj) : Nat := bitsOf o.w20 16 5
def SyncObj.valid (o : SyncObj) : Bool := bitB o.w20 21
def SyncObj.pendBit (o : SyncObj) : Bool := bitB o.w20 22
def SyncObj.errcnt (o : SyncObj) : Nat := bitsOf o.w28 16 16
def SyncObj.setErr (o : SyncObj) (e : Nat) : SyncObj := { o with w20 := o.w20 - o.err + e % 2 ^ 16 }
def SyncObj.setErrcnt (o : SyncObj) (n : Nat) : SyncObj := { o with w28 := bitsOf o.w28 0 16 + n % 2 ^ 16 * 2 ^ 16 }
def SyncObj.setPend (o : SyncObj) (b : Bool) : SyncObj := { o with w20 := putBit o.w20 22 b }
def SyncObj.setWatch (o : SyncObj) (d : Nat) (b : Bool) : SyncObj := { o with w24 := putBit o.w24 (24 + d) b }

/-- Codes 0x0001 to 0x7FFF are error codes (R259). -/
def isErr (c : Nat) : Bool := 1 ≤ c && c < 0x8000

/-- The record of object i as DRAM holds it. -/
def State.synRec (s : State) (i : Nat) : SyncObj :=
  { value := s.recNat 0 i 0 8, epoint := s.recNat 0 i 8 8, pmax := s.recNat 0 i 0x10 8, mir := s.recNat 0 i 0x18 8,
    w20 := s.recNat 0 i 0x20 4, w24 := s.recNat 0 i 0x24 4, w28 := s.recNat 0 i 0x28 4 }

/-- Write an entry back to its record. -/
def State.synWb (s : State) (i : Nat) (o : SyncObj) : State :=
  let s := ((s.recSet 0 i 0 8 o.value).recSet 0 i 8 8 o.epoint).recSet 0 i 0x10 8 o.pmax
  ((s.recSet 0 i 0x20 4 o.w20).recSet 0 i 0x24 4 o.w24).recSet 0 i 0x28 4 o.w28

/-- Object i as its next use sees it: the resident entry, otherwise the record. -/
def State.synObj (s : State) (i : Nat) : SyncObj := (s.syn.res.lookup i).getD (s.synRec i)

/-- Evict one entry when all 4,096 are taken (R272); which one is a free value (log entry 1). -/
def State.synEvict (s : State) : State :=
  if s.syn.res.length < 4096 then s
  else
    let (v, s) := s.free 12
    match s.syn.res[v % s.syn.res.length]? with
    | none => s
    | some (i, o) => { s with syn := { s.syn with res := Cells.del s.syn.res i } }.synWb i o

/-- Put an entry back after a use, resident from then on. -/
def State.synPut (s : State) (i : Nat) (o : SyncObj) : State :=
  let s := if (s.syn.res.lookup i).isSome then s else s.synEvict
  { s with syn := { s.syn with res := Cells.put s.syn.res i o } }

/-- Write every resident entry back (R272); `drop`: they also leave. -/
def State.synFlush (s : State) (drop : Bool) : State :=
  let s := s.syn.res.foldl (fun s e => s.synWb e.1 e.2) s
  if drop then { s with syn := { s.syn with res := [] } } else s

/-! ## The checks of R250 -/

/-- The home die is on the chain and reachable. -/
def State.dieReach (s : State) (d : Nat) : Bool := d == s.die || s.memReach d

/-- GEN and validity of record i of table t. -/
def State.recLive (s : State) (t i : Nat) : Bool × Nat :=
  match t with
  | 0 => ((s.synObj i).valid, (s.synObj i).gen)
  | 3 => let w := s.recNat 3 i 8 4; (bitB w 21, bitsOf w 16 5)
  | _ => let w := s.recNat t i 0 4; (bitsOf w 0 2 != 0, bitsOf w 16 5)

/-- Outcome of R250's first four checks for a handle of table t: 0 passes, 1 NODIE, 2 INVALID, 3 STALE (the SUB codes of
R644). A handle homed on another reachable die passes here; its home die checks it. -/
def State.objCheck (s : State) (t h : Nat) : Nat :=
  if !s.dieReach (hDie h) then 1
  else if !s.flag R.SYN_CTL_EN then 2
  else if hDie h ≠ s.die then 0
  else if hIdx h ≥ s.tblSize t then 2
  else
    let r := s.recLive t (hIdx h)
    if !r.1 then 2 else if r.2 ≠ hGen h then 3 else 0

/-- The RESULT code of SYN_CMD_STAT for an outcome of `objCheck` (R283). -/
def objResult (c : Nat) : Nat := match c with | 1 => 3 | 2 => 1 | 3 => 2 | _ => 0

/-- A use by an import port or the PAD block that fails R250 (R251): dropped, counted in SYN_OBJERR, recorded. -/
def State.objFail (s : State) (cause src h v c : Nat) : State :=
  (s.incSat R.SYN_OBJERR_COUNT).fault { cls := 4, cause, sub := c, src, d0 := h + v % 2 ^ 32 * 2 ^ 32 }

/-! ## Waits -/

/-- How a wait for w completes on an object that satisfies it (R258): ERR as the waiter receives it, and whether it
completes with an error. A bound error above w shows as 0 (log entry 22). -/
def SyncObj.outcome (o : SyncObj) (w : Nat) : Nat × Bool :=
  if isErr o.err then (if o.epoint ≤ w then (o.err, true) else (0, false)) else (o.err, false)

/-- Deliver a satisfied wait: to this die's waiter, or by WAITSAT (R261, R431). -/
def State.synDeliver (s : State) (die id : Nat) (r : Nat × Bool) : State :=
  if die = s.die then { s with syn := { s.syn with sat := Cells.put s.syn.sat id r } }
  else if s.memReach die then
    s.chlOut (s.portTo die) die 0x13 [id, r.1, b2n r.2]
  else s

/-- Release the waits of object i that satisfy `p`, with outcome `f`; WATCH bits of dies without a wait clear. -/
def State.synRelease (s : State) (i : Nat) (p : SynWait → Bool) (f : SynWait → Nat × Bool) : State :=
  let done := s.syn.waits.filter fun x => x.idx == i && p x
  let left := s.syn.waits.filter fun x => !(x.idx == i && p x)
  if done.isEmpty then s
  else
    let o := (List.range 8).foldl (fun o d => o.setWatch d (left.any fun x => x.idx == i && x.die == d)) (s.synObj i)
    let s := { s with syn := { s.syn with waits := left } }.synPut i o
    done.foldl (fun s x => s.synDeliver x.die x.id (f x)) s

/-- A wait for w by a waiter reaches its object's home die (R258, R262). -/
def State.synWaitHere (s : State) (i w die id : Nat) : State :=
  let o := s.synObj i
  if o.value ≥ w then (s.synPut i o).synDeliver die id (o.outcome w)
  else { s with syn := { s.syn with waits := s.syn.waits ++ [SynWait.mk i w die id] } }.synPut i (o.setWatch die true)

/-- A waiter of this die waits (R261): here, or by WAIT to the home die. The handle has passed R250. -/
def State.synWait (s : State) (h w id : Nat) : State :=
  if hDie h = s.die then s.synWaitHere (hIdx h) w s.die id
  else
    { s with syn := { s.syn with remote := s.syn.remote ++ [(h, w, id)] } }.chlOut (s.portTo (hDie h)) (hDie h) 0x12 [h, id, w]

/-- WAITSAT arrives (R431). -/
def State.synSat (s : State) (id err : Nat) (e : Bool) : State :=
  if s.syn.remote.any (fun x => x.2.2 == id) then
    { s with syn := { s.syn with
      remote := s.syn.remote.filter (fun x => x.2.2 != id), sat := Cells.put s.syn.sat id (err, e) } }
  else s

/-- Outcome of this die's wait, if satisfied. -/
def State.satOf (s : State) (id : Nat) : Option (Nat × Bool) := s.syn.sat.lookup id

/-- The waiter takes the outcome of its wait, or gives the wait up. -/
def State.satTake (s : State) (id : Nat) : State :=
  { s with syn := { s.syn with
    sat := Cells.del s.syn.sat id, waits := s.syn.waits.filter (fun x => !(x.die == s.die && x.id == id)),
    remote := s.syn.remote.filter (fun x => x.2.2 != id) } }

/-! ## Signals -/

/-- The mirror writes after a change of VALUE or ERR, and the MSI-X message (R269). -/
def State.synMirror (s : State) (o : SyncObj) : State :=
  if !bitB o.mir 0 then s
  else
    let a := bitsOf o.mir 4 60 * 16
    let l := fun a => if bitB o.mir 1 then Loc.host a else s.dpaLoc a
    let s := s.memPut (l (a + 8)) (toBytes 8 (o.err + o.errcnt * 2 ^ 16 + s.tb % 2 ^ 32 * 2 ^ 32))
    let s := s.memPut (l a) (toBytes 8 o.value)
    if bitB o.w20 23 then s.msix (bitsOf o.w20 24 6) else s

/-- R257: what a signal of value n with code c does to an object. -/
def SyncObj.signal (o : SyncObj) (n c : Nat) : SyncObj :=
  let o := if isErr c then
      (if isErr o.err then o.setErrcnt (min 0xFFFF (o.errcnt + 1)) else { o.setErr c with epoint := n })
    else o
  if n > o.value then (if isErr o.err then { o with value := n } else { o.setErr c with value := n }) else o

/-- Perform a signal on object i of this die in one step (R257), then the mirror (R269) and the waits it satisfies (R258). -/
def State.synApply (s : State) (i n c : Nat) : State :=
  let o := s.synObj i
  let o' := o.signal n c
  let s := s.synPut i o'
  let s := if o'.value ≠ o.value || o'.err ≠ o.err then s.synMirror o' else s
  s.synRelease i (fun x => x.w ≤ o'.value) (fun x => o'.outcome x.w)

/-- Take one matching pending signal off object i; PEND clears when none remain (R262). -/
def State.synUnpend (s : State) (i die v : Nat) : State :=
  match s.syn.pend.findIdx? (fun p => p.idx == i && p.die == die && p.value == v) with
  | none => s
  | some k =>
    let s := { s with syn := { s.syn with pend := s.syn.pend.eraseIdx k } }
    if s.syn.pend.any (fun p => p.idx == i) then s else s.synPut i ((s.synObj i).setPend false)

/-- Make a signal pending at object i of this die (R262): PEND and PMAX go to the record at once. -/
def State.synPendHere (s : State) (i die v : Nat) : State :=
  let o := s.synObj i
  let o := { o.setPend true with pmax := max o.pmax v }
  let s := { s with syn := { s.syn with pend := s.syn.pend ++ [SynPend.mk i die v] } }.synPut i o
  let s := s.recSet 0 i 0x10 8 o.pmax
  s.recSet 0 i 0x20 4 (putBit (s.recNat 0 i 0x20 4) 22 true)

/-- A packet's signal becomes pending at its home die (R262). -/
def State.synPend (s : State) (h v : Nat) : State :=
  if hDie h = s.die then s.synPendHere (hIdx h) s.die v
  else s.chlOut (s.portTo (hDie h)) (hDie h) 0x10 [h, v]

/-- A packet's pending signal is performed (R261, R262). -/
def State.synSignal (s : State) (h v c : Nat) : State :=
  if hDie h = s.die then (s.synUnpend (hIdx h) s.die v).synApply (hIdx h) v c
  else if s.memReach (hDie h) then s.chlOut (s.portTo (hDie h)) (hDie h) 0x11 [h, c, v]
  else s

/-- A signal that no packet made pending: a driver command, an import port, the DCO, the CIF. -/
def State.synPlain (s : State) (h v c : Nat) : State :=
  if hDie h = s.die then s.synApply (hIdx h) v c
  else if s.memReach (hDie h) then s.chlOut (s.portTo (hDie h)) (hDie h) 0x11 [h, c, v]
  else s

/-- The PAD block signals its object (R622): R250 without PERM. -/
def State.synPort (s : State) (h v c : Nat) : State :=
  match s.objCheck 0 h with
  | 0 => s.synPlain h v c
  | e => s.objFail 4 0xFF h v e

/-! ## Driver commands (R283) -/

/-- CLEAR_ERR (R260): ERR, EPOINT and ERRCNT to 0; a change of ERR is mirrored (R269). -/
def State.synClear (s : State) (i : Nat) : State :=
  let o := s.synObj i
  let o' := { (o.setErr 0).setErrcnt 0 with epoint := 0 }
  let s := s.synPut i o'
  if o'.err ≠ o.err then s.synMirror o' else s

/-- DESTROY (R260). -/
def State.synKill (s : State) (i : Nat) : State :=
  let s := s.synRelease i (fun _ => true) (fun _ => (9, true))
  let o := s.synObj i
  let s := { s with syn := { s.syn with pend := s.syn.pend.filter (fun p => p.idx != i), res := Cells.del s.syn.res i } }
  s.synWb i { o.setPend false with w20 := putBit (o.setPend false).w20 21 false }

/-- RESUME (R283): a queue in STATE 2 returns to STATE 1; otherwise NOT_STOPPED. -/
def State.synResume (s : State) (i : Nat) : State × Nat :=
  let w := s.recNat 2 i 0 4
  if bitsOf w 0 2 = 2 then (s.recSet 2 i 0 4 (w - 1), 0) else (s, 4)

/-- Carry out a command on an object of this die: the new state, RESULT, and QUERY's ERRCNT and ERR, VALUE, EPOINT. -/
def State.synCarry (s : State) (op h arg err : Nat) : State × (Nat × Nat × Nat × Nat) :=
  let i := hIdx h
  match op with
  | 1 => (s.synApply i arg err, (0, 0, 0, 0))
  | 2 =>
    let o := s.synObj i
    (s.synPut i o, (0, o.errcnt * 2 ^ 16 + o.err, o.value, o.epoint))
  | 3 => (s.synClear i, (0, 0, 0, 0))
  | 4 => (s.synKill i, (0, 0, 0, 0))
  | 5 => let r := s.synResume i; (r.1, (r.2, 0, 0, 0))
  | _ => (s.synFlush false, (0, 0, 0, 0))

/-- A write of SYN_CMD, live (R283). -/
def State.synCmd (s : State) (op err : Nat) : State :=
  let s := (s.set R.SYN_CMD_OP op).set R.SYN_CMD_ERR err
  if op = 0 then s
  else if s.flag R.SYN_CMD_STAT_BUSY || op ≥ 7 then s.set R.SYN_CMD_STAT_REJ 1
  else
    let h := s.get R.SYN_CMD_H_HANDLE
    let arg := s.get R.SYN_CMD_ARG_VALUE
    let s := s.set R.SYN_CMD_STAT_BUSY 1
    let c := if op = 6 then 0 else s.objCheck (if op = 5 then 2 else 0) h
    if c ≠ 0 then { s with syn := { s.syn with cmd := some (op, some (objResult c, 0, 0, 0)) } }
    else if op = 6 || hDie h = s.die then
      let r := s.synCarry op h arg err
      { r.1 with syn := { r.1.syn with cmd := some (op, some r.2) } }
    else { s with syn := { s.syn with cmd := some (op, none) } }.emit (.synCmd (hDie h) op h arg err)

/-- A write of SYN_CMD by a master with a given OP. -/
def State.synCmdWrite (s : State) (m : Master) (op err : Nat) : State :=
  s.ownerWrite m 0x600050 (err * 2 ^ 16 + op) false fun s => s.synCmd op err

def execSynSignal (m : Master) (err : BitVec 16) (s : State) : Host.Outcome State Fault Refusal :=
  .next (s.synCmdWrite m 1 err.toNat)

def execSynQuery (m : Master) (s : State) : Host.Outcome State Fault Refusal := .next (s.synCmdWrite m 2 0)

def execSynClearErr (m : Master) (s : State) : Host.Outcome State Fault Refusal := .next (s.synCmdWrite m 3 0)

def execSynDestroy (m : Master) (s : State) : Host.Outcome State Fault Refusal := .next (s.synCmdWrite m 4 0)

def execSynResume (m : Master) (s : State) : Host.Outcome State Fault Refusal := .next (s.synCmdWrite m 5 0)

def execSynFlush (m : Master) (s : State) : Host.Outcome State Fault Refusal := .next (s.synCmdWrite m 6 0)

/-- A SYN command completes (R283). For a command another die carried out, `res`, `q`, `value` and `epoint` are what that
die answered (q: ERRCNT and ERR). -/
def execSynCmdDone (res : Fin 5) (q : Word) (value epoint : DWord) (s : State) : Host.Outcome State Fault Refusal :=
  .next (match s.syn.cmd with
    | none => s
    | some (op, here) =>
      let r := here.getD (res.val, q.toNat, value.toNat, epoint.toNat)
      let s := { s with syn := { s.syn with cmd := none } }
      let s := ((s.set R.SYN_CMD_STAT_BUSY 0).set R.SYN_CMD_STAT_RESULT r.1).set R.SYN_CMD_STAT_DONE 1
      let s := if op = 2 && r.1 = 0 then
          ((((s.set R.SYN_RES_ERR_ERR r.2.1).set R.SYN_RES_ERR_ERRCNT (r.2.1 / 2 ^ 16)).set R.SYN_RES_VALUE_VALUE r.2.2.1)).set
            R.SYN_RES_EPOINT_EPOINT r.2.2.2
        else s
      s.vectorIf (s.flag R.SYN_CTL_CIRQ) 4)

/-! ## Import ports (R270) -/

/-- Port k signals its bound object with a value and code 0. -/
def State.synXsig (s : State) (k v : Nat) : State :=
  let h := s.get R.SYN_XSIG_H_HANDLE k
  if hGen h = 0 then s
  else match s.objCheck 0 h with
    | 0 => s.synPlain h v 0
    | e => s.objFail 3 k h v e

/-- The high-word write of SYN_XSIGk_VAL; any master may make it (R466). -/
def execImportPortSignal (m : Master) (k : Fin 8) (value : DWord) (s : State) : Host.Outcome State Fault Refusal :=
  .next (s.openWrite m (0x60010C + 16 * k) fun s => s.synXsig k value.toNat)

/-! ## Lost signallers, recovery (R263, R264) -/

/-- The link to the dies in `lost` is down (R263): their pending signals are performed with LINK_LOST, their waits and WATCH
bits go; this die's waits on their objects complete with LINK_LOST. -/
def State.synLinkLost (s : State) (lost : Nat → Bool) : State :=
  let s := (s.syn.pend.filter fun p => lost p.die).foldl (fun s p => (s.synUnpend p.idx p.die p.value).synApply p.idx p.value 4) s
  let gone := s.syn.waits.filter fun x => lost x.die
  let s := { s with syn := { s.syn with waits := s.syn.waits.filter fun x => !lost x.die } }
  let s := gone.foldl (fun s x => s.synPut x.idx ((s.synObj x.idx).setWatch x.die false)) s
  let mine := s.syn.remote.filter fun x => lost (hDie x.1)
  { s with syn := { s.syn with
    remote := s.syn.remote.filter (fun x => !lost (hDie x.1)),
    sat := mine.foldl (fun l x => Cells.put l x.2.2 (4, true)) s.syn.sat } }

/-- The indices of table t's records that hold a nonzero byte, rising. -/
def State.liveRecs (s : State) (t : Nat) : List Nat :=
  match s.recLoc t 0 with
  | .loc b => (s.mem.filter fun c => b ≤ c.1 && c.1 < b + s.tblSize t * recSize t).foldl
      (fun l c => let i := (c.1 - b) / recSize t; if l.getLast? == some i then l else l ++ [i]) []
  | _ => []

/-- The Warden's scan after a reset (R264). -/
def State.synRecover (s : State) : State :=
  let s := (s.liveRecs 0).foldl (fun s i =>
    let o := s.synRec i
    if !o.pendBit then s
    else
      let free := !isErr o.err
      let s := s.synApply i o.pmax 8
      let o' := (s.synObj i).setPend false
      s.synPut i (if free then { o' with epoint := o.value + 1 } else o')) s
  let s := s.synFlush true
  (s.liveRecs 2).foldl (fun s i => if bitsOf (s.recNat 2 i 0 4) 0 2 = 1 then s.recSet 2 i 0 4 (s.recNat 2 i 0 4 + 1) else s) s

/-- The hardware copies SYN_TBL0–3 into the AO retention area at every write that sets SYN_CTL.EN (R565). -/
def State.synShadow (s : State) : State :=
  { s with boot := { s.boot with synShadow := some (s.regs.filter fun c => 0x600010 * 64 ≤ c.1 && c.1 < 0x600050 * 64) } }

/-- Step RECOVER (R565): the tables from the shadow, then the scan; nothing without a shadow. -/
def State.synRestore (s : State) : State :=
  match s.boot.synShadow with
  | none => s
  | some l =>
    let regs := s.regs.filter fun c => !(0x600010 * 64 ≤ c.1 && c.1 < 0x600050 * 64)
    { s with regs := l.foldl (fun (r : List (Nat × DWord)) (c : Nat × DWord) => Cells.put r c.1 c.2) regs }.synRecover

/-- A reset of R264: all resident entries, waits and work in flight are lost. -/
def State.synDrop (s : State) : State := { s with syn := {} }

end Sys2Proof.Machine
end

