-- ==== Sys2Proof/Machine/Chain.lean ====
section
/-!
DEFINITION. Chain ports as the bring-up uses them (R425, R454, R508): a port's state, its start, and the dies of the chain.
-/

namespace Sys2Proof.Machine

/-- A port enters a state. A link that leaves ACTIVE and QUARANTINE no longer carries the time base (R508). -/
def State.chlState (s : State) (p st : Nat) : State :=
  let was := s.get R.CHLP_STAT_STATE p
  let t := (s.set R.CHLP_STAT_STATE st p).chlUpd p fun x => { x with since := s.tb }
  if (was = 5 || was = 6) && !(st = 5 || st = 6) then t.tbLost p else t

/-- EN goes to 1 on a powered port: DETECT, with nothing held (R425, R448). -/
def State.chlPortOn (s : State) (p : Nat) : State :=
  (s.chlUpd p fun x => { uid := x.uid, asleep := x.asleep, was := x.was, tries := 0 }).chlState p 1

/-- UIDs of the dies that the last roll call reached. -/
def State.chainUids (s : State) : List Nat := s.chl.uids

/-- Route fields by die (R453). -/
def routeFields : List Field := [R.CHL_ROUTE_ROUTE0, R.CHL_ROUTE_ROUTE1, R.CHL_ROUTE_ROUTE2, R.CHL_ROUTE_ROUTE3,
  R.CHL_ROUTE_ROUTE4, R.CHL_ROUTE_ROUTE5, R.CHL_ROUTE_ROUTE6, R.CHL_ROUTE_ROUTE7]

def State.setRoute (s : State) (d v hops : Nat) : State :=
  match routeFields[d]?, hopFields[d]? with
  | some f, some g => (s.set f v).set g hops
  | _, _ => s

/-- The dies whose route leaves by a port. -/
def State.routedBy (s : State) (p d : Nat) : Bool := s.onChain d && d != s.die && s.portTo d == p

end Sys2Proof.Machine
end

