-- ==== Sys2Proof/Machine/Fp.lean ====
section
/-!
DEFINITION. Floating-point values and formats, exactly (R80 to R84, R108, R131, R133): a finite value is a sign, a magnitude
and a power of two, so that every operation is exact until its one rounding.
-/

namespace Sys2Proof.Machine

/-- A floating-point value. A zero keeps its sign. -/
inductive Fv where
  | nan
  | inf (neg : Bool)
  | fin (neg : Bool) (m : Nat) (e : Int)
  deriving DecidableEq, Repr

/-- A format: exponent bits, mantissa bits, and what its largest exponent field means: 0 IEEE 754, 1 E4M3's single NaN,
2 all finite. -/
structure Ffmt where
  eb : Nat
  mb : Nat
  kind : Nat := 0
  deriving DecidableEq, Repr

def f32 : Ffmt := ⟨8, 23, 0⟩
def f16 : Ffmt := ⟨5, 10, 0⟩
def bf16 : Ffmt := ⟨8, 7, 0⟩
def e4m3 : Ffmt := ⟨4, 3, 1⟩
def e5m2 : Ffmt := ⟨5, 2, 0⟩
def e3m2 : Ffmt := ⟨3, 2, 2⟩
def e2m3 : Ffmt := ⟨2, 3, 2⟩
def e2m1 : Ffmt := ⟨2, 1, 2⟩

def Ffmt.bias (f : Ffmt) : Int := 2 ^ (f.eb - 1) - 1
def Ffmt.emin (f : Ffmt) : Int := 1 - f.bias
def Ffmt.width (f : Ffmt) : Nat := 1 + f.eb + f.mb
def signBit (f : Ffmt) (neg : Bool) : Nat := if neg then 2 ^ (f.eb + f.mb) else 0

/-- Largest finite magnitude, as code without sign. -/
def Ffmt.maxCode (f : Ffmt) : Nat :=
  match f.kind with
  | 0 => (2 ^ f.eb - 1) * 2 ^ f.mb - 1
  | 1 => 2 ^ (f.eb + f.mb) - 2
  | _ => 2 ^ (f.eb + f.mb) - 1

/-- Code of infinity (IEEE 754 kinds). -/
def Ffmt.infCode (f : Ffmt) : Nat := (2 ^ f.eb - 1) * 2 ^ f.mb

/-- Canonical quiet NaN (R81, R84, R131); 0x7F for E4M3 and E5M2. -/
def Ffmt.nanCode (f : Ffmt) : Nat :=
  match f.kind with
  | 0 => if f.eb = 5 && f.mb = 2 then 0x7F else (2 ^ f.eb - 1) * 2 ^ f.mb + 2 ^ (f.mb - 1)
  | 1 => 2 ^ (f.eb + f.mb) - 1
  | _ => 0

/-- The value a code stands for. -/
def Ffmt.dec (f : Ffmt) (c : Nat) : Fv :=
  let neg := bitB c (f.eb + f.mb)
  let x := bitsOf c f.mb f.eb
  let m := bitsOf c 0 f.mb
  if f.kind = 0 && x = 2 ^ f.eb - 1 then (if m = 0 then .inf neg else .nan)
  else if f.kind = 1 && x = 2 ^ f.eb - 1 && m = 2 ^ f.mb - 1 then .nan
  else if x = 0 then .fin neg m (f.emin - f.mb)
  else .fin neg (2 ^ f.mb + m) ((x : Int) - f.bias - f.mb)

/-! ## Rounding -/

/-- Multiply a magnitude by a power of two, dropping bits below the unit. -/
def shl (m : Nat) (k : Int) : Nat := if k ≥ 0 then m <<< k.toNat else m >>> (-k).toNat

/-- How a magnitude is rounded to a multiple of 2^q: the four directions of R80, or stochastically against a drawn number
(R133). -/
inductive Rnd where
  | rne | rtz | rdn | rup | sto (r : Nat)
  deriving DecidableEq, Repr

def Rnd.of : Nat → Rnd
  | 0 => .rne | 1 => .rtz | 2 => .rdn | _ => .rup

/-- m × 2^e as a multiple of 2^q, rounded. -/
def roundAt (r : Rnd) (neg : Bool) (m : Nat) (e q : Int) : Nat :=
  if q ≤ e then m <<< (e - q).toNat
  else
    let k := (q - e).toNat
    let t := m >>> k
    let rem := m % 2 ^ k
    let up := match r with
      | .rne => decide (2 * rem > 2 ^ k) || (decide (2 * rem = 2 ^ k) && t % 2 == 1)
      | .rtz => false
      | .rdn => neg && rem != 0
      | .rup => !neg && rem != 0
      | .sto d => decide (rem * 2 ^ 32 / 2 ^ k > d)
    if up then t + 1 else t

/-- Exponent of the unit in the last place at a magnitude. -/
def Ffmt.ulpExp (f : Ffmt) (m : Nat) (e : Int) : Int := max ((Nat.log2 m : Int) + e) f.emin - f.mb

/-- Code of a rounded magnitude m × 2^q that the format can hold; none above its largest finite value. -/
def Ffmt.pack (f : Ffmt) (m : Nat) (q : Int) : Option Nat :=
  if m = 0 then some 0
  else
    let x := (Nat.log2 m : Int) + q
    let c := if x < f.emin then shl m (q - (f.emin - f.mb))
      else ((x + f.bias).toNat) * 2 ^ f.mb + (shl m ((f.mb : Int) - Nat.log2 m) - 2 ^ f.mb)
    if c ≤ f.maxCode then some c else none

/-- Round a finite magnitude to a format; `over` gives the code where it does not fit. -/
def Ffmt.encFin (f : Ffmt) (r : Rnd) (ovf : Bool → Nat) (neg : Bool) (m : Nat) (e : Int) : Nat :=
  signBit f neg ||| (if m = 0 then 0 else
    let q := f.ulpExp m e
    match f.pack (roundAt r neg m e q) q with
    | some c => c
    | none => ovf neg)

/-- Overflow of IEEE 754 arithmetic: infinity, or the largest finite value where the direction leads away from it. -/
def Ffmt.ieeeOver (f : Ffmt) (r : Rnd) (neg : Bool) : Nat :=
  match r with
  | .rtz => f.maxCode
  | .rdn => if neg then f.infCode else f.maxCode
  | .rup => if neg then f.maxCode else f.infCode
  | _ => f.infCode

/-- A value rounded to an IEEE 754 format. -/
def Ffmt.enc (f : Ffmt) (r : Rnd) (v : Fv) : Nat :=
  match v with
  | .nan => f.nanCode
  | .inf n => signBit f n ||| f.infCode
  | .fin n m e => f.encFin r (f.ieeeOver r) n m e

/-- Replace a subnormal code by zero of its sign (R81). -/
def Ffmt.flush (f : Ffmt) (c : Nat) : Nat := if bitsOf c f.mb f.eb = 0 then signBit f (bitB c (f.eb + f.mb)) else c

/-! ## Exact arithmetic -/

def Fv.neg : Fv → Fv
  | .nan => .nan | .inf n => .inf !n | .fin n m e => .fin (!n) m e
def Fv.abs : Fv → Fv
  | .nan => .nan | .inf _ => .inf false | .fin _ m e => .fin false m e
def Fv.isNan : Fv → Bool | .nan => true | _ => false
def Fv.sign : Fv → Bool
  | .nan => false | .inf n => n | .fin n _ _ => n
def Fv.isZero : Fv → Bool | .fin _ 0 _ => true | _ => false

/-- Signed magnitude of a finite value at exponent e, which is no larger than its own. -/
def sMag (n : Bool) (m : Nat) (e0 e : Int) : Int := let x : Int := (m <<< (e0 - e).toNat : Nat); if n then -x else x

/-- A finite value from a signed magnitude; an exact zero takes the sign `z`. -/
def Fv.ofInt (i : Int) (e : Int) (z : Bool := false) : Fv := .fin (if i = 0 then z else i < 0) i.natAbs e

/-- Exact sum; a zero sum of unlike signs is negative only when rounding toward −∞ (IEEE 754). -/
def Fv.add (r : Rnd) (a b : Fv) : Fv :=
  match a, b with
  | .nan, _ | _, .nan => .nan
  | .inf x, .inf y => if x == y then .inf x else .nan
  | .inf x, _ | _, .inf x => .inf x
  | .fin n m e, .fin n' m' e' =>
    let q := min e e'
    Fv.ofInt (sMag n m e q + sMag n' m' e' q) q (if n == n' then n else r == .rdn)

/-- Exact product. -/
def Fv.mul (a b : Fv) : Fv :=
  match a, b with
  | .nan, _ | _, .nan => .nan
  | .inf x, .inf y => .inf (x != y)
  | .inf x, .fin n m _ | .fin n m _, .inf x => if m = 0 then .nan else .inf (x != n)
  | .fin n m e, .fin n' m' e' => .fin (n != n') (m * m') (e + e')

/-- Order of two values: none when unordered; zeros are equal. -/
def Fv.cmp (a b : Fv) : Option Ordering :=
  match a, b with
  | .nan, _ | _, .nan => none
  | .inf x, .inf y => some (if x == y then .eq else if x then .lt else .gt)
  | .inf x, _ => some (if x then .lt else .gt)
  | _, .inf x => some (if x then .gt else .lt)
  | .fin n m e, .fin n' m' e' => let q := min e e'; some (compare (sMag n m e q) (sMag n' m' e' q))

/-- The comparisons of COND 0 to 5. -/
def condOrd (c : Nat) (o : Ordering) : Bool :=
  match c with
  | 0 => o == .eq | 1 => o != .eq | 2 => o == .lt | 3 => o != .gt | 4 => o == .gt | _ => o != .lt

/-- COND of setp.f (R80). -/
def Fv.cond (c : Nat) (a b : Fv) : Bool :=
  match a.cmp b with
  | none => (8 ≤ c && c ≤ 13) || c == 15
  | some o => if c = 14 then true else if c = 15 then false else condOrd (c % 8) o

/-- fmin and fmax (R81): the operand that is not NaN, and −0.0 below +0.0. -/
def Fv.minMax (mx : Bool) (a b : Fv) : Fv :=
  match a.cmp b with
  | none => if a.isNan then b else a
  | some .eq => if a.sign == mx then b else a
  | some o => if (o == .gt) == mx then a else b

/-- Clamp to [0.0, 1.0], NaN giving 0.0 (R80); −0.0 lies inside. -/
def Fv.sat (v : Fv) : Fv :=
  match v with
  | .nan => .fin false 0 0
  | .inf n => if n then .fin false 0 0 else .fin false 1 0
  | .fin n m e => if m = 0 then .fin n 0 0 else if n then .fin false 0 0
    else if (Nat.log2 m : Int) + e ≥ 0 then .fin false 1 0 else v

/-- Round to an integral value (R76 frnd). -/
def Fv.integral (r : Rnd) (v : Fv) : Fv :=
  match v with
  | .fin n m e => if e ≥ 0 then v else .fin n (roundAt r n m e 0) 0
  | _ => v

/-- The integer a value rounds to, clamped to [lo, hi]; NaN gives 0 (R84, R131). -/
def Fv.toInt (r : Rnd) (lo hi : Int) (v : Fv) : Int :=
  match v with
  | .nan => 0
  | .inf n => if n then lo else hi
  | .fin n m e => let x : Int := (roundAt r n m e 0 : Nat); max lo (min hi (if n then -x else x))

/-! ## Quotients and roots, for the units that need them -/

/-- n / d as a magnitude with at least 64 significant bits, its last bit standing for what is cut off. -/
def ratio (n d : Nat) : Nat × Int :=
  if n = 0 then (0, 0)
  else
    let k := 66 + Nat.log2 d - Nat.log2 n
    let x := n <<< k
    (2 * (x / d) + (if x % d = 0 then 0 else 1), -(k : Int) - 1)

/-- Quotient (IEEE 754), ready for one rounding. -/
def Fv.div (a b : Fv) : Fv :=
  match a, b with
  | .nan, _ | _, .nan => .nan
  | .inf _, .inf _ => .nan
  | .inf x, .fin n _ _ => .inf (x != n)
  | .fin n _ _, .inf x => .fin (n != x) 0 0
  | .fin n m e, .fin n' m' e' =>
    if m' = 0 then (if m = 0 then .nan else .inf (n != n'))
    else let (q, k) := ratio m m'; .fin (n != n') q (e - e' + k)

/-- Integer square root, bit by bit from bit k. -/
def isqrtGo : Nat → Nat → Nat → Nat
  | 0, _, r => r
  | k + 1, n, r => let t := r + 2 ^ k; isqrtGo k n (if t * t ≤ n then t else r)

def isqrt (n : Nat) : Nat := isqrtGo (Nat.log2 n / 2 + 1) n 0

/-! ## FP32 arithmetic used by fixed units: one rounding to nearest even each -/

def fromF (c : Nat) : Fv := f32.dec c
def toF (v : Fv) : Nat := f32.enc .rne v
def fAdd (a b : Nat) : Nat := toF ((fromF a).add .rne (fromF b))
def fSub (a b : Nat) : Nat := toF ((fromF a).add .rne (fromF b).neg)
def fMul (a b : Nat) : Nat := toF ((fromF a).mul (fromF b))
def fDiv (a b : Nat) : Nat := toF ((fromF a).div (fromF b))
def fFma (a b c : Nat) : Nat := toF (((fromF a).mul (fromF b)).add .rne (fromF c))
def fLt (a b : Nat) : Bool := (fromF a).cmp (fromF b) == some .lt
def fOfInt (i : Int) : Nat := toF (Fv.ofInt i 0)
/-- Magnitude n / d as FP32. -/
def fRat (neg : Bool) (n d : Nat) : Nat := let (q, k) := ratio n d; toF (.fin neg q k)

end Sys2Proof.Machine
end

