-- ==== Sys2Proof/Machine/Flt.lean ====
section
/-!
DEFINITION. The fault ring (R643 to R649), telemetry (R651), and the watchdog's kicks, stops and first stage (R636 to R642).
-/

namespace Sys2Proof.Machine

/-- The 32 bytes of a fault record (R643). -/
def FaultRec.bytes (r : FaultRec) : List Nat :=
  toBytes 4 (r.cls + r.die * 16 + r.cause * 2 ^ 8 + r.sub * 2 ^ 16 + r.src * 2 ^ 24) ++
  toBytes 4 (r.seq % 2 ^ 16 + r.aux * 2 ^ 16) ++ toBytes 8 r.tb ++ toBytes 8 r.d0 ++ toBytes 8 r.d1

/-- Records in the ring: 2^LOG2SZ, LOG2SZ held between 4 and 16 (R647, R653). -/
def State.fqSize (s : State) : Nat := 2 ^ max 4 (min 16 (s.get R.FQ_CFG_LOG2SZ))

/-- Records written and not consumed. -/
def State.fqUsed (s : State) : Nat := (s.get R.FQ_PROD_PROD + 2 ^ 32 - s.get R.FQ_CONS_CONS) % 2 ^ 32

/-- Place of the slot that PROD names, in the space of FQ_BASE.SPACE (R647). -/
def State.fqSlot (s : State) : Loc :=
  let a := s.get R.FQ_BASE_ADDR * 2 ^ 12 + (s.get R.FQ_PROD_PROD % s.fqSize) * 32
  if s.flag R.FQ_BASE_SPACE then .host a else s.dpaLoc a

/-- Write a record into the ring and advance PROD (R647, R649). -/
def State.fqPut (s : State) (r : FaultRec) : State :=
  ((s.memPut s.fqSlot r.bytes).incWrap R.FQ_PROD_PROD).fltIrq

/-- The summary record of the drops so far (R648), numbered now. -/
def State.fqSummary (s : State) (m : FltSum) : FaultRec :=
  { cls := 15, cause := 1, d0 := m.count % 2 ^ 32 + m.classes % 2 ^ 16 * 2 ^ 32, d1 := m.first + m.last * 2 ^ 16,
    seq := s.get R.FQ_STAT_NEXTSEQ, tb := s.tb, die := s.die }

/-- The writer's next turn (R646 to R648). `ack`: host memory or another die accepts the write. -/
def State.fqTurn (s : State) (ack : Bool) : State :=
  if !s.flag R.FQ_CFG_EN then s
  else if s.fqUsed ≥ s.fqSize then
    match s.flt.staged with
    | [] => s
    | r :: rs => { s with flt := { s.flt with staged := rs } }.fltDrop r
  else if s.locStatus s.fqSlot ≠ .ok || !ack then s
  else match s.flt.sum with
    | some m =>
      let r := s.fqSummary m
      let s := ({ s with flt := { s.flt with sum := none } }.set R.FQ_STAT_SUMPEND 0).incWrap R.FQ_STAT_NEXTSEQ
      (s.telAdd 9 1).fqPut r
    | none => match s.flt.staged with
      | [] => s
      | r :: rs => { s with flt := { s.flt with staged := rs } }.fqPut r

def execFaultRecordWrite (ack : Bool) (s : State) : Host.Outcome State Fault Refusal := .next (s.fqTurn ack)

/-- FQ_CONS, live (R653): a write that would make PROD − CONS exceed the size is dropped with an error completion. -/
def State.fqCons (s : State) (m : Master) (v : Nat) : State :=
  if (s.get R.FQ_PROD_PROD + 2 ^ 32 - v) % 2 ^ 32 > s.fqSize then s.errMark m
  else s.set R.FQ_CONS_CONS v

/-- After FQ_CONS leaves room while a summary is pending, the summary goes into the next slot (R648). -/
def State.fqConsWrite (s : State) (m : Master) (v : Nat) (ack : Bool) : State :=
  let s' := s.fqCons m v
  if s'.flt.sum.isSome && s'.fqUsed < s'.fqSize then s'.fqTurn ack else s'

def execFqConsWrite (m : Master) (cons : Word) (ack : Bool) (s : State) : Host.Outcome State Fault Refusal :=
  .next (s.ownerWrite m 0xE00010 cons.toNat false fun s => s.fqConsWrite m cons.toNat ack)

/-- FQ_CFG, live (R647): EN from 0 to 1 sets PROD and CONS to 0. -/
def State.fqCfg (s : State) (m : Master) (val : Nat) : State :=
  s.lockedWrite m 0xE00008 val R.FQ_CFG 0 0 fun t =>
    if !s.flag R.FQ_CFG_EN && t.flag R.FQ_CFG_EN then (t.set R.FQ_PROD_PROD 0).set R.FQ_CONS_CONS 0 else t

/-- FQ_ENABLE: a write of FQ_CFG with EN = 1. -/
def execFqEnable (m : Master) (ien : Bool) (log2sz : BitVec 5) (s : State) : Host.Outcome State Fault Refusal :=
  let val := 2 ^ 31 + b2n ien * 2 ^ 30 + log2sz.toNat
  .next (s.ownerWrite m 0xE00008 val false fun s => s.fqCfg m val)

/-! ## Telemetry (R651) -/

/-- Latch every counter into the TEL read registers at one tick. -/
def State.telSnap (s : State) : State :=
  let s := (List.range 8).foldl (fun s i => s.set R.TEL_CNT_COUNT (Cells.get 0 s.tel.cnt i) i) s
  (List.range 2).foldl (fun s i => s.set R.TEL_CNT32_COUNT (min (Cells.get 0 s.tel.cnt (8 + i)) (2 ^ 32 - 1)) i) s

def execTelSnap (m : Master) (s : State) : Host.Outcome State Fault Refusal :=
  .next (s.ownerWrite m 0xE00200 1 false State.telSnap)

def execTelClr (m : Master) (s : State) : Host.Outcome State Fault Refusal :=
  .next (s.ownerWrite m 0xE00200 2 false fun s => { s with tel := { s.tel with cnt := [] } })

/-! ## The watchdog -/

/-- Start a stage with its full count (R636, R652: 0 acts as 1). -/
def State.wdtStage (s : State) (st : Nat) : State :=
  let n := max 1 (if st = 2 then s.get R.WDT_S2TMO_N else s.get R.WDT_S1TMO_N)
  { (s.set R.WDT_STAT_STAGE st).set R.WDT_STAT_RUN 1 with wdt := { s.wdt with units := n, cyc := 0 } }

/-- Units left in the stage (WDT_STAT.REMAIN). -/
def State.wdtRemain (s : State) : Nat := if s.flag R.WDT_STAT_RUN then s.wdt.units - s.wdt.cyc / 2 ^ 16 else 0

/-- A kick that lands (R638, R639): a full first stage; in the second stage RECOV is set. -/
def State.wdtKick (s : State) : State :=
  let s := if s.get R.WDT_STAT_STAGE = 2 then s.set R.WDT_STAT_RECOV 1 else s
  let s := s.wdtStage 1
  { s with wdt := { s.wdt with lastKick := s.tb } }

/-- WDT_KICK, live (R638): the KEY, then whether KICKER lets this writer's kick land. -/
def State.wdtKickWrite (s : State) (m : Master) (key : Nat) : State :=
  if key ≠ 0x4B49 then s.errComp m .badkey 0xD0000C
  else if s.flag R.WDT_CTL_KICKER == (m != .warden) then s.wdtKick else s

def execWdtKick (m : Master) (key : BitVec 16) (s : State) : Host.Outcome State Fault Refusal :=
  .next (s.ownerWrite m 0xD0000C (key.toNat * 2 ^ 16) false fun s => s.wdtKickWrite m key.toNat)

/-- Stop the watchdog. -/
def State.wdtHalt (s : State) : State :=
  { (s.set R.WDT_STAT_RUN 0).set R.WDT_STAT_STAGE 0 with wdt := { s.wdt with units := 0, cyc := 0 } }

/-- WDT_STOP, live (R640): a wrong KEY is treated as a kick's is (log entry 12). -/
def State.wdtStopWrite (s : State) (m : Master) (key : Nat) : State :=
  if key ≠ 0x5354 then s.errComp m .badkey 0xD00010
  else if s.flag R.WDT_CTL_LOCK || s.flag R.WDT_STAT_HW then s.errComp m .locked 0xD00010
  else s.wdtHalt

def execWdtStop (m : Master) (key : BitVec 16) (s : State) : Host.Outcome State Fault Refusal :=
  .next (s.ownerWrite m 0xD00010 (key.toNat * 2 ^ 16) false fun s => s.wdtStopWrite m key.toNat)

/-- WDT_CTL, live (R638, R640): a change of KICKER also acts as a kick. -/
def State.wdtCtl (s : State) (m : Master) (val : Nat) : State :=
  s.lockedWrite m 0xD00000 val R.WDT_CTL 0 0 fun t =>
    if s.get R.WDT_CTL_KICKER ≠ t.get R.WDT_CTL_KICKER then t.wdtKick else t

/-- BOOT_STAT.STEP as the records show it: 0xFF when the die is READY (R642, R644). -/
def State.stepOrReady (s : State) : Nat := if s.ready then 0xFF else s.get R.BOOT_STAT_STEP

/-- First stage expires (R639). -/
def State.wdtStage1 (s : State) : State :=
  if s.get R.WDT_STAT_STAGE ≠ 1 then s
  else
    let s := (s.set R.WDT_STAT_S1EVT 1).wdtStage 2
    let s := s.fault { cls := 11, cause := 1, src := s.get R.WDT_CTL_KICKER, d0 := s.wdt.lastKick, d1 := s.stepOrReady }
    (s.vectorIf (s.flag R.WDT_CTL_IEN) 1).emit (.irqWarden 1)

def execWdtStage1Expiry (s : State) : Host.Outcome State Fault Refusal := .next s.wdtStage1

/-- The reset record written at a second-stage expiry (R642). -/
def State.wdtRecord (s : State) : State :=
  let s := ((s.set R.WDT_RTB_TBASE s.tb).set R.WDT_RKICK_TBASE s.wdt.lastKick).set R.WDT_RINFO_VALID 1
  let s := (s.set R.WDT_RINFO_HW (s.get R.WDT_STAT_HW)).set R.WDT_RINFO_KICKER (s.get R.WDT_CTL_KICKER)
  (s.set R.WDT_RINFO_STEP s.stepOrReady).incSat R.WDT_RINFO_COUNT

end Sys2Proof.Machine
end

