-- ==== Sys2Proof/Machine/Dtu.lean ====
section
/-!
DEFINITION. Address translation and page migration (R206 to R248).
-/

namespace Sys2Proof.Machine

/-! ## Translated addresses (R208, R210) -/

/-- Place of a translated address: the device-memory window, or host memory. -/
def State.taLoc (s : State) (ta : Nat) : Loc :=
  let base := s.get R.DTU_DMWIN_BASE_ADDR * 2 ^ 30
  let lim := (s.get R.DTU_DMWIN_LIM_ADDR + 1) * 2 ^ 30
  if s.flag R.DTU_DMWIN_BASE_EN && base ≤ ta && ta < lim && ta < base + 2 ^ 44 then s.dpaLoc (ta - base) else .host ta

/-- Place of an access's outcome; an untranslated one goes to host memory at its VA. -/
def State.vaLoc (s : State) : VaOut → Option Loc
  | .at_ ta => some (s.taLoc ta)
  | .untranslated va _ => some (.host va)
  | .err _ => none

/-! ## ATC and pinned slots -/

def pageOf (va : Nat) : Nat := va / 4096 * 4096

def AtcEnt.has (e : AtcEnt) (pasid va : Nat) : Bool := e.pasid == pasid && e.base ≤ va && va < e.base + 2 ^ e.lg

def AtcEnt.grants (e : AtcEnt) (k : VaKind) : Bool := (!k.needs.1 || e.r) && (!k.needs.2 || e.w)

/-- The pinned slots and the ATC answer an access with the permission it needs (R213, R215). -/
def State.atcHit (s : State) (pasid va : Nat) (k : VaKind) : Option Nat :=
  let es := s.dtu.pins.filterMap (·.ent) ++ s.dtu.atc
  (es.find? fun e => e.has pasid va && e.grants k).map fun e => e.tbase + (va - e.base)

/-- Store an ATC entry; a full ATC evicts an entry not recently used, which one being a free value (R213, log entry 1). -/
def State.atcPut (s : State) (e : AtcEnt) : State :=
  let same := s.dtu.atc.filter fun x => !(x.pasid == e.pasid && x.base == e.base && x.lg == e.lg)
  if same.length < 4096 then { s with dtu := { s.dtu with atc := e :: same } }
  else
    let (v, s) := s.free 12
    { s with dtu := { s.dtu with atc := e :: same.eraseIdx (v % same.length) } }

/-! ## Faults (R223, R229) -/

/-- An unrecoverable fault of a stream. -/
def State.trFault (s : State) (stream page : Nat) (k : VaKind) (cause : Nat) : State :=
  if s.flag R.DTU_SSTAT_UFLT stream then s.incSat R.DTU_UFLT_CNT_COUNT
  else (s.set R.DTU_SSTAT_UFLT 1 stream).fault {
    cls := 2, cause, sub := k.code, src := stream, d0 := page, d1 := (s.dtu.pasid.lookup stream).getD 0 }

/-- Give a waiting access its outcome; prf and pre-translation wait for none and never fault (R216, R219). -/
def State.vaGive (s : State) (page : Nat) (w : VaWho) (o : VaOut) : State :=
  match w.kind with
  | .prf | .pretrans => s
  | k =>
    let s := match o with
      | .err c => s.trFault w.stream page k c
      | _ => s
    { s with dtu := { s.dtu with outc := s.dtu.outc.filter (fun x => x.1 != w.id) ++ [(w.id, o)] } }

/-! ## Misses, handlers, park entries -/

def State.hMax (s : State) : Nat := max 1 (min 8 (s.get R.DTU_CTL_HMAX))
def State.parkMax (s : State) : Nat := max 1 (min 16 (s.get R.DTU_CTL_PARKMAX))
def State.held (s : State) (st : Nat) : Nat := (s.dtu.hnd.filter fun h => h.miss.stream == st).length
def State.parked (s : State) (st : Nat) : Nat := (s.dtu.park.filter fun p => p.stream == st).length

/-- A miss may be granted a handler (R220, R222). -/
def State.mayGrant (s : State) (m : DtuMiss) : Bool :=
  s.held m.stream < s.hMax && (m.retr.isSome || s.parked m.stream < s.parkMax)

/-- Translation goes by proxy (R234), and the proxy cannot be reached (R223). -/
def State.prxDown (s : State) : Bool := s.flag R.DTU_CTL_PROXY && !s.memReach 0

/-- Add an access to the accesses of a miss. -/
def DtuMiss.join (m : DtuMiss) (w : VaWho) : DtuMiss := if m.who.any fun x => x.id == w.id then m else { m with who := m.who ++ [w] }

/-- An access asks with No Write = 1 (R215). -/
def VaWho.nw (w : VaWho) : Bool := w.kind == .fetch || w.kind == .dcoRead

/-- A miss that waits for a handler for the same page and stream as an access, with the same No Write. -/
def DtuMiss.waits (m : DtuMiss) (pasid page : Nat) (w : VaWho) : Bool :=
  m.retr.isNone && m.pasid == pasid && m.page == page && m.stream == w.stream && m.nw == w.nw

/-- Is this page's access of the PASID in a park entry, a handler, or its stream's misses? Join it (R220, R224). -/
def State.vaJoin (s : State) (pasid page : Nat) (w : VaWho) : Option State :=
  if s.dtu.park.any fun p => p.pasid == pasid && p.page == page then
    match w.kind with
    | .prf | .pretrans => some s
    | _ => some { s with dtu := { s.dtu with park := s.dtu.park.map fun p =>
        if p.pasid == pasid && p.page == page && !p.who.any (fun x => x.id == w.id) then
          { p with who := p.who ++ [w], w := p.w || w.kind.needs.2 }
        else p } }
  else if s.dtu.hnd.any fun h => h.miss.pasid == pasid && h.miss.page == page then
    some { s with dtu := { s.dtu with hnd := s.dtu.hnd.map fun h =>
      if h.miss.pasid == pasid && h.miss.page == page then { h with miss := h.miss.join w } else h } }
  else if s.dtu.miss.any fun m => m.waits pasid page w then
    some { s with dtu := { s.dtu with miss := s.dtu.miss.map fun m => if m.waits pasid page w then m.join w else m } }
  else none

/-- Send a miss's Translation Request (R209, R215, R234). -/
def State.hndSend (s : State) (m : DtuMiss) : State :=
  let tag := ((List.range 32).find? fun t => !s.dtu.hnd.any fun h => h.tag == t).getD 0
  let s := { s with dtu := { s.dtu with hnd := s.dtu.hnd ++ [({ tag, miss := m } : DtuHnd)], last := m.stream } }
  if s.flag R.DTU_CTL_PROXY then s.chlOut (s.portTo 0) 0 0x19 [tag, m.pasid, m.page, b2n m.nw]
  else s.emit (.atsReq tag m.pasid m.page m.nw)

/-- Outcomes for an access within a page stand for the page's first byte; the access adds its own offset. -/
def VaOut.plus (o : VaOut) (d : Nat) : VaOut :=
  match o with
  | .at_ ta => .at_ (ta + d)
  | .untranslated va p => .untranslated (va + d) p
  | .err c => .err c

/-- A VA access of a stream (R213, R223): its outcome, taken now; none while it waits. `id` names the access: asking again
with the same id takes the outcome that has come, and adds nothing while none has. -/
def State.vaNow (s : State) (id : List Nat) (stream va : Nat) (k : VaKind) : State × Option VaOut :=
  match s.dtu.outc.lookup id with
  | some o => ({ s with dtu := { s.dtu with outc := s.dtu.outc.filter fun x => x.1 != id } }, some (o.plus (va - pageOf va)))
  | none =>
    let page := pageOf va
    let bad := fun (s : State) (c : Nat) => match k with
      | .prf | .pretrans => (s, some (VaOut.err c))
      | _ => (s.trFault stream page k c, some (VaOut.err c))
    if !s.flag R.DTU_CTL_EN then bad s 1
    else if bitsOf va 57 7 ≠ (if bitB va 56 then 127 else 0) then bad s 2
    else match s.dtu.pasid.lookup stream with
      | none => bad s 3
      | some 0 => bad s 3
      | some pasid => match s.atcHit pasid va k with
        | some ta => (s, some (.at_ ta))
        | none =>
          if s.prxDown then bad s 6
          else
            let w : VaWho := { id, kind := k, stream }
            match s.vaJoin pasid page w with
            | some s => (s, none)
            | none =>
              let m : DtuMiss := { stream, pasid, page, nw := w.nw, who := [w] }
              if k == .prf then
                if s.dtu.hnd.length < 32 && s.mayGrant m && s.dtu.miss.isEmpty then (s.hndSend m, none)
                else (s, some (.err 0))
              else ({ s with dtu := { s.dtu with miss := s.dtu.miss ++ [m] } }, none)

/-- An access is given up (preemption, teardown): it waits for nothing more (R227). -/
def State.vaCancel (s : State) (p : List Nat → Bool) : State :=
  let f := fun (l : List VaWho) => l.filter fun w => !p w.id
  { s with dtu := { s.dtu with
    outc := s.dtu.outc.filter (fun x => !p x.1),
    miss := (s.dtu.miss.map fun m => { m with who := f m.who }).filter fun m => !m.who.isEmpty || m.retr.isSome,
    hnd := s.dtu.hnd.map fun h => { h with miss := { h.miss with who := f h.miss.who } },
    park := s.dtu.park.map fun q => { q with who := f q.who } } }

/-- The bytes of an access to outcome `o`, whose VA is within one page: reads through the Sinter as `cl`. Line fills from
host memory and their counting stand in `acReq`. -/
def State.outLoc (s : State) (o : VaOut) : Loc := (s.vaLoc o).getD (.bad 0)

/-- Streams whose waiting misses may be granted a handler (R220 to R222), ascending after the stream granted last. -/
def State.grantOrder (s : State) : List Nat := (List.range 70).map fun i => (s.dtu.last + 1 + i) % 70

/-- A free handler goes to the next stream's oldest miss (R221); every miss that waits for the same page joins it (R220). -/
def State.hndGrant (s : State) : State :=
  if s.dtu.hnd.length ≥ 32 then s
  else match s.grantOrder.findSome? fun st => s.dtu.miss.find? fun m => m.stream == st && s.mayGrant m with
    | none => s
    | some m =>
      let rest := s.dtu.miss.erase m
      let mine := rest.filter fun x => x.retr.isNone && x.pasid == m.pasid && x.page == m.page
      let all := mine.foldl (fun (m : DtuMiss) x => { x.who.foldl DtuMiss.join m with nw := m.nw && x.nw }) m
      { s with dtu := { s.dtu with
        miss := rest.filter fun x => !(x.retr.isNone && x.pasid == m.pasid && x.page == m.page) } }.hndSend all

/-- A VA access by a client that no other command of the model makes. -/
def execVaTranslate (id : BitVec 16) (stream : Fin 70) (va : DWord) (kind : VaKind) (s : State) :
    Host.Outcome State Fault Refusal :=
  .next (s.vaNow [0, id.toNat] stream va.toNat kind).1

def execMissHandlerGrant (s : State) : Host.Outcome State Fault Refusal := .next s.hndGrant

/-- Stored size of a completion (R214): the largest of 4 KiB, 64 KiB, 2 MiB, 1 GiB not above S. -/
def storedLg (lg : Nat) : Nat := if lg ≥ 30 then 30 else if lg ≥ 21 then 21 else if lg ≥ 16 then 16 else 12

/-- Take a park entry, or join one (R224). Park entries run out at 128: the access then waits as a miss again. -/
def State.parkTake (s : State) (m : DtuMiss) (w : VaWho) : State :=
  match s.vaJoin m.pasid m.page w with
  | some s => s
  | none =>
    if s.dtu.park.length ≥ 128 || s.parked w.stream ≥ s.parkMax then
      { s with dtu := { s.dtu with miss := s.dtu.miss ++ [{ m with stream := w.stream, nw := w.nw, who := [w], retr := none }] } }
    else
      let prgi := ((List.range 128).find? fun i => !s.dtu.park.any fun p => p.prgi == i).getD 0
      { s with dtu := { s.dtu with park := s.dtu.park ++
        [{ prgi, stream := w.stream, pasid := m.pasid, page := m.page, w := w.kind.needs.2, who := [w] }] } }

/-- An access whose completion lacks the permission it needs (R223, R224). -/
def State.vaLack (s : State) (m : DtuMiss) (w : VaWho) : State :=
  match w.kind with
  | .prf | .pretrans => s
  | _ =>
    if w.stream ≥ 64 || !s.dtu.priEnable || s.flag R.DTU_STAT_PRI_FAILED then s.vaGive m.page w (.err 7)
    else if m.retr.isSome then s.vaGive m.page w (.err 8)
    else s.parkTake m w

/-- A Translation Completion as the DTU receives it (R214): ok, translated base and log2 size, R, W, U, G. -/
structure AtsCpl where
  ok : Bool
  tbase : Nat
  lg : Nat
  r : Bool
  w : Bool
  u : Bool
  g : Bool
  deriving DecidableEq, Repr

/-- The accesses that wait for a miss: for a park entry's retranslation, those that joined the entry since too (R224, R225). -/
def State.waiters (s : State) (m : DtuMiss) : List VaWho :=
  match m.retr.bind fun i => s.dtu.park.find? fun p => p.prgi == i with
  | some p => m.who ++ p.who.filter fun w => !m.who.any fun x => x.id == w.id
  | none => m.who

/-- The completion of handler `tag` arrives (R214, R217, R230). -/
def State.atsDone (s : State) (tag : Nat) (c : AtsCpl) : State :=
  match s.dtu.hnd.find? fun h => h.tag == tag with
  | none => s
  | some h =>
    let m := h.miss
    let who := s.waiters m
    let s := { s with dtu := { s.dtu with
      hnd := s.dtu.hnd.filter (fun x => x.tag != tag),
      park := match m.retr with
        | some i => s.dtu.park.filter fun p => p.prgi != i
        | none => s.dtu.park } }
    if !c.ok then who.foldl (fun s w => s.vaGive m.page w (.err 4)) s
    else
      let lg := storedLg c.lg
      let base := m.page / 2 ^ lg * 2 ^ lg
      let tpage := c.tbase / 2 ^ c.lg * 2 ^ c.lg + m.page % 2 ^ c.lg
      let e : AtcEnt := { pasid := m.pasid, base, lg, tbase := tpage / 2 ^ lg * 2 ^ lg, r := c.r, w := c.w, g := c.g }
      let killed := h.inv.any fun r => r.1 < base + 2 ^ lg && base < r.2
      let keep := !c.u && (c.r || c.w) && !killed
      let s := if keep then s.atcPut e else s
      let s := if keep then { s with dtu := { s.dtu with pins := s.dtu.pins.map fun p =>
          if p.pasid == m.pasid && e.base ≤ p.page && p.page < e.base + 2 ^ lg then { p with ent := some e } else p } } else s
      who.foldl (fun s w =>
        if e.grants w.kind then
          s.vaGive m.page w (if c.u then .untranslated m.page m.pasid else .at_ tpage)
        else s.vaLack m w) s

/-- The completion goes to a handler of this die, or by PRXRSP to the die it was proxied for (R234). -/
def State.atsArrive (s : State) (tag : Nat) (c : AtsCpl) : State :=
  if tag < 32 then s.atsDone tag c
  else match s.dtu.prx.lookup (tag - 32) with
    | some p =>
      let s := { s with dtu := { s.dtu with prx := Cells.del s.dtu.prx (tag - 32) } }
      if s.memReach p.die then
        s.chlOut (s.portTo p.die) p.die 0x1A
          [0, p.tag, b2n c.ok, c.tbase, c.lg, b2n c.r, b2n c.w, b2n c.u, b2n c.g]
      else s
    | none => s

def execAtsCompletion (tag : BitVec 7) (ok : Bool) (tbase : DWord) (lg : BitVec 6) (r w u g : Bool) (s : State) :
    Host.Outcome State Fault Refusal :=
  .next (s.atsArrive tag.toNat { ok, tbase := tbase.toNat, lg := max 12 lg.toNat, r, w, u, g })

/-- No completion by the Completion Timeout (R221): the handler frees, its accesses fault with cause 0x5. -/
def execAtsCompletionTimeout (tag : Fin 32) (s : State) : Host.Outcome State Fault Refusal :=
  .next (match s.dtu.hnd.find? fun h => h.tag == tag.val with
    | none => s
    | some h =>
      let who := s.waiters h.miss
      let s := { s with dtu := { s.dtu with
        hnd := s.dtu.hnd.filter (fun x => x.tag != tag.val),
        park := match h.miss.retr with
          | some i => s.dtu.park.filter fun p => p.prgi != i
          | none => s.dtu.park } }
      who.foldl (fun s w => s.vaGive h.miss.page w (.err 5)) s)

/-- The next unsent park entry sends its Page Request when the allocation allows (R224). -/
def execPageRequestSend (s : State) : Host.Outcome State Fault Refusal :=
  .next (if s.flag R.DTU_STAT_PRI_FAILED || (s.dtu.park.filter fun p => p.sent && !p.answered).length ≥ s.dtu.priAlloc then s
    else match s.dtu.park.find? fun p => !p.sent with
      | none => s
      | some p =>
        let s := { s with dtu := { s.dtu with park := s.dtu.park.map fun (q : DtuPark) => if q.prgi == p.prgi then { q with sent := true } else q } }
        let s := s.incSat R.DTU_PRI_CNT_COUNT
        if s.flag R.DTU_CTL_PROXY then s.chlOut (s.portTo 0) 0 0x19 [128 + p.prgi, p.pasid, p.page, b2n p.w]
        else s.emit (.pageReq p.prgi p.pasid p.page true p.w))

/-- Every park entry faults with a cause and frees (R228, R236). -/
def State.parkFail (s : State) (cause : Nat) : State :=
  let ps := s.dtu.park
  let s := { s with dtu := { s.dtu with
    park := [], miss := s.dtu.miss.filter (fun m => m.retr.isNone),
    hnd := s.dtu.hnd.map fun h => if h.miss.retr.isSome then { h with miss := { h.miss with who := [] } } else h } }
  ps.foldl (fun s p => p.who.foldl (fun s w => s.vaGive p.page w (.err cause)) s) s

/-- A PRG Response (R225, R228): code 0 Success, 1 Invalid Request, 15 Response Failure, and so the codes that PCI Express leaves unused
(log entry 95). -/
def State.prgDone (s : State) (prgi code : Nat) : State :=
  match s.dtu.park.find? fun p => p.prgi == prgi && p.sent && !p.answered with
  | none => s.incSat R.DTU_PRG_STRAY_COUNT
  | some p =>
    if code ≥ 2 then (s.set R.DTU_STAT_PRI_FAILED 1).parkFail 0xA
    else if code = 1 then
      let s := { s with dtu := { s.dtu with park := s.dtu.park.filter fun q => q.prgi != prgi } }
      p.who.foldl (fun s w => s.vaGive p.page w (.err 9)) s
    else
      { s with dtu := { s.dtu with
        park := s.dtu.park.map (fun q => if q.prgi == prgi then { q with answered := true } else q),
        miss := s.dtu.miss ++
          [{ stream := p.stream, pasid := p.pasid, page := p.page, nw := false, who := p.who, retr := some prgi }] } }

/-- A response for another die's Page Request goes on by PRXRSP (R234). -/
def State.prgArrive (s : State) (prgi code : Nat) : State :=
  if prgi < 128 then s.prgDone prgi code
  else match s.dtu.prx.lookup (prgi - 128) with
    | some p =>
      let s := { s with dtu := { s.dtu with prx := Cells.del s.dtu.prx (prgi - 128) } }
      if s.memReach p.die then s.chlOut (s.portTo p.die) p.die 0x1A [1, p.tag, code] else s
    | none => s.incSat R.DTU_PRG_STRAY_COUNT

def execPrgResponse (prgi : BitVec 9) (code : BitVec 4) (s : State) : Host.Outcome State Fault Refusal :=
  .next (s.prgArrive prgi.toNat code.toNat)

/-- The host writes PRI Control with Reset = 1 (R228); the command also brings the Enable bit and the Outstanding Page
Request Allocation that the host's configuration then holds. -/
def execPriReset (enable : Bool) (alloc : BitVec 9) (s : State) : Host.Outcome State Fault Refusal :=
  .next { s.set R.DTU_STAT_PRI_FAILED 0 with dtu := { s.dtu with priEnable := enable, priAlloc := alloc.toNat } }

/-! ## Invalidation (R230 to R236) -/

/-- What an invalidation matches: range, PASID (none: no prefix), Global Invalidate. -/
def AtcEnt.matches (e : AtcEnt) (lo hi : Nat) (pasid : Option Nat) (global : Bool) : Bool :=
  e.base < hi && lo < e.base + 2 ^ e.lg && (pasid.isNone || pasid == some e.pasid || (global && e.g))

/-- Make the matches invalid; completions on their way in the range will not be stored. -/
def State.invApply (s : State) (lo hi : Nat) (pasid : Option Nat) (global : Bool) : State :=
  { s with dtu := { s.dtu with
    atc := s.dtu.atc.filter (fun e => !e.matches lo hi pasid global),
    pins := s.dtu.pins.map (fun p => { p with ent := p.ent.filter fun e => !e.matches lo hi pasid global }),
    hnd := s.dtu.hnd.map fun h => { h with inv := (lo, hi) :: h.inv } } }

/-- The dies that die 0 serves and forwards invalidations to (R235). -/
def State.served (s : State) : List Nat :=
  if s.isDie0 && s.flag R.CHL_ROLL_VALID then (List.range 8).filter fun d => d != 0 && s.memReach d else []

/-- Whether an invalidation may be reported done (R231, R232). -/
def State.invReady (s : State) (v : DtuInv) : Bool :=
  v.wait.isEmpty && !s.dtu.invq.any fun x => x.seq < v.seq && x.lo < v.hi && v.lo < x.hi

/-- Take one done invalidation off the queue and report it, but for a host's, whose ITag goes into the Invalidate Completion. -/
def State.invReport (s : State) (v : DtuInv) : State :=
  let s := { s with dtu := { s.dtu with invq := s.dtu.invq.filter fun x => x.seq != v.seq } }
  match v.itag, v.fwd with
  | some _, _ => s
  | none, some q => if s.memReach 0 then s.chlOut (s.portTo 0) 0 0x18 [q] else s
  | none, none => (s.set R.DTU_INV_STAT_BUSY 0).set R.DTU_INV_STAT_DONE 1

/-- Of these invalidations each that is ready is done, in order of acceptance; one Invalidate Completion carries the ITags of
the host's (R232). -/
def State.invReports (s : State) (l : List DtuInv) : State :=
  let r := l.foldl (fun (r : State × List Nat) v => if r.1.invReady v then (r.1.invReport v, r.2 ++ v.itag.toList) else r) (s, [])
  if r.2.isEmpty then r.1 else r.1.emit (.invDone r.2)

/-- Accept an invalidation. -/
def State.invAccept (s : State) (lo hi : Nat) (pasid : Option Nat) (global : Bool) (itag fwd : Option Nat) : State :=
  let empty := s.dtu.atc.isEmpty && s.dtu.pins.all fun p => p.ent.isNone
  let wait := if fwd.isSome then [] else s.served
  let v : DtuInv := { seq := s.dtu.invSeq, lo, hi, itag, fwd, wait }
  let s := s.invApply lo hi pasid global
  let s := { s with dtu := { s.dtu with invSeq := s.dtu.invSeq + 1, invq := s.dtu.invq ++ [v] } }
  let s := wait.foldl (fun s d => s.chlOut (s.portTo d) d 0x17
    [lo, pasid.getD (2 ^ 31), hi - lo, b2n global, v.seq]) s
  if itag.isSome && empty then s.invReports [v] else s

/-- Host invalidations accepted and not done (DTU_STAT.INVQ). -/
def State.invq (s : State) : Nat := (s.dtu.invq.filter fun v => v.itag.isSome).length

/-- An ATS Invalidate Request (R230): first VA, log2 of its pages, PASID if it has a prefix, Global Invalidate. -/
def execAtsInvalidateRequest (itag : BitVec 5) (va : DWord) (npg : BitVec 6) (pasid : Option (BitVec 20)) (global : Bool)
    (s : State) : Host.Outcome State Fault Refusal :=
  .next (if s.invq ≥ 32 then s
    else
      let sz := 4096 * 2 ^ npg.toNat
      let lo := va.toNat / sz * sz
      s.invAccept lo (lo + sz) (pasid.map BitVec.toNat) global (some itag.toNat) none)

/-- The matches of these invalidations are no longer used by any request (R231): each that is ready is done, in order of
acceptance. -/
def execInvalidateDone (seqs : List Nat) (s : State) : Host.Outcome State Fault Refusal :=
  .next (s.invReports (s.dtu.invq.filter fun v => seqs.contains v.seq))

/-- A driver invalidation (R245): dropped with REJ while one runs. -/
def State.dtuInv (s : State) (kind npg pasid : Nat) : State :=
  let s := ((s.set R.DTU_INV_CMD_KIND kind).set R.DTU_INV_CMD_NPG npg).set R.DTU_INV_CMD_PASID pasid
  if kind = 0 then s
  else if s.flag R.DTU_INV_STAT_BUSY then s.set R.DTU_INV_STAT_REJ 1
  else
    let sz := 4096 * 2 ^ npg
    let lo := s.get R.DTU_INV_ADDR_VA * 4096 / sz * sz
    let s := s.set R.DTU_INV_STAT_BUSY 1
    match kind with
    | 1 => s.invAccept lo (lo + sz) (some pasid) false none none
    | 2 => s.invAccept 0 (2 ^ 64) (some pasid) false none none
    | _ => s.invAccept 0 (2 ^ 64) none false none none

def State.dtuInvWrite (s : State) (m : Master) (kind npg pasid : Nat) : State :=
  s.ownerWrite m 0x700028 (kind * 2 ^ 30 + npg * 2 ^ 20 + pasid) false fun s => s.dtuInv kind npg pasid

def execDtuInvRange (m : Master) (npg : BitVec 5) (pasid : BitVec 20) (s : State) : Host.Outcome State Fault Refusal :=
  .next (s.dtuInvWrite m 1 npg.toNat pasid.toNat)

def execDtuInvPasid (m : Master) (pasid : BitVec 20) (s : State) : Host.Outcome State Fault Refusal :=
  .next (s.dtuInvWrite m 2 0 pasid.toNat)

def execDtuInvAll (m : Master) (s : State) : Host.Outcome State Fault Refusal := .next (s.dtuInvWrite m 3 0 0)

/-! ## Pinned slots (R217 to R219) -/

/-- Wellspring pins a page for a packet: shared when one stands, otherwise a free slot within the stream's limit; none
otherwise. -/
def State.pinTake (s : State) (stream pasid va : Nat) : Option State :=
  let page := pageOf va
  if s.dtu.pins.any fun p => p.pasid == pasid && p.page == page then
    some { s with dtu := { s.dtu with pins := s.dtu.pins.map fun p =>
      if p.pasid == pasid && p.page == page then { p with refs := stream :: p.refs } else p } }
  else if s.dtu.pins.length ≥ 256 || (s.dtu.pins.filter fun p => p.refs.contains stream).length ≥ max 1 (s.get R.DTU_CTL_SLOTMAX) then none
  else
    let ent := s.dtu.atc.find? fun e => e.has pasid page
    let s := { s with dtu := { s.dtu with pins := s.dtu.pins ++ [{ pasid, page, ent, refs := [stream] }] } }
    some (if ent.isSome then s else (s.vaNow [3, stream, page] stream page .pretrans).1)

/-- One reference of a stream to a page falls; a slot without references is free. -/
def State.pinDrop (s : State) (stream pasid va : Nat) : State :=
  let page := pageOf va
  { s with dtu := { s.dtu with pins := (s.dtu.pins.map fun p =>
    if p.pasid == pasid && p.page == page then { p with refs := p.refs.erase stream } else p).filter fun p => !p.refs.isEmpty } }

/-! ## Access counters and the notify ring (R237 to R241) -/

def State.mnSize (s : State) : Nat := 2 ^ max 4 (min 16 (s.get R.DTU_MN_CFG_LOG2SZ))
def State.mnUsed (s : State) : Nat := (s.get R.DTU_MN_PROD_PROD + 2 ^ 32 - s.get R.DTU_MN_CONS_CONS) % 2 ^ 32

/-- Place of the slot that PROD names. -/
def State.mnSlot (s : State) : Loc :=
  let a := s.get R.DTU_MN_BASE_ADDR * 4096 + (s.get R.DTU_MN_PROD_PROD % s.mnSize) * 16
  if s.flag R.DTU_MN_BASE_SPACE then .host a else s.dpaLoc a

/-- Write a record and advance PROD (R240). -/
def State.mnPut (s : State) (w0 w1 : Nat) : State :=
  let s := s.sinStore .dtu s.mnSlot (toBytes 8 (w0 + s.die * 16) ++ toBytes 4 w1 ++ toBytes 4 (s.tb % 2 ^ 32))
  (s.incWrap R.DTU_MN_PROD_PROD).vectorIf (s.flag R.DTU_CTL_MNIEN) 6

/-- A pending summary goes into a free slot ahead of any later record. -/
def State.mnSummary (s : State) : State :=
  if s.dtu.mnDropped = 0 || s.mnUsed ≥ s.mnSize || !s.flag R.DTU_MN_CFG_EN then s
  else { (s.mnPut 2 (s.dtu.mnDropped % 2 ^ 32)).set R.DTU_MN_STAT_SUMPEND 0 with dtu := { s.dtu with mnDropped := 0 } }

/-- A type 1 record is due. -/
def State.mnNotify (s : State) (gran stream pasid : Nat) : State :=
  if !s.flag R.DTU_MN_CFG_EN then s
  else
    let s := s.mnSummary
    if s.mnUsed ≥ s.mnSize then
      let s := ((s.set R.DTU_MN_STAT_OVF 1).incSat R.DTU_MN_STAT_DROP).set R.DTU_MN_STAT_SUMPEND 1
      { s with dtu := { s.dtu with mnDropped := s.dtu.mnDropped + 1 } }
    else s.mnPut (gran * 2 ^ 16 + 1) (stream * 2 ^ 20 + pasid)

/-- Place of granule g's counter. -/
def State.acLoc (s : State) (g : Nat) : Loc := s.dpaLoc (s.get R.DTU_AC_TBL_ADDR * 4096 + 2 * g)

/-- Write a counter of the cache back to the table. -/
def State.acWb (s : State) (e : Nat × Nat) : State := s.sinStore .dtu (s.acLoc e.1) (toBytes 2 e.2)

/-- Write the whole counter cache back (R237). -/
def State.acFlush (s : State) : State := s.dtu.ac.foldl State.acWb s

/-- One counted request to a host address by a stream (R238, R239). -/
def State.acReq (s : State) (ha stream : Nat) : State :=
  let base := s.get R.DTU_AC_BASE_ADDR
  let g := ha / 2 ^ 16
  if !s.flag R.DTU_CTL_ACEN || g < base || g ≥ base + min (2 ^ 20) (s.get R.DTU_AC_SIZE_GRAN) then s
  else
    let i := g - base
    let old := match s.dtu.ac.lookup i with
      | some c => c
      | none => match s.acLoc i with
        | .loc a => s.memNat a 2
        | _ => 0
    let c := min 0xFFFF (old + 1)
    let thr := max 1 (s.get R.DTU_AC_THRESH_THR)
    let rest := s.dtu.ac.filter fun e => e.1 != i
    let s := if rest.length ≥ 256 then
        match rest with
        | e :: es => ({ s with dtu := { s.dtu with ac := es } }).acWb e
        | [] => s
      else { s with dtu := { s.dtu with ac := rest } }
    if c ≥ thr then
      let s := { s with dtu := { s.dtu with ac := s.dtu.ac ++ [(i, 0)] } }
      s.mnNotify g stream ((s.dtu.pasid.lookup stream).getD 0)
    else { s with dtu := { s.dtu with ac := s.dtu.ac ++ [(i, c)] } }

/-- A write of DTU_AC_CMD with FLUSH = 1. -/
def State.acFlushCmd (s : State) : State := s.acFlush.set R.DTU_STAT_AC_BUSY 1

def execDtuAcFlush (m : Master) (s : State) : Host.Outcome State Fault Refusal :=
  .next (s.ownerWrite m 0x700058 1 false State.acFlushCmd)

def execDtuAcFlushDone (s : State) : Host.Outcome State Fault Refusal := .next (s.set R.DTU_STAT_AC_BUSY 0)

/-- DTU_MN_CFG, live (R247). -/
def State.mnCfg (s : State) (m : Master) (val : Nat) : State :=
  s.lockedWrite m 0x700068 val R.DTU_MN_CFG 0 0 fun t =>
    if !s.flag R.DTU_MN_CFG_EN && t.flag R.DTU_MN_CFG_EN then (t.set R.DTU_MN_PROD_PROD 0).set R.DTU_MN_CONS_CONS 0 else t

def execDtuMnEnable (m : Master) (log2sz : BitVec 5) (s : State) : Host.Outcome State Fault Refusal :=
  .next (s.ownerWrite m 0x700068 (2 ^ 31 + log2sz.toNat) false fun s => s.mnCfg m (2 ^ 31 + log2sz.toNat))

/-- DTU_MN_CONS, live (R240, R247). -/
def State.mnCons (s : State) (m : Master) (v : Nat) : State :=
  if (s.get R.DTU_MN_PROD_PROD + 2 ^ 32 - v) % 2 ^ 32 > s.mnSize then s.errMark m
  else (s.set R.DTU_MN_CONS_CONS v).mnSummary

def execDtuMnConsWrite (m : Master) (cons : Word) (s : State) : Host.Outcome State Fault Refusal :=
  .next (s.ownerWrite m 0x700070 cons.toNat false fun s => s.mnCons m cons.toNat)

/-! ## The window on the chain (R212) -/

/-- A DTU_DMWIN register, live: on die 0 the value is sent to every reachable die; elsewhere the registers are RO. -/
def State.dmwinWrite (s : State) (lim : Bool) (v : Nat) : State :=
  if !s.isDie0 then s
  else
    let s := if lim then s.set R.DTU_DMWIN_LIM_ADDR (v / 2 ^ 30)
      else (s.set R.DTU_DMWIN_BASE_ADDR (v / 2 ^ 30)).set R.DTU_DMWIN_BASE_EN (v % 2)
    (List.range 8).foldl (fun s d => if d = 0 then s else s.mgmt d 0x0B
      (toBytes 8 (s.get R.DTU_DMWIN_BASE_ADDR * 2 ^ 30 + s.get R.DTU_DMWIN_BASE_EN) ++ toBytes 8 (s.get R.DTU_DMWIN_LIM_ADDR * 2 ^ 30))) s

def execDtuDmwinWrite (m : Master) (lim : Bool) (value : DWord) (s : State) : Host.Outcome State Fault Refusal :=
  .next (s.ownerWrite m (if lim then 0x70001C else 0x700014) value.toNat true fun s => s.dmwinWrite lim value.toNat)

/-! ## Resets, states and lost links (R236, R242) -/

/-- Empty the ATC, slots, handlers and proxy entries; waiting misses stay with their accesses' units, which are lost too. -/
def State.dtuEmpty (s : State) : State :=
  { s with dtu := { s.dtu with atc := [], pins := [], miss := [], hnd := [], park := [], prx := [], outc := [], ac := [] } }

/-- S2 or S3 entry writes the counter cache back first. -/
def State.dtuSleep (s : State) : State := s.acFlush.dtuEmpty

/-- Every access that waits faults with a cause (R236, R242). -/
def State.dtuFail (s : State) (cause : Nat) : State :=
  let s := s.parkFail cause
  let l := s.dtu.miss ++ s.dtu.hnd.map (·.miss)
  let s := { s with dtu := { s.dtu with miss := [], hnd := [] } }
  l.foldl (fun s m => m.who.foldl (fun s w => s.vaGive m.page w (.err cause)) s) s

/-- The link to die 0 is down on another die: empty ATC, parked accesses fault with cause 0x6. -/
def State.dtuLinkLost (s : State) (lost : Nat → Bool) : State :=
  let s := { s with dtu := { s.dtu with
    invq := s.dtu.invq.map (fun v => { v with wait := v.wait.filter fun d => !lost d }),
    prx := s.dtu.prx.filter fun p => !lost p.2.die } }
  if s.flag R.DTU_CTL_PROXY && lost 0 then
    let s := s.dtuFail 6
    { s with dtu := { s.dtu with atc := [], pins := s.dtu.pins.map fun p => { p with ent := none } } }
  else s

/-- An ENG reset of the DTU (R242): parked and pending accesses fault with cause 0x1 and one record is written. -/
def State.dtuEng (s : State) : State :=
  let n := s.dtu.park.length + s.dtu.miss.length + s.dtu.hnd.length
  let l := (s.dtu.park.map fun p => (p.stream, p.page, p.who)) ++
    ((s.dtu.miss ++ s.dtu.hnd.map (·.miss)).map fun m => (m.stream, m.page, m.who))
  let s := s.dtuEmpty
  let s := { s with dtu := { s.dtu with outc := l.flatMap fun x =>
    (x.2.2.filter fun w => w.kind != .prf && w.kind != .pretrans).map fun w => (w.id, VaOut.err 1) } }
  match l with
  | (st, page, w :: _) :: _ => if n > 0 then s.fault {
      cls := 2, cause := 1, sub := w.kind.code, src := st, d0 := page, d1 := (s.dtu.pasid.lookup st).getD 0 } else s
  | _ => s

/-- Busy for the power controller (R242). -/
def State.dtuBusy (s : State) : Bool := !s.dtu.hnd.isEmpty || !s.dtu.park.isEmpty

end Sys2Proof.Machine
end

