-- ==== Sys2Proof/Machine/Sinter.lean ====
section
/-!
DEFINITION. The commands of the Sinter cache (R182 to R204), and how a unit's translated access reads and writes memory.
-/

namespace Sys2Proof.Machine

/-! ## Reads and writes of translated places, with access counting (R238) -/

/-- Count the host line fills that a read of n bytes at a place makes: the lines without a copy. -/
def State.acFills (s : State) (l : Loc) (n stream : Nat) : State :=
  match l with
  | .host a => (lineSpan a n).foldl (fun s x => if (s.sinFind x true).isSome then s else s.acReq x stream) s
  | _ => s

/-- A committed read of n bytes by a stream. -/
def State.vaRead (s : State) (cl : SinClient) (l : Loc) (n hint stream : Nat) (ext : List Nat) : State × List Nat × Status :=
  (s.acFills l n stream).sinLoad cl l n hint ext stream

/-- A committed write by a stream. -/
def State.vaWrite (s : State) (cl : SinClient) (l : Loc) (stream : Nat) (bs : List Nat) : State :=
  let s := match l with
    | .host a => (linePieces bs.length a bs).foldl (fun (s : State) (p : Nat × List Nat) => s.acReq p.1 stream) s
    | _ => s
  match s.locStatus l with
  | .unreachable => s.fault { cls := 3, cause := 4, d0 := (match l with | .remote d => d | _ => 0), d1 := stream * 2 ^ 32 }
  | _ => s.sinStore cl l bs

/-! ## Requests and fills -/

/-- Place of an address as a request carries it: a host address, or a DPA. -/
def State.reqLoc (s : State) (a : Nat) (host : Bool) : Loc := if host then .host a else s.dpaLoc a

/-- The ECC outcome of reading a held line or combining buffer (R195). -/
def State.reqEcc (s : State) (line : Nat) (host : Bool) (e : SinEcc) (sector stream : Nat) : State :=
  match s.sinFind line host with
  | some (w, l) => s.sinEcc w l e sector stream
  | none =>
    match e, s.sin.wc.find? fun b => b.line == line && !host with
    | .unc, some b =>
      let s := { s with sin := { s.sin with wc := s.sin.wc.filter fun x => x.line != line } }.sinRevert line (some b.under)
      ((s.eccLog true false line 0 sector).poison line false).uncFault { line, under := some [] } 0 sector stream
    | .corr, some _ => s.eccLog false false line 0 sector
    | _, _ => s

/-- A request reaches its slice. A read that misses asks for a fill; a remote read that misses goes to the home die. -/
def State.sinRequest (s : State) (cl : SinClient) (k : SinKind) (a : Nat) (host : Bool) (n hint : Nat) (bs : List Nat)
    (e : SinEcc) (sector stream : Nat) : State :=
  if !s.domOn 0 then s
  else
    let line := lineOf a
    let loc := s.reqLoc a host
    let s := s.reqEcc line host e sector stream
    match k with
    | .read => match loc with
      | .bad d => s.badAddr d stream
      | .loc _ =>
        if !s.memcOn then s
        else if (s.poisoned line false).isSome then s.poisonFault line false stream
        else
          let s := (s.sinReadLine cl line false false hint false).1
          s.emit (.reply true (ofBytes (bytesAt 0 s.mem (a % 2 ^ 41) n)))
      | .remote d =>
        if !s.memReach (bitsOf d 41 3) then s.fault { cls := 3, cause := 4, d0 := d, d1 := stream * 2 ^ 32 }
        else
          let r := s.sinReadLine cl line false true hint false
          match r.2 with
          | some data => r.1.emit (.reply true (ofBytes ((data.drop (a % 128)).take n)))
          | none => r.1.chlOut (s.portTo (bitsOf d 41 3)) (bitsOf d 41 3) 1 [line]
      | .host _ =>
        let s := s.acFills loc n stream
        let r := s.sinReadLine cl line true false hint false
        match r.2 with
        | some data => r.1.emit (.reply true (ofBytes ((data.drop (a % 128)).take n)))
        | none => r.1.emit (.hostRead line 128)
    | _ => s.vaWrite cl loc stream bs

/-- A request of n bytes within one line: a DPA or a host address; `ecc` is what the check of the line finds. -/
def execSinterAccess (cl : SinClient) (k : SinKind) (addr : DWord) (host : Bool) (n : BitVec 8) (hint : BitVec 2)
    (data : List Byte) (ecc : SinEcc) (sector : BitVec 2) (stream : BitVec 8) (s : State) : Host.Outcome State Fault Refusal :=
  .next (s.sinRequest cl k addr.toNat host (min n.toNat (128 - addr.toNat % 128)) hint.toNat
    ((data.map BitVec.toNat).take (128 - addr.toNat % 128)) ecc sector.toNat stream.toNat)

/-- A line fill returns (R187): inserted unless it is not kept, or the policy now allocates nothing. -/
def State.sinFillIn (s : State) (line : Nat) (host : Bool) (data : List Nat) : State :=
  match s.sin.fills.find? fun f => f.line == line && f.host == host with
  | none => s
  | some f =>
    let s := { s with sin := { s.sin with fills := s.sin.fills.erase f } }
    if !f.keep || s.sinByp line || (!host && !f.remote && s.polOf line ≥ 2) then s
    else s.sinInsert {
      line, host, remote := f.remote, age := f.age, ins3 := f.age == 3, under := f.under,
      data := if host || f.remote then (data ++ List.replicate 128 0).take 128 else [] }

def execSinterFill (line : DWord) (host : Bool) (data : List Byte) (s : State) : Host.Outcome State Fault Refusal :=
  .next (s.sinFillIn (lineOf line.toNat) host (data.map BitVec.toNat))

/-- 256 FCLK pass without a store to a line's combining buffer (R183). -/
def execWcBufferIdleFlush (line : DWord) (s : State) : Host.Outcome State Fault Refusal :=
  .next (if s.sin.wc.any fun b => b.line == lineOf line.toNat then
      { s with sin := { s.sin with wc := s.sin.wc.filter fun b => b.line != lineOf line.toNat } }.sinEvt 0x0B 1
    else s)

/-- 2,048 FCLK pass without a store accepted by tracker k (R191). -/
def execStreamTrackerTimeout (k : Fin 16) (s : State) : Host.Outcome State Fault Refusal :=
  .next { s with sin := { s.sin with trk := s.sin.trk.eraseIdx k } }.setStreams

/-- The window of a way is full (R197): both counters restart. -/
def execWayWindowRestart (slice way : Fin 16) (s : State) : Host.Outcome State Fault Refusal :=
  .next (if (Cells.get (0, 0) s.sin.win (slice.val * 16 + way)).1 ≥ 2 ^ 20 then s.winPut (slice.val * 16 + way) (0, 0) else s)

/-! ## Maintenance (R192, R193) -/

/-- A line is in the scope of a maintenance command: 0 RANGE, 1 ALL, 2 REMOTE, 3 HOST. -/
def State.maintIn (s : State) (scope : Nat) (l : SinLine) : Bool :=
  match scope with
  | 0 => l.host == s.flag R.SIN_MAINT_BASE_SPACE && s.get R.SIN_MAINT_BASE_ADDR * 128 ≤ l.line &&
      l.line ≤ s.get R.SIN_MAINT_LIM_ADDR * 128
  | 1 => true
  | 2 => l.remote
  | _ => l.host

/-- A write of SIN_MAINT_CMD, live: the walk, then DONE when its write-backs are accepted. `unc` names the Dirty lines whose
data the walk finds uncorrectable. -/
def State.sinMaint (s : State) (op scope : Nat) (irq : Bool) (unc : List Nat) : State :=
  let s := ((s.set R.SIN_MAINT_CMD_OP op).set R.SIN_MAINT_CMD_SCOPE scope).setB R.SIN_MAINT_CMD_IRQ irq
  if op = 0 then s
  else if s.flag R.SIN_MAINT_STAT_BUSY || s.flag R.SIN_STAT_RGN_BUSY || op ≥ 4 || (op = 3 && scope ≠ 0) then
    s.set R.SIN_MAINT_STAT_REJ 1
  else
    let bad := s.sin.lines.filter fun e => s.maintIn scope e.2 && e.2.under.isSome && unc.contains e.2.line
    let s := bad.foldl (fun s e => s.sinEcc (e.1 % 16) e.2 .unc 0 0xFF) s
    let p := s.maintIn scope
    let (s, n) := match op with
      | 3 =>
        let s := s.sinDiscard p
        ((List.range 16).foldl (fun (s : State) e =>
          if s.flag R.SIN_POISON_VALID e && p { line := s.get R.SIN_POISON_LINE e * 128, host := s.flag R.SIN_POISON_HOST e } then
            s.set R.SIN_POISON_VALID 0 e
          else s) s, 0)
      | _ => s.sinClean (fun _ l => p l) (op == 2) (fun b => scope ≤ 1 && p { line := b.line })
    { s.set R.SIN_MAINT_STAT_BUSY 1 with sin := { s.sin with maint := some (n, !bad.isEmpty, irq) } }

def State.sinMaintWrite (s : State) (m : Master) (op scope : Nat) (irq : Bool) (unc : List DWord) : State :=
  s.ownerWrite m 0x800050 (b2n irq * 256 + scope * 16 + op) false fun s => s.sinMaint op scope irq (unc.map BitVec.toNat)

def execSinMaintClean (m : Master) (scope : BitVec 2) (irq : Bool) (unc : List DWord) (s : State) :
    Host.Outcome State Fault Refusal :=
  .next (s.sinMaintWrite m 1 scope.toNat irq unc)

def execSinMaintCleanInvalidate (m : Master) (scope : BitVec 2) (irq : Bool) (unc : List DWord) (s : State) :
    Host.Outcome State Fault Refusal :=
  .next (s.sinMaintWrite m 2 scope.toNat irq unc)

def execSinMaintDiscard (m : Master) (scope : BitVec 2) (irq : Bool) (s : State) : Host.Outcome State Fault Refusal :=
  .next (s.sinMaintWrite m 3 scope.toNat irq [])

/-- The write-backs are accepted (R193). -/
def execSinMaintDone (s : State) : Host.Outcome State Fault Refusal :=
  .next (match s.sin.maint with
    | none => s
    | some (n, err, irq) =>
      let s := { s with sin := { s.sin with maint := none } }
      let s := ((s.set R.SIN_MAINT_STAT_BUSY 0).set R.SIN_MAINT_STAT_DONE 1).set R.SIN_MAINT_STAT_WBCNT n
      (if err then s.set R.SIN_MAINT_STAT_ERR 1 else s).vectorIf irq 7)

/-! ## Policy transitions (R184) -/

/-- The granules at which a policy can change. -/
def SinPol.edges (p : SinPol) : List Nat := (0 :: p.rgn.flatMap fun r => [r.2.1, r.2.2.1 + 1]).filter (· < 2 ^ 25)

/-- After a write of a policy field: a transition when the policy in force changes for some address. -/
def State.sinTransition (t old : State) : State :=
  let p := old.sinPol
  let q := t.sinPol
  if (p.edges ++ q.edges).all fun g => p.at_ g == q.at_ g then t
  else { t.set R.SIN_STAT_RGN_BUSY 1 with sin := { t.sin with trans := some p } }

def State.sinBusy (s : State) : Bool := s.flag R.SIN_STAT_RGN_BUSY || s.flag R.SIN_MAINT_STAT_BUSY

/-- SIN_RGNn_ATTR, live. -/
def State.sinAttr (s : State) (m : Master) (n val : Nat) : State :=
  if s.sinBusy then s.errMark m else (s.putReg R.SIN_RGN_ATTR n 0 val).sinTransition s

/-- SIN_CTL, live: clearing STRM_EN ends every run (R191); a write that would change DEFPOL while busy is dropped. -/
def State.sinCtl (s : State) (m : Master) (val : Nat) : State :=
  if s.sinBusy && bitsOf val 16 2 ≠ s.get R.SIN_CTL_DEFPOL then s.errMark m
  else
    let t := s.putReg R.SIN_CTL 0 0 val
    let t := if t.flag R.SIN_CTL_STRM_EN then t else { t with sin := { t.sin with trk := [] } }.setStreams
    t.sinTransition s

/-- A write of SIN_RGNn_ATTR (n < 16), or of SIN_CTL with a new DEFPOL (n = 16). -/
def execSinPolicyWrite (m : Master) (n : Fin 17) (val : Word) (s : State) : Host.Outcome State Fault Refusal :=
  .next (if n.val < 16 then s.ownerWrite m (0x800108 + 16 * n) val.toNat false fun s => s.sinAttr m n val.toNat
    else s.ownerWrite m 0x800000 val.toNat false fun s => s.sinCtl m val.toNat)

/-- The transition's cleans are done. -/
def execSinTransitionDone (s : State) : Host.Outcome State Fault Refusal :=
  .next (match s.sin.trans with
    | none => s
    | some p =>
      let q := s.sinPol
      let g := fun (l : SinLine) => l.line % 2 ^ 41 / 2 ^ 16
      let moved := fun (l : SinLine) => !l.host && !l.remote && p.at_ (g l) != q.at_ (g l)
      let s := (s.sinClean (fun _ l => moved l && q.at_ (g l) == 1) false (fun _ => false)).1
      let toUc := (p.edges ++ q.edges).any fun g => p.at_ g != q.at_ g && q.at_ g ≥ 2
      let s := (s.sinClean (fun _ l => moved l && q.at_ (g l) ≥ 2) true (fun _ => toUc)).1
      { s.set R.SIN_STAT_RGN_BUSY 0 with sin := { s.sin with trans := none } })

end Sys2Proof.Machine
end

