-- ==== Sys2Proof/Machine/Atomic.lean ====
section
/-!
DEFINITION. Atomics at their point of coherence (R76, R89, R157): used by Ember atomics, by ATM messages and by the host's
AtomicOps.
-/

namespace Sys2Proof.Machine

/-- FP32 sum rounded to nearest even, subnormals kept (R76 atom.fadd). -/
def atomFadd (a b : Nat) : Nat := toF ((fromF a).add .rne (fromF b))

/-- The value an atomic writes: operation by the codes of R430, operands of 32 or 64 bits. -/
def atomNew (op : Nat) (w64 sg : Bool) (old b c : Nat) : Nat :=
  let w := if w64 then 64 else 32
  let le := fun (x y : Nat) => if sg then decide (sgn w x ≤ sgn w y) else decide (x ≤ y)
  match op with
  | 0 => (old + b) % 2 ^ w
  | 1 => if le old b then old else b
  | 2 => if le b old then old else b
  | 3 => old &&& b
  | 4 => old ||| b
  | 5 => old ^^^ b
  | 6 => b
  | 7 => if old = c then b else old
  | 8 => atomFadd old b
  | _ => if old ≥ b then 0 else (old + 1) % 2 ^ w

/-- Perform an atomic in this die's memory: the old value, or ones with nothing changed where the line is poisoned (R196) or
the place does not answer. -/
def State.atomAt (s : State) (cl : SinClient) (a : Nat) (op : Nat) (w64 sg : Bool) (b c stream : Nat) : State × Nat × Status :=
  let n := if w64 then 8 else 4
  let r := s.sinLoad cl (.loc a) n 0 [] stream
  match r.2.2 with
  | .ok =>
    let old := ofBytes r.2.1
    let new := atomNew op w64 sg old b c
    (if op = 7 && old ≠ c then r.1 else r.1.sinStore cl (.loc a) (toBytes n new), old, .ok)
  | st => (r.1, 2 ^ (8 * n) - 1, st)

/-- Send an atomic to its home: a chain message, or a PCI Express request of die 0's HIF (R158, R430). -/
def State.atomSend (s : State) (l : Loc) (op : Nat) (w64 sg sys : Bool) (b c : Nat) : State :=
  match l with
  | .remote d => s.chlOut (s.portTo (bitsOf d 41 3)) (bitsOf d 41 3) 5 [d, op, b2n w64, b2n sg, b, c]
  | .host a => s.emit (.hostAtomic op a [b2n w64, b2n sg, b2n (sys && (op = 0 || op = 6 || op = 7)), b, c])
  | _ => s

end Sys2Proof.Machine
end

