-- ==== Sys2Proof/Machine/Cvt.lean ====
section
/-!
DEFINITION. cvt's types and conversions (R83, R84), and Geyser's output formats (R131, R132).
-/

namespace Sys2Proof.Machine

/-- Width in bits of the types of R83; 0 for the illegal code 15. -/
def cvtWidth (t : Nat) : Nat := [8, 8, 16, 16, 32, 32, 16, 16, 32, 8, 8, 8, 8, 4, 4].getD t 0

/-- Floating-point format of a type code. -/
def cvtFmt : Nat → Option Ffmt
  | 6 => some f16 | 7 => some bf16 | 8 => some f32 | 9 => some e4m3 | 10 => some e5m2
  | 11 => some e3m2 | 12 => some e2m3 | 13 => some e2m1 | _ => none

/-- Range of an integer type. -/
def cvtRange : Nat → Int × Int
  | 0 => (0, 255) | 1 => (-128, 127) | 2 => (0, 65535) | 3 => (-32768, 32767)
  | 4 => (0, 2 ^ 32 - 1) | 5 => (-2 ^ 31, 2 ^ 31 - 1) | _ => (-8, 7)

/-- Integer value of an element. -/
def cvtInt (t c : Nat) : Int :=
  match t with
  | 0 | 2 | 4 => c
  | _ => sgn (cvtWidth t) c

/-- Code a finite value that does not fit takes in a format (R84): with SAT the largest magnitude. -/
def cvtOver (f : Ffmt) (r : Rnd) (sat : Bool) (neg : Bool) : Nat :=
  match f.kind with
  | 0 => if sat then f.maxCode else if f.mb = 2 then f.infCode else f.ieeeOver r neg
  | 1 => if sat then f.maxCode else f.nanCode
  | _ => f.maxCode

/-- A value converted to a floating-point format; `nanSign` is the sign a NaN source carries. -/
def cvtToFp (f : Ffmt) (r : Rnd) (sat : Bool) (nanSign : Bool) (v : Fv) : Nat :=
  match v with
  | .nan => if f.kind = 1 then signBit f nanSign ||| f.nanCode else f.nanCode
  | .inf n => match f.kind with
    | 0 => signBit f n ||| f.infCode
    | 1 => signBit f n ||| (if sat then f.maxCode else f.nanCode)
    | _ => signBit f n ||| f.maxCode
  | .fin n m e => f.encFin r (cvtOver f r sat) n m e

/-- Convert an element of type `st` to an element of type `dt` (R84). -/
def cvtElem (st dt : Nat) (r : Rnd) (sat : Bool) (c : Nat) : Nat :=
  let (lo, hi) := cvtRange dt
  match cvtFmt st, cvtFmt dt with
  | none, none =>
    let i := cvtInt st c
    unsgn (cvtWidth dt) (if sat then max lo (min hi i) else i)
  | some f, none => unsgn (cvtWidth dt) ((f.dec c).toInt r lo hi)
  | none, some g => cvtToFp g r sat false (Fv.ofInt (cvtInt st c) 0)
  | some f, some g => cvtToFp g r sat (bitB c (f.eb + f.mb)) (f.dec c)

/-! ## Geyser's outputs (R131 to R133) -/

/-- Element bits of OFMT 0 to 12. -/
def outBits (o : Nat) : Nat := [4, 8, 8, 16, 32, 4, 8, 8, 8, 8, 16, 16, 32].getD o 0

/-- An output element of a value: rounded once by `r`; overflow of a stochastic rounding follows RND 0. -/
def outElem (o : Nat) (r : Rnd) (v : Fv) : Nat :=
  match o with
  | 0 => unsgn 4 (v.toInt r (-8) 7)
  | 1 => unsgn 8 (v.toInt r (-128) 127)
  | 2 => unsgn 8 (v.toInt r 0 255)
  | 3 => unsgn 16 (v.toInt r (-32768) 32767)
  | 4 => unsgn 32 (v.toInt r (-2 ^ 31) (2 ^ 31 - 1))
  | 5 => cvtToFp e2m1 r true false v
  | 6 => cvtToFp e3m2 r true false v
  | 7 => cvtToFp e2m3 r true false v
  | 8 => match v with
    | .inf n => signBit e4m3 n ||| e4m3.nanCode
    | v => cvtToFp e4m3 r true false v
  | 9 => match v with
    | .fin n m e => e5m2.encFin r (fun _ => if r == .rtz then e5m2.maxCode else e5m2.infCode) n m e
    | v => cvtToFp e5m2 r false false v
  | 10 => cvtToFp f16 r false false v
  | 11 => cvtToFp bf16 r false false v
  | _ => cvtToFp f32 r false false v

end Sys2Proof.Machine
end

