-- ==== Sys2Proof/Machine/Va.lean ====
section
/-!
DEFINITION. Reads and writes by virtual address that a unit makes within a command, page by page through the DTU.
-/

namespace Sys2Proof.Machine

/-- What a VA access came to: it waits for a translation, it failed with an unrecoverable fault, or it is done. -/
inductive VaRes (α : Type) where
  | wait | fail | ok (x : α)
  deriving DecidableEq, Repr

/-- Cut n bytes at a VA into pieces within pages. -/
def pagePieces : Nat → Nat → Nat → List (Nat × Nat)
  | 0, _, _ => []
  | _, _, 0 => []
  | fuel + 1, va, n =>
    let k := min n (4096 - va % 4096)
    (va, k) :: pagePieces fuel (va + k) (n - k)

/-- Translate every piece of an access: each with its place, or waiting, or failed. -/
def State.vaPlaces (s : State) (id : List Nat) (stream : Nat) (k : VaKind) (va n : Nat) : State × VaRes (List (Nat × Nat × Loc)) :=
  (pagePieces (n / 4096 + 2) va n).foldl (fun (r : State × VaRes (List (Nat × Nat × Loc))) p =>
    match r.2 with
    | .fail => r
    | .wait => ((r.1.vaNow (id ++ [p.1 / 4096]) stream p.1 k).1, .wait)
    | .ok l => match r.1.vaNow (id ++ [p.1 / 4096]) stream p.1 k with
      | (s, none) => (s, .wait)
      | (s, some (.err _)) => (s, .fail)
      | (s, some o) => (s, .ok (l ++ [(p.1, p.2, s.outLoc o)]))) (s, .ok [])

/-- Read n bytes by VA. `ext` holds, by VA, the bytes of memory that is not this die's. -/
def State.vaGet (s : State) (cl : SinClient) (id : List Nat) (stream : Nat) (k : VaKind) (va n : Nat) (ext : List Host.Cell) :
    State × VaRes (List Nat) :=
  match s.vaPlaces id stream k va n with
  | (s, .wait) => (s, .wait)
  | (s, .fail) => (s, .fail)
  | (s, .ok ps) => ps.foldl (fun (r : State × VaRes (List Nat)) p =>
      match r.2 with
      | .ok bs =>
        let x := r.1.vaRead cl p.2.2 p.2.1 0 stream (bytesAt 0 ext p.1 p.2.1)
        (match x.2.2 with
          | .domainAsleep => (x.1, .wait)
          | _ => (x.1, .ok (bs ++ x.2.1)))
      | _ => r) (s, .ok [])

/-- Write bytes by VA. -/
def State.vaPut (s : State) (cl : SinClient) (id : List Nat) (stream : Nat) (k : VaKind) (va : Nat) (bs : List Nat) :
    State × VaRes Unit :=
  match s.vaPlaces id stream k va bs.length with
  | (s, .wait) => (s, .wait)
  | (s, .fail) => (s, .fail)
  | (s, .ok ps) => (ps.foldl (fun s p => s.vaWrite cl p.2.2 stream ((bs.drop (p.1 - va)).take p.2.1)) s, .ok ())

/-- Read little-endian numbers of n bytes each. -/
def groupsOf : Nat → Nat → List Nat → List Nat
  | 0, _, _ => []
  | _, _, [] => []
  | fuel + 1, n, bs => ofBytes (bs.take n) :: groupsOf fuel n (bs.drop n)

/-- n bytes at an offset of a byte list, as a number. -/
def fieldOf (bs : List Nat) (off n : Nat) : Nat := ofBytes ((bs.drop off).take n)

end Sys2Proof.Machine
end

