-- ==== Sys2Proof/Machine/GfxFmt.lean ====
section
/-!
DEFINITION. Rendering packets (R325 to R331, R337, R342) and element formats (R345).
-/

namespace Sys2Proof.Machine

/-! ## Element formats (R345) -/

/-- How a component's bits read: UNORM, SRGB, UINT, an IEEE float of 16 or 32 bits, an unsigned float of 5 exponent bits and m
mantissa bits, SNORM. -/
inductive CompKind where
  | unorm | srgb | uint | f16 | f32 | uf (m : Nat) | snorm
  deriving DecidableEq, Repr

/-- A component of an element: channel (R, G, B, A as 0 to 3), lowest bit, width, kind. -/
structure Comp where
  ch : Nat
  lo : Nat
  w : Nat
  k : CompKind
  deriving DecidableEq, Repr

/-- n components of width w, the channels in a given order from the lowest bit. -/
def compsOf (chs : List Nat) (w : Nat) (k : CompKind) : List Comp :=
  chs.zipIdx.map fun c => { ch := c.1, lo := w * c.2, w, k }

/-- Components of an uncompressed format; none for any other code. The widths follow the Element column, the order is that of
the name from the lowest bit (log entry 30). -/
def fmtComps (f : Nat) : Option (List Comp) :=
  match f with
  | 0x01 => some (compsOf [0] 8 .unorm)
  | 0x02 => some (compsOf [0] 8 .uint)
  | 0x03 => some (compsOf [0, 1] 8 .unorm)
  | 0x04 => some (compsOf [0, 1, 2, 3] 8 .unorm)
  | 0x05 => some (compsOf [0, 1, 2] 8 .srgb ++ [{ ch := 3, lo := 24, w := 8, k := .unorm }])
  | 0x06 => some (compsOf [2, 1, 0, 3] 8 .unorm)
  | 0x07 => some (compsOf [0, 1, 2] 10 .unorm ++ [{ ch := 3, lo := 30, w := 2, k := .unorm }])
  | 0x08 => some [{ ch := 0, lo := 0, w := 11, k := .uf 6 }, { ch := 1, lo := 11, w := 11, k := .uf 6 }, { ch := 2, lo := 22, w := 10, k := .uf 5 }]
  | 0x09 => some (compsOf [0] 16 .f16)
  | 0x0A => some (compsOf [0, 1] 16 .f16)
  | 0x0B => some (compsOf [0, 1, 2, 3] 16 .f16)
  | 0x0C => some (compsOf [0] 32 .f32)
  | 0x0D => some (compsOf [0, 1] 32 .f32)
  | 0x0E => some (compsOf [0, 1, 2, 3] 32 .f32)
  | 0x0F => some (compsOf [0] 32 .uint)
  | 0x10 => some (compsOf [0, 1] 32 .uint)
  | 0x11 => some (compsOf [0, 1, 2, 3] 32 .uint)
  | 0x12 => some (compsOf [0] 16 .unorm)
  | 0x20 => some (compsOf [0] 16 .unorm)
  | 0x21 => some (compsOf [0] 32 .f32)
  | 0x22 => some (compsOf [0] 8 .uint)
  | _ => none

/-- Width and height of an ASTC footprint. -/
def astcDim (i : Nat) : Option (Nat × Nat) :=
  [(4, 4), (5, 4), (5, 5), (6, 5), (6, 6), (8, 5), (8, 6), (8, 8), (10, 5), (10, 6), (10, 8), (10, 10), (12, 10), (12, 12)][i]?

/-- Block width, block height and bytes of an element of a format; none for a code not listed. -/
def fmtElem (f : Nat) : Option (Nat × Nat × Nat) :=
  match fmtComps f with
  | some cs => some (1, 1, (cs.foldl (fun n c => n + c.w) 0) / 8)
  | none =>
    if 0x40 ≤ f && f < 0x70 then (astcDim (f % 16)).map fun d => (d.1, d.2, 16)
    else if 0x70 ≤ f && f < 0x74 then some (4, 4, 8)
    else if 0x74 ≤ f && f < 0x76 then some (4, 4, 16)
    else if 0x76 ≤ f && f < 0x78 then some (4, 4, 8)
    else if 0x78 ≤ f && f < 0x7A then some (4, 4, 16)
    else none

/-- Bytes of an uncompressed element. -/
def fmtBytes (f : Nat) : Nat := ((fmtElem f).map fun e => e.2.2).getD 0

/-- A format that a colour attachment may have. -/
def fmtRender (f : Nat) : Bool := 1 ≤ f && f ≤ 0x12

/-! ## RP_BEGIN (R327 to R329, R337) -/

/-- An attachment descriptor. -/
structure Att where
  num : Nat
  base : Nat
  fmt : Nat
  linear : Bool
  scale2 : Bool
  load : Nat
  store : Nat
  pitch : Nat
  iw : Nat
  ih : Nat
  vstride : Nat
  rbase : Nat
  clear : List Nat
  deriving DecidableEq, Repr

def attAt (b : List Nat) (i : Nat) : Att :=
  let o := 0x40 + 64 * i
  let w := fieldOf b (o + 8) 4
  { num := bitsOf w 16 4, base := fieldOf b o 8, fmt := bitsOf w 0 8, linear := bitB w 8, scale2 := bitB w 9, load := bitsOf w 10 2,
    store := bitsOf w 12 2, pitch := fieldOf b (o + 0xC) 4, iw := fieldOf b (o + 0x10) 2, ih := fieldOf b (o + 0x12) 2,
    vstride := fieldOf b (o + 0x14) 4, rbase := fieldOf b (o + 0x18) 8, clear := (b.drop (o + 0x20)).take 16 }

def rpNatt (b : List Nat) : Nat := bitsOf (fieldOf b 0x38 4) 6 4
/-- Attachments in ATT order. -/
def rpAtts (b : List Nat) : List Att := sortBy (fun x y => x.num ≤ y.num) ((List.range (rpNatt b)).map (attAt b))
def rpW (b : List Nat) : Nat := bitsOf (fieldOf b 0x34 4) 0 14
def rpH (b : List Nat) : Nat := bitsOf (fieldOf b 0x34 4) 14 14
/-- Tile width and height. -/
def rpTile (b : List Nat) : Nat × Nat := match bitsOf (fieldOf b 0x38 4) 0 2 with | 0 => (32, 32) | 1 => (16, 16) | _ => (64, 32)
def rpSamples (b : List Nat) : Nat := 2 ^ bitsOf (fieldOf b 0x38 4) 2 2
/-- Views of a pass, in order. -/
def rpViews (b : List Nat) : List Nat := let v := bitsOf (fieldOf b 0x38 4) 4 2; [0, 1].filter fun i => bitB v i
def rpEmask (b : List Nat) : Nat := bitsOf (fieldOf b 0x38 4) 16 16
/-- Tiles of a view in x and in y. -/
def rpGrid (b : List Nat) : Nat × Nat := ((rpW b + (rpTile b).1 - 1) / (rpTile b).1, (rpH b + (rpTile b).2 - 1) / (rpTile b).2)
def rpTiles (b : List Nat) : Nat := (rpGrid b).1 * (rpGrid b).2

/-- Width, height, samples of an attachment's tile. -/
def Att.dims (a : Att) (b : List Nat) : Nat × Nat × Nat :=
  let (w, h) := rpTile b
  if a.scale2 then (2 * w, 2 * h, 1) else (w, h, rpSamples b)
def Att.bytes (a : Att) (b : List Nat) : Nat := let (w, h, s) := a.dims b; w * h * s * fmtBytes a.fmt

/-- Offsets of the attachments in tile memory, and where the visibility buffer begins (R337). -/
def rpLayout (b : List Nat) : List (Att × Nat) × Nat :=
  (rpAtts b).foldl (fun (l : List (Att × Nat) × Nat) a =>
    let o := (l.2 + 255) / 256 * 256
    (l.1 ++ [(a, o)], o + a.bytes b)) ([], 0)

/-- Bytes of tile memory: the attachments, then 8 bytes for each sample of the visibility buffer. -/
def rpTileMem (b : List Nat) : Nat :=
  (rpLayout b).2 + 8 * rpSamples b * (rpTile b).1 * (rpTile b).2

def State.rpBeginLimit (s : State) (b : List Nat) : Bool :=
  let w := fieldOf b 0x38 4
  let atts := rpAtts b
  let n := rpNatt b
  let v := (rpViews b).length
  n = 0 || n > 10 || bitsOf w 0 2 = 3 || bitsOf w 2 2 = 3 || v = 0 ||
  rpW b = 0 || rpW b > 8192 || rpH b = 0 || rpH b > 8192 ||
  fieldOf b 0x10 8 % 4096 ≠ 0 || fieldOf b 0x18 8 % 4096 ≠ 0 || fieldOf b 0x20 8 % 4096 ≠ 0 ||
  fieldOf b 0x2C 4 = 0 || fieldOf b 0x30 4 < 4 ||
  atts.any (fun a => a.base = 0 || a.load = 3 || a.store = 3 || a.num > 9 ||
    (a.linear && a.pitch % 128 ≠ 0) || (!a.linear && a.pitch ≠ 0) ||
    (a.num = 8 && a.fmt ≠ 0x20 && a.fmt ≠ 0x21) || (a.num = 9 && a.fmt ≠ 0x22) || (a.num < 8 && !fmtRender a.fmt) ||
    (a.scale2 && a.num ≥ 8) || (a.store = 2 && rpSamples b = 1)) ||
  (atts.map (·.num)).eraseDups.length ≠ atts.length ||
  fieldOf b 0x28 4 * 4096 < 136 * rpTiles b * v + 4096 ||
  rpTileMem b > 16384 * min 12 (s.get R.GFX_CALRES_RES) ||
  (rpEmask b ≠ 0 && !((List.range (min 16 (s.get R.BOOT_PROF_EMBMAX))).any fun e => bitB (rpEmask b) e))

/-! ## RP_STATE, RP_DRAW, RP_END (R330, R331, R342) -/

def stVN (b : List Nat) : Nat := let n := fieldOf b 0x2C 1; if n = 0 then 256 else n
def stFN (b : List Nat) : Nat := let n := fieldOf b 0x2D 1; if n = 0 then 256 else n
def stNvar (b : List Nat) : Nat := bitsOf (fieldOf b 0x2C 4) 16 4
def stOrdered (b : List Nat) : Bool := bitB (fieldOf b 0x2C 4) 20
def stDexp (b : List Nat) : Bool := bitB (fieldOf b 0x2C 4) 21
def stFlags (b : List Nat) : Nat := fieldOf b 0x44 4
def stDfunc (b : List Nat) : Nat := bitsOf (stFlags b) 0 3
def stDtest (b : List Nat) : Bool := bitB (stFlags b) 3
def stDwrite (b : List Nat) : Bool := bitB (stFlags b) 4
def stStest (b : List Nat) : Bool := bitB (stFlags b) 11

def rpStateLimit (b : List Nat) : Bool :=
  stVN b % 8 ≠ 0 || stFN b % 8 ≠ 0 || stFN b > 128 || stNvar b > 8 || stFN b < 2 + 4 * stNvar b ||
  (stDexp b && (!stOrdered b || stDtest b)) || bitsOf (stFlags b) 5 2 = 3 ||
  fieldOf b 0x10 8 % 16 ≠ 0 || fieldOf b 0x18 8 % 16 ≠ 0 || fieldOf b 0x28 4 > 65536 ||
  fieldOf b 0x40 2 > 256 || fieldOf b 0x42 2 > 256

/-- DTEST, DWRITE or STEST without the attachment it needs (R330). -/
def rpStateNeeds (begin_ st : List Nat) : Bool :=
  let has := fun (n : Nat) => (rpAtts begin_).any fun a => a.num = n
  ((stDtest st || stDwrite st) && !has 8) || (stStest st && !has 9)

def rpDrawLimit (b : List Nat) : Bool := fieldOf b 0x1C 4 = 0 || bitsOf (fieldOf b 0x28 4) 1 2 ≥ 2

def endKN (b : List Nat) : Nat := let n := fieldOf b 0x18 1; if n = 0 then 256 else n
def endKCAL (b : List Nat) : Nat := bitsOf (fieldOf b 0x18 4) 8 9
def endKT (b : List Nat) : Nat := bitsOf (fieldOf b 0x18 4) 17 5
def endDims (b : List Nat) : Nat × Nat := (bitsOf (fieldOf b 0x1C 4) 0 11, bitsOf (fieldOf b 0x1C 4) 11 11)

/-- The kernel of an RP_END breaks R30 or R35. -/
def rpEndLimit (b : List Nat) : Bool :=
  let (dx, dy) := endDims b
  let coh := (dx * dy + 31) / 32
  fieldOf b 0x10 8 ≠ 0 &&
    (dx = 0 || dy = 0 || dx > 1024 || dy > 1024 || dx * dy > 1024 || endKN b % 8 ≠ 0 || endKCAL b > 256 || endKT b > 16 ||
     32 * endKN b * ((coh + 3) / 4) > 16384 || fieldOf b 0x28 4 > 65536 || fieldOf b 0x10 8 % 16 ≠ 0)

/-! ## What parse asks of rendering packets -/

def gfxBody (t : Nat) (b : List Nat) : Option Nat :=
  match t with
  | 0x20 => some (0x30 + 64 * rpNatt b)
  | 0x21 => some 0x50
  | 0x22 => some 0x30
  | 0x23 => some 0x20
  | _ => none

def gfxReserved (t : Nat) (b : List Nat) : Bool :=
  match t with
  | 0x20 => bitsOf (fieldOf b 0x34 4) 28 4 ≠ 0 || bitsOf (fieldOf b 0x38 4) 10 6 ≠ 0 || fieldOf b 0x3C 4 ≠ 0 ||
      (List.range (rpNatt b)).any fun i =>
        let w := fieldOf b (0x48 + 64 * i) 4
        bitsOf w 14 2 ≠ 0 || bitsOf w 20 12 ≠ 0 || fieldOf b (0x70 + 64 * i) 16 ≠ 0
  | 0x21 => bitsOf (fieldOf b 0x2C 4) 23 9 ≠ 0 || bitsOf (stFlags b) 21 11 ≠ 0 || fieldOf b 0x4B 1 ≠ 0 || fieldOf b 0x5C 4 ≠ 0
  | 0x22 => bitsOf (fieldOf b 0x28 4) 4 28 ≠ 0 || fieldOf b 0x2C 4 ≠ 0
  | 0x23 => bitsOf (fieldOf b 0x18 4) 23 9 ≠ 0 || bitsOf (fieldOf b 0x1C 4) 22 10 ≠ 0 || fieldOf b 0x2C 4 ≠ 0
  | _ => false

def State.gfxLimit (s : State) (t : Nat) (b : List Nat) : Bool :=
  match t with
  | 0x20 => s.rpBeginLimit b
  | 0x21 => rpStateLimit b
  | 0x22 => rpDrawLimit b
  | 0x23 => rpEndLimit b
  | _ => false

/-- The TILEKERN licence (R595, R342). -/
def State.tileKern (s : State) : Bool := bitB (s.get R.BOOT_LICSTAT_EN) 3
def State.gfxLicence (s : State) (t : Nat) (b : List Nat) : Bool := t = 0x23 && fieldOf b 0x10 8 ≠ 0 && !s.tileKern

def gfxPages (t : Nat) (b : List Nat) : List Nat :=
  match t with
  | 0x20 => [fieldOf b 0x10 8, fieldOf b 0x18 8, fieldOf b 0x20 8] ++ (rpAtts b).map (·.base)
  | 0x21 => [fieldOf b 0x10 8, fieldOf b 0x18 8, fieldOf b 0x20 8, fieldOf b 0x30 8, fieldOf b 0x38 8]
  | 0x22 => [fieldOf b 0x10 8]
  | 0x23 => [fieldOf b 0x10 8, fieldOf b 0x20 8]
  | _ => []

end Sys2Proof.Machine
end

