-- ==== Sys2Proof/Machine/Packet.lean ====
section
/-!
DEFINITION. Packet formats and the faults parse finds in a packet (R290 to R293, R301, R303, R304, R308, R309, R311 to R313,
R325, R326).
-/

namespace Sys2Proof.Machine

/-- Header fields (R290). -/
def pkType (b : List Nat) : Nat := fieldOf b 0 1
def pkLen (b : List Nat) : Nat := fieldOf b 1 1
def pkTag (b : List Nat) : Nat := fieldOf b 2 1
def pkSerial (b : List Nat) : Bool := bitB (fieldOf b 3 1) 0
def pkPen (b : List Nat) : Bool := bitB (fieldOf b 3 1) 1
def pkPneg (b : List Nat) : Bool := bitB (fieldOf b 3 1) 2
def pkPq (b : List Nat) : Nat := bitsOf (fieldOf b 3 1) 3 3
def pkDeps (b : List Nat) : List Nat := [fieldOf b 4 1, fieldOf b 5 1, fieldOf b 6 1, fieldOf b 7 1].filter (· != 0)
def pkNa (b : List Nat) : Nat := bitsOf (fieldOf b 8 1) 0 4
def pkNs (b : List Nat) : Nat := bitsOf (fieldOf b 8 1) 4 4

/-- Trailer entry i (R291): handle, flags, value. -/
def pkEntry (b : List Nat) (i : Nat) : Nat × Nat × Nat :=
  let o := 16 * pkLen b - 16 * (pkNa b + pkNs b) + 16 * i
  (fieldOf b o 4, fieldOf b (o + 4) 4, fieldOf b (o + 8) 8)

/-- Body bytes a packet's type and header imply (R293); none for an undefined TYPE. -/
def pkBody (b : List Nat) : Option Nat :=
  match pkType b with
  | 0 => some 0
  | 1 => some (0x50 + 16 * ((bitsOf (fieldOf b 0x24 4) 24 5 + 3) / 4))
  | 2 => some 16
  | 3 => some 16
  | 4 => some (16 + (8 * bitsOf (fieldOf b 24 4) 0 4 + 15) / 16 * 16)
  | 5 => some 16
  | 6 => some (16 + 272 * fieldOf b 24 4)
  | t => gfxBody t b

/-- A reserved bit is set (R290, R291, and the bodies). -/
def pkReserved (b : List Nat) : Bool :=
  bitsOf (fieldOf b 3 1) 6 2 != 0 || fieldOf b 9 7 != 0 ||
  ((List.range (pkNa b)).any fun i => (pkEntry b i).2.1 / 2 != 0) ||
  ((List.range (pkNs b)).any fun i => (pkEntry b (pkNa b + i)).2.1 != 0) ||
  (match pkType b with
   | 1 => bitsOf (fieldOf b 0x24 4) 29 3 != 0 || bitsOf (fieldOf b 0x40 4) 29 3 != 0 || fieldOf b 0x5C 4 != 0
   | 2 => fieldOf b 20 4 - fieldOf b 20 4 % 2 ^ 9 != 0 || bitB (fieldOf b 20 4) 3 || bitB (fieldOf b 20 4) 7
   | 3 => fieldOf b 20 4 != 0
   | 4 => fieldOf b 24 4 / 2 ^ 5 != 0
   | 6 => (List.range (fieldOf b 24 4)).any fun i => fieldOf b (32 + 272 * i + 2) 14 != 0
   | t => gfxReserved t b)

/-- N of a DISPATCH (R303). -/
def dispN (b : List Nat) : Nat := let n := fieldOf b 0x24 1; if n = 0 then 256 else n
def dispDim (b : List Nat) : Nat × Nat × Nat :=
  let d := fieldOf b 0x40 4
  (bitsOf d 0 11, bitsOf d 11 11, bitsOf d 22 7)

/-- Logical Embers of the die (R59). -/
def State.embCount (s : State) : Nat := min 16 (s.get R.BOOT_PROF_EMBMAX)

/-- Logical Embers an EMASK names; 0 names all. -/
def State.emask (s : State) (m : Nat) : List Nat := (List.range s.embCount).filter fun e => m == 0 || bitB m e

/-- A DISPATCH breaks a limit (R30, R304). -/
def State.dispLimit (s : State) (b : List Nat) : Bool :=
  let (dx, dy, dz) := dispDim b
  let n := dispN b
  let cx := fieldOf b 0x44 4
  let cy := fieldOf b 0x48 2
  let cz := fieldOf b 0x4A 2
  let w := fieldOf b 0x24 4
  let coh := (dx * dy * dz + 31) / 32
  dx = 0 || dy = 0 || dz = 0 || dx > 1024 || dy > 1024 || dz > 64 || dx * dy * dz > 1024 ||
  n % 8 != 0 || bitsOf w 8 9 > 256 || bitsOf w 17 5 > 16 || bitsOf w 24 5 > 16 ||
  cx = 0 || cy = 0 || cz = 0 ||
  fieldOf b 0x4C 4 + cx > fieldOf b 0x54 4 || fieldOf b 0x50 2 + cy > fieldOf b 0x58 2 ||
  fieldOf b 0x52 2 + cz > fieldOf b 0x5A 2 ||
  32 * n * ((coh + 3) / 4) > 16384 || fieldOf b 0x20 4 > 65536 ||
  fieldOf b 0x38 2 > 256 || fieldOf b 0x3A 2 > 256 ||
  (fieldOf b 0x3C 2 != 0 && (s.emask (fieldOf b 0x3C 2)).isEmpty)

/-- A limit of the body is broken (R293, R301, R309, R313). -/
def State.pkLimit (s : State) (b : List Nat) : Bool :=
  pkNa b > 8 || pkNs b > 8 ||
  (match pkType b with
   | 1 => s.dispLimit b
   | 2 => bitsOf (fieldOf b 20 4) 4 3 ≥ 5
   | 4 => let c := bitsOf (fieldOf b 24 4) 0 4; c = 0 || c > 8 || fieldOf b 16 8 % 8 != 0
   | 6 => let n := fieldOf b 24 4; n = 0 || n > 8
   | t => s.gfxLimit t b)

/-- The header of a render packet breaks R326. -/
def pkPassHdr (b : List Nat) : Bool :=
  match pkType b with
  | 0x20 => pkTag b != 0 || pkNs b != 0
  | 0x21 | 0x22 => pkTag b != 0 || !(pkDeps b).isEmpty || pkSerial b || pkPen b || pkNa b != 0 || pkNs b != 0
  | 0x23 => !(pkDeps b).isEmpty || pkSerial b || pkPen b || pkNa b != 0
  | _ => false

/-- The first fault of a packet by itself (R293), as the cause of its PACKET record: 1 TYPE, 2 RESERVED, 3 LEN, 5 LIMIT,
6 LICENCE; 0 none. The order is the record's own (log entry 24). -/
def State.pkFault (s : State) (b : List Nat) : Nat :=
  match pkBody b with
  | none => 1
  | some n =>
    if 16 * pkLen b < 16 + n + 16 * (pkNa b + pkNs b) then 3
    else if pkReserved b then 2
    else if pkPassHdr b || s.pkLimit b then 5
    else if s.gfxLicence (pkType b) b then 6
    else 0

/-- VA ranges a packet names directly: pages that parse pre-translates (R217). -/
def pkPages (b : List Nat) : List Nat :=
  (match pkType b with
   | 1 => [fieldOf b 0x10 8, fieldOf b 0x18 8, fieldOf b 0x28 8, fieldOf b 0x30 8]
   | t => gfxPages t b).filter (· != 0) |>.map (fun va => va / 4096 * 4096) |>.eraseDups

/-- Awaits and signals of a packet's trailer; a RECORD's own signal comes last. -/
def pkAwaits (b : List Nat) : List PkAwait :=
  (List.range (min 8 (pkNa b))).map fun i => let e := pkEntry b i; { h := e.1, ign := bitB e.2.1 0, w := e.2.2 }
def pkSigs (b : List Nat) : List PkSig :=
  ((List.range (min 8 (pkNs b))).map fun i => let e := pkEntry b (pkNa b + i); ({ h := e.1, n := e.2.2 } : PkSig)) ++
  (if pkType b = 3 then [{ h := fieldOf b 16 4, n := fieldOf b 24 8, rec_ := true }] else [])

end Sys2Proof.Machine
end

