-- ==== Sys2Proof/Machine/Wsp.lean ====
section
/-!
DEFINITION. Wellspring's queues and packet window: doorbells, fetch, parse, commit, retire, and the packets that need no
Ember (R285 to R302, R308, R309, R321, R322).
-/

namespace Sys2Proof.Machine

/-! ## Queues and contexts -/

def State.q? (s : State) (q : Nat) : Option WspQ := s.wsp.qs.lookup q
def State.qPut (s : State) (q : Nat) (x : WspQ) : State := { s with wsp := { s.wsp with qs := Cells.put s.wsp.qs q x } }
def State.qMod (s : State) (q : Nat) (f : WspQ → WspQ) : State :=
  match s.q? q with | some x => s.qPut q (f x) | none => s

/-- The queue of a slot. -/
def State.slotQ (s : State) (slot : Nat) : Option (Nat × WspQ) := s.wsp.qs.find? fun p => p.2.slot == some slot

/-- STATE of a queue's record (R256), and writing it. -/
def State.qState (s : State) (q : Nat) : Nat := bitsOf (s.recNat 2 q 0 4) 0 2
def State.qSetState (s : State) (q st : Nat) : State :=
  let w := s.recNat 2 q 0 4
  s.recSet 2 q 0 4 (w - bitsOf w 0 2 + st)

def State.ctx? (s : State) (h : Nat) : Option WspCtx := s.wsp.ctxs.find? fun c => c.h == h

/-- Effective priority of a queue record under a context's PRIOMAX (R256). -/
def State.qPrio (s : State) (q priomax : Nat) : Nat := max (bitsOf (s.recNat 2 q 0 4) 2 2) priomax

/-- Ring size (R285). -/
def State.recRing (s : State) (q : Nat) : Nat := 2 ^ max 4 (min 16 (bitsOf (s.recNat 2 q 0x10 4) 0 5))

/-- HEAD and TAIL: of the queue while its state is held here, otherwise of its record. -/
def State.qHead (s : State) (q : Nat) : Nat := match s.q? q with | some x => x.head | none => s.recNat 2 q 0x14 4
def State.qTail (s : State) (q : Nat) : Nat := match s.q? q with | some x => x.tail | none => s.recNat 2 q 0x18 4

/-- The packets of the window, and of a queue. -/
def State.pk? (s : State) (id : Nat) : Option Pkt := s.wsp.win.find? fun p => p.id == id
def State.pkPut (s : State) (p : Pkt) : State :=
  { s with wsp := { s.wsp with win := s.wsp.win.map fun x => if x.id == p.id then p else x } }
def State.pkDel (s : State) (id : Nat) : State :=
  { s with wsp := { s.wsp with win := s.wsp.win.filter fun x => x.id != id } }
def State.pkOf (s : State) (q : Nat) : List Pkt := s.wsp.win.filter fun p => p.q == q

/-- Slot of a packet's queue, its DTU stream; 0xFF when not resident. -/
def State.pkSlot (s : State) (p : Pkt) : Nat := ((s.q? p.q).bind (·.slot)).getD 0xFF

/-- SUBID of a packet's submission. -/
def State.pkSub (s : State) (p : Pkt) : Option WspSub := (s.q? p.q).bind fun x => x.subs.find? fun u => u.idx == p.sub
def State.pkSubid (s : State) (p : Pkt) : Nat := ((s.pkSub p).map (·.subid)).getD 0

/-! ## Doorbells (R287, R288, R28) -/

/-- A dropped doorbell: counted and recorded. -/
def State.bellDrop (s : State) (h tail sub : Nat) (cause : Nat := 2) : State :=
  let s := s.incSat R.WSP_DB_ERR_COUNT
  let src := ((s.q? (hIdx h)).bind (·.slot)).getD 0xFF
  s.fault { cls := 4, cause, sub, src := if hDie h = s.die then src else 0xFF, d0 := h + tail * 2 ^ 32 }

/-- A teardown of this queue or its context runs, so its doorbells are dropped (R277 step 2). -/
def State.tdCovers (s : State) (q : Nat) : Bool :=
  match s.syn.td with
  | none => false
  | some t => if t.ctx then s.recNat 2 q 4 4 == t.handle else hDie t.handle == s.die && hIdx t.handle == q

/-- What is held of an evicted queue falls once its index holds a new generation. -/
def State.qFresh (s : State) (q h : Nat) : State :=
  match s.q? q with
  | some x => if x.slot.isNone && x.gen ≠ hGen h then { s with wsp := { s.wsp with qs := Cells.del s.wsp.qs q } } else s
  | none => s

/-- A doorbell at the die its handle names (R287). -/
def State.bellHere (s : State) (h tail page : Nat) : State :=
  let q := hIdx h
  if !s.flag R.WSP_CTL_EN then s.incSat R.WSP_DB_ERR_COUNT
  else match s.objCheck 2 h with
    | 0 =>
      let s := s.qFresh q h
      let head := s.qHead q
      let d := (tail + 2 ^ 32 - head) % 2 ^ 32
      if bitsOf (s.recNat 2 q 0x10 4) 16 8 ≠ page then s.bellDrop h tail 5
      else if s.qState q = 3 then s.bellDrop h tail 8
      else if d > s.recRing q then s.bellDrop h tail 6
      else if d < (s.qTail q + 2 ^ 32 - head) % 2 ^ 32 then s.bellDrop h tail 7
      else if s.tdCovers q then s
      else
        let s := { s with wsp := { s.wsp with bells := s.wsp.bells ++ [(q, tail, s.tb)] } }
        match s.q? q with
        | some x =>
          let s := s.qPut q { x with tail }
          if x.slot.isSome || s.wsp.runq.contains q then s
          else { s with wsp := { s.wsp with runq := s.wsp.runq ++ [q] } }
        | none =>
          let s := s.recSet 2 q 0x18 4 tail
          if s.wsp.runq.contains q then s else { s with wsp := { s.wsp with runq := s.wsp.runq ++ [q] } }
    | e => (s.incSat R.SYN_OBJERR_COUNT).bellDrop h tail e

/-- A doorbell written into this die's BAR2: forwarded when its handle names another die (R28). -/
def State.bell (s : State) (h tail page : Nat) : State :=
  if hDie h = s.die then s.bellHere h tail page
  else if s.memReach (hDie h) then
    s.chlOut (s.portTo (hDie h)) (hDie h) 0x14 [h, tail, page]
  else s.bellDrop h tail 1 5

/-- The high-word write of doorbell k in BAR2; any master may make it (R466). -/
def execDoorbell (m : Master) (k : BitVec 17) (handle tail : Word) (s : State) : Host.Outcome State Fault Refusal :=
  .next (s.openWrite m 0x500000 fun s => s.bell handle.toNat tail.toNat (k.toNat / 512))

/-! ## Fetch (R286, R289, R297) -/

/-- The queue may run ahead: enabled, active, not being torn down. -/
def State.qRuns (s : State) (q : Nat) : Bool :=
  s.flag R.WSP_CTL_EN && s.qState q == 1 && !s.tdCovers q && !((s.q? q).any (·.evict))

def State.raMax (s : State) : Nat := max 1 (min 256 (s.get R.WSP_CTL_RAMAX))

/-- The packets the window limits count (R299): a launch's nodes are part of their launch. -/
def State.winCount (s : State) : Nat := (s.wsp.win.filter fun p => p.parent.isNone).length
def State.winRoom (s : State) (q : Nat) : Bool :=
  s.winCount < 256 && ((s.pkOf q).filter fun p => p.parent.isNone).length < s.raMax

/-- TBASE of the doorbell that made submission i of a queue visible: the first whose TAIL lies beyond i (R321). -/
def State.bellTime (s : State) (q head i : Nat) : Nat :=
  match s.wsp.bells.find? fun b => b.1 == q && (b.2.1 + 2 ^ 32 - head) % 2 ^ 32 > (i + 2 ^ 32 - head) % 2 ^ 32 with
  | some b => b.2.2
  | none => s.tb

/-- The index of the next submission to fetch. -/
def WspQ.nextSub (x : WspQ) : Nat := match x.subs.getLast? with | some u => (u.idx + 1) % 2 ^ 32 | none => x.head

/-- An unrecoverable fault while fetching stops the queue (R289). -/
def State.fetchFail (s : State) (q : Nat) : State := s.qSetState q 2

/-- Read the next submission of a queue. -/
def State.fetchSub (s : State) (q slot : Nat) (x : WspQ) (ext : List Host.Cell) : State :=
  let i := x.nextSub
  match s.vaGet .wellspring [2, slot] slot .wspRead (x.rbase + i % 2 ^ x.lg * 32) 32 ext with
  | (s, .wait) => s
  | (s, .fail) => s.fetchFail q
  | (s, .ok b) =>
    let dl := fieldOf b 16 8
    let bt := s.bellTime q x.head i
    let dl := if dl ≠ 0 then dl else if x.dlrel ≠ 0 then bt + x.dlrel * usC else 0
    let u : WspSub := {
      idx := i, cbva := fieldOf b 0 8, cblen := fieldOf b 8 4, subid := fieldOf b 12 4, dl,
      after := bitB (fieldOf b 24 1) 0,
      next := if i = x.head then x.cboff else 0 }
    s.qMod q fun x => { x with subs := x.subs ++ [u] }

/-- A fetched packet enters the window. -/
def State.pkAdd (s : State) (q : Nat) (u : WspSub) (b : List Nat) (ref_ : Nat) (next : Nat) : State :=
  let p : Pkt := { id := s.wsp.nextId, q, sub := u.idx, off := u.next, bytes := b, ref_ }
  let s := { s with wsp := { s.wsp with win := s.wsp.win ++ [p], nextId := s.wsp.nextId + 1 } }
  s.qMod q fun x => { x with subs := x.subs.map fun v => if v.idx == u.idx then { v with next, cut := ref_ != 0 } else v }

/-- Read the next packet of a submission (R293: LEN 0, or beyond CBLEN, ends the buffer). -/
def State.fetchPkt (s : State) (q slot : Nat) (u : WspSub) (ext : List Host.Cell) : State :=
  let va := u.cbva + u.next
  match s.vaGet .wellspring [2, slot] slot .wspRead va 16 ext with
  | (s, .wait) => s
  | (s, .fail) => s.fetchFail q
  | (s, .ok h) =>
    let n := 16 * pkLen h
    if n = 0 || u.next + n > u.cblen then s.pkAdd q u h 7 u.cblen
    else match s.vaGet .wellspring [2, slot] slot .wspRead va n ext with
      | (s, .wait) => s
      | (s, .fail) => s.fetchFail q
      | (s, .ok b) => s.pkAdd q u b 0 (u.next + n)

/-- Wellspring reads the next submission or packet of the queue in a slot. `ext` holds, by VA, bytes of other memory. -/
def State.fetch (s : State) (slot : Nat) (ext : List Host.Cell) : State :=
  match s.slotQ slot with
  | none => s
  | some (q, x) =>
    if !s.qRuns q || !s.winRoom q then s
    else match x.subs.find? fun u => u.next < u.cblen with
      | some u => s.fetchPkt q slot u ext
      | none => if x.nextSub = x.tail then s else s.fetchSub q slot x ext

def execPacketFetch (slot : Fin 64) (ext : List Host.Cell) (s : State) : Host.Outcome State Fault Refusal :=
  .next (s.fetch slot ext)

/-! ## Parse (R293, R294, R297, R301, R302) -/

/-- An RP_BEGIN has an RP_END before the end of its command buffer (R325): walk the headers that follow it, to the KENTRY of
the RP_END. -/
def State.hasEnd (s : State) (slot : Nat) (u : WspSub) (ext : List Host.Cell) : Nat → Nat → State × VaRes (Option Nat)
  | 0, _ => (s, .ok none)
  | fuel + 1, off =>
    if off ≥ u.cblen then (s, .ok none)
    else match s.vaGet .wellspring [2, slot] slot .wspRead (u.cbva + off) 4 ext with
      | (s, .wait) => (s, .wait)
      | (s, .fail) => (s, .fail)
      | (s, .ok h) =>
        if pkType h = 0x23 then
          if pkLen h < 2 then (s, .ok (some 0))
          else match s.vaGet .wellspring [2, slot] slot .wspRead (u.cbva + off + 16) 8 ext with
            | (s, .wait) => (s, .wait)
            | (s, .fail) => (s, .fail)
            | (s, .ok b) => (s, .ok (some (ofBytes b)))
        else if pkLen h = 0 then (s, .ok none)
        else s.hasEnd slot u ext fuel (off + 16 * pkLen h)

/-- The fault of a packet in its pass (R325), given whether an RP_END follows. -/
def passFault (pass : Nat) (t : Nat) (ended : Bool) : Bool :=
  match t with
  | 0x20 => pass != 0 || !ended
  | 0x21 => pass == 0
  | 0x22 => pass != 2
  | 0x23 => pass == 0
  | _ => pass != 0

/-- The packets a packet depends on (R294, R295): by tag, by SERIAL, by AFTER; a render packet on its RP_BEGIN. -/
def State.pkFindDeps (s : State) (p : Pkt) (u : WspSub) : List Nat :=
  let mine := (s.pkOf p.q).filter fun x => x.parent.isNone
  let serial := if pkSerial p.bytes then (mine.filter fun x => x.sub == p.sub && x.off < p.off).map (·.id) else []
  let after := if u.after then (mine.filter fun x => x.sub != p.sub && x.id < p.id).map (·.id) else []
  let pass := if u.pass ≠ 0 && pkType p.bytes ≠ 0x20 then [u.passBegin] else []
  ((pkDeps p.bytes).filterMap fun t => u.tags.lookup t) ++ serial ++ after ++ pass

/-- Pin the pages a packet names; none when slots or the stream's limit are exhausted (R218). -/
def State.pinAll (s : State) (stream pasid : Nat) : List Nat → Option State
  | [] => some s
  | va :: vas => (s.pinTake stream pasid va).bind fun s => s.pinAll stream pasid vas

/-- Drop every pin of a packet. -/
def State.unpin (s : State) (p : Pkt) : State :=
  let stream := s.pkSlot p
  let pasid := (s.dtu.pasid.lookup stream).getD 0
  (p.pins.foldl (fun s va => s.pinDrop stream pasid va) s).pkPut { p with pins := [] }

/-- Whether a packet is expected to run while its predicate is unresolved (R302): its COND's HINT. -/
def State.predicted (s : State) (p : Pkt) : Bool :=
  match p.pred, p.predBy.bind s.pk? with
  | some v, _ => v
  | none, some c => bitB (fieldOf c.bytes 20 4) 8 != pkPneg p.bytes
  | none, none => true

/-- An RP_STATE needs an attachment its pass lacks (R330). -/
def State.stateNeeds (s : State) (u : WspSub) (b : List Nat) : Bool :=
  match s.gfx.passes.find? (fun p => p.id == u.passBegin), s.pk? u.passBegin with
  | some p, _ => rpStateNeeds p.body b
  | none, some p => rpStateNeeds p.bytes b
  | none, none => false

/-- Parse the oldest packet of a slot's queue that is fetched and not parsed. -/
def State.parse (s : State) (slot : Nat) (ext : List Host.Cell) : State :=
  match s.slotQ slot with
  | none => s
  | some (q, x) =>
    if !s.qRuns q then s
    else match (s.pkOf q).find? fun p => p.stage == .fetched with
      | none => s
      | some p =>
        match x.subs.find? fun u => u.idx == p.sub with
        | none => s
        | some u =>
          let b := p.bytes
          let t := pkType b
          match (if t = 0x20 && p.ref_ = 0 then s.hasEnd slot u ext (u.cblen / 16 + 1) (p.off + 16 * pkLen b) else (s, .ok (some 0))) with
          | (s, .wait) => s
          | (s, .fail) => s.fetchFail q
          | (s, .ok ended) =>
            let depMiss := (pkDeps b).any fun d => (u.tags.lookup d).isNone
            let f := s.pkFault b
            let ref_ := if p.ref_ ≠ 0 then p.ref_ else if f ≠ 0 && f < 4 then f else if depMiss then 4
              else if f ≠ 0 then f else if passFault u.pass t ended.isSome then 5
              else if t = 0x20 && ended.any (· ≠ 0) && !s.tileKern then 6
              else if t = 0x21 && s.stateNeeds u b then 5 else 0
            let pq := (u.preds.lookup (pkPq b)).getD (none, some false)
            let res := pq.2.map (· != pkPneg b)
            if pkPen b && res.isNone && !s.flag R.WSP_CTL_SPEC then s
            else
              let qd := bitsOf (fieldOf b 20 4) 0 3
              let p := { p with
                stage := .parsed, ref_, pass := if u.pass ≠ 0 && t ≠ 0x20 then u.passBegin else 0, deps := s.pkFindDeps p u,
                awaits := pkAwaits b, sigs := if ref_ = 7 then [] else pkSigs b,
                predBy := if pkPen b then pq.1 else none, pred := if pkPen b then res else some true,
                prev := if t = 2 then (u.preds.lookup qd).getD (none, some false) else (none, some false) }
              let u' := { u with
                tags := if pkTag b ≠ 0 then (pkTag b, p.id) :: u.tags.filter (fun e => e.1 != pkTag b) else u.tags,
                preds := if t = 2 then (qd, (some p.id, none)) :: u.preds.filter (fun e => e.1 != qd) else u.preds,
                pass := if t = 0x20 then 1 else if t = 0x23 then 0 else if t = 0x21 && u.pass ≥ 1 then 2 else u.pass,
                passBegin := if t = 0x20 then p.id else u.passBegin }
              let pasid := (s.dtu.pasid.lookup slot).getD 0
              let pages := if ref_ = 0 && s.predicted p then pkPages b else []
              match s.pinAll slot pasid pages with
              | none => s
              | some s =>
                (s.pkPut { p with pins := pages }).qMod q fun x =>
                  { x with subs := x.subs.map fun v => if v.idx == u.idx then u' else v }

def execPacketParse (slot : Fin 64) (ext : List Host.Cell) (s : State) : Host.Outcome State Fault Refusal :=
  .next (s.parse slot ext)

/-! ## Handles of a packet (R250, R268, R298) -/

/-- PERM (R268): the packet's context may wait on, or signal, object h of this die. -/
def State.objPerm (s : State) (p : Pkt) (h : Nat) (sig : Bool) : Bool :=
  match (s.q? p.q).bind fun x => s.ctx? x.ctx with
  | none => false
  | some c =>
    let o := s.synObj (hIdx h)
    (bitsOf o.w24 0 16 == hIdx c.h % 2 ^ 16 && bitsOf o.w24 16 3 == hDie c.h) ||
    (bitB o.w20 (if sig then 31 else 30) && bitsOf o.w28 0 16 != 0 && bitsOf o.w28 0 16 == c.group)

/-- Outcome of the checks of one handle of a packet: its failure code (0 passes, 4 PERM), or none while another die is
asked. -/
def State.pkHandle (s : State) (p : Pkt) (h : Nat) (sig : Bool) : Option Nat :=
  match s.objCheck 0 h with
  | 0 =>
    if hDie h = s.die then some (if s.objPerm p h sig then 0 else 4)
    else match p.chk.lookup h with
      | some (some r) => some (match r with | 0 => 0 | 1 => 2 | 2 => 3 | _ => 1)
      | _ => none
  | e => some e

/-- Every handle a packet names, with whether it is signalled. -/
def pkHandles (p : Pkt) : List (Nat × Bool) :=
  (p.awaits.map fun a => (a.h, false)) ++ (p.sigs.map fun g => (g.h, true)) ++
  (if pkType p.bytes = 2 then [(fieldOf p.bytes 16 4, false)] else [])

/-- Ask the home dies of those handles of a list that have not been asked about (R298). -/
def State.pkAsk (s : State) (p : Pkt) (hs : List (Nat × Bool)) : State :=
  let need := (hs.filter fun h => (s.pkHandle p h.1 h.2).isNone && (p.chk.lookup h.1).isNone).map (·.1) |>.eraseDups
  let s := s.pkPut { p with chk := p.chk ++ need.map fun h => (h, none) }
  need.foldl (fun s h => s.chlOut (s.portTo (hDie h)) (hDie h) 0x15 [h, 0]) s

/-! ## Failures -/

/-- A packet fails with a code; of two detected the first stands (R265). -/
def Pkt.fail (p : Pkt) (c : Nat) : Pkt := { p with err := if p.err = 0 then c else p.err }

/-- PACKET record of a packet. -/
def State.pkRecord (s : State) (p : Pkt) (cause : Nat) : State :=
  s.fault { cls := 5, cause, src := s.pkSlot p, d0 := p.q + s.pkSubid p * 2 ^ 32, d1 := p.off + pkType p.bytes * 2 ^ 32 }

/-- Undo a queue's uncommitted run-ahead (R300): its pins fall, nothing else remains. -/
def State.undo (s : State) (q : Nat) : State :=
  let l := (s.pkOf q).filter fun p => p.stage == .fetched || p.stage == .parsed
  let s := l.foldl (fun s p => (s.unpin p).pkDel p.id) s
  s.qMod q fun x =>
    let done := (s.pkOf q).map (·.sub)
    let subs := x.subs.filter fun u => done.contains u.idx || (u.idx + 2 ^ 32 - x.head) % 2 ^ 32 ≥ 2 ^ 31
    let ids := (s.pkOf q).map (·.id)
    let subs := subs.map fun u => if u.idx = x.head then
        { u with
          next := x.cboff, cut := false, tags := u.tags.filter fun t => !l.any fun p => p.id == t.2,
          preds := u.preds.map fun e => match e.2.1 with
            | some c => if l.any (fun p => p.id == c) then (e.1, (none, some false)) else e
            | none => e,
          pass := if ids.contains u.passBegin then u.pass else 0 }
      else u
    { x with subs }

/-- ABORT as an ERRPOL, or a driver's command, names a context for teardown; while one runs it waits. -/
def State.tdWant (s : State) (ctx : Nat) : State :=
  if s.syn.td.any (fun t => t.handle == ctx && t.ctx) || s.syn.tdq.contains ctx then s
  else { s with syn := { s.syn with tdq := s.syn.tdq ++ [ctx] } }

/-- ERRPOL and FAILS of a packet that failed (R265), as it retires. -/
def State.failPolicy (s : State) (p : Pkt) : State :=
  match (s.q? p.q).bind fun x => s.ctx? x.ctx with
  | none => s
  | some c =>
    let s := if hDie c.h = s.die then
        s.recSet 1 (hIdx c.h) 0x0C 4 (min (2 ^ 32 - 1) (s.recNat 1 (hIdx c.h) 0x0C 4 + 1)) else s
    if p.err = 5 || p.err = 6 || p.err = 8 then s
    else match c.errpol with
      | 0 => s
      | 1 => if s.qState p.q = 1 then (s.qSetState p.q 2).undo p.q else s
      | _ => s.tdWant c.h

/-! ## Retire (R296, R322) -/

/-- The code a packet's signals carry: its error, LATE past its deadline, or 0; a RECORD's own carries the queue's. -/
def State.pkCode (s : State) (p : Pkt) (g : PkSig) : Nat :=
  if p.err ≠ 0 then p.err
  else if g.rec_ && ((s.q? p.q).map (·.recErr)).getD 0 ≠ 0 then ((s.q? p.q).map (·.recErr)).getD 0
  else match s.pkSub p with
    | some u => if u.dl ≠ 0 && s.tb > u.dl then 0x8002 else 0
    | none => 0

/-- Drop the submissions all of whose packets have retired. -/
def State.subsTrim (s : State) (q : Nat) : State :=
  s.qMod q fun x =>
    { x with
      subs := x.subs.filter (fun u => u.next < u.cblen || (s.pkOf q).any fun p => p.sub == u.idx),
      tIdle := if (s.pkOf q).isEmpty && x.head == x.tail then s.tb else x.tIdle }

/-- A packet retires: its signals are performed once, its pins fall, its dependents see its failure. -/
def State.pkRetire (s : State) (p : Pkt) : State :=
  let s := (p.sigs.filter (·.ok)).foldl (fun s g => s.synSignal g.h g.n (s.pkCode p g)) s
  let s := p.awaits.zipIdx.foldl (fun s a => s.satTake (p.id * 8 + a.2)) s
  let failed := p.err ≠ 0
  let s := (s.unpin p).pkDel p.id
  let s := if pkType p.bytes = 3 then s.qMod p.q fun x => { x with recErr := 0 } else s
  let s := if failed then
      let s := s.qMod p.q fun x => { x with
        failed := (p.sub, p.id) :: x.failed, recErr := if x.recErr = 0 then p.err else x.recErr }
      (if p.parent.isSome then s else s.failPolicy p)
    else s
  s.subsTrim p.q

/-- A packet whose work is complete retires; a graph's launch waits for its nodes (R312), a node reports to its launch. -/
def State.retire (s : State) (id : Nat) : State :=
  match s.pk? id with
  | none => s
  | some p =>
    if p.stage != .done || s.wsp.win.any (fun x => x.parent.map (·.1) == some id) || ((s.q? p.q).bind (·.slot)).isNone then s
    else
      let s := match p.parent with
        | some (l, _) => if p.err = 0 then s else match s.pk? l with
          | some g => s.pkPut (g.fail p.err)
          | none => s
        | none => s
      let s := s.pkRetire p
      match p.parent with
      | some (l, _) => if s.wsp.win.any (fun x => x.parent.map (·.1) == some l) then s
          else (match s.pk? l with | some g => s.pkPut { g with stage := .done } | none => s)
      | none => s

/-! ## Readiness (R291, R296, R301) -/

/-- Take the outcomes of a packet's awaits that have come. -/
def State.pkPoll (s : State) (p : Pkt) : State × Pkt :=
  let aw := p.awaits.zipIdx.map fun a => match a.1.out with
    | some _ => a.1
    | none => { a.1 with out := s.satOf (p.id * 8 + a.2) }
  let p := { p with awaits := aw }
  (s.pkPut p, p)

/-- What stands of a committed packet: not ready (none), or ready with its failure code (0 none) (R266, R296). Packets of a
queue that is not resident wait for its return (R274). -/
def State.pkReady (s : State) (p : Pkt) : Option Nat :=
  let par := p.parent.bind fun l => s.pk? l.1
  if p.stage != .committed || ((s.q? p.q).bind (·.slot)).isNone then none
  else if par.any fun g => g.stage == .committed then none
  else if par.any fun g => g.stage == .done && g.err ≠ 0 then some 5
  else if p.deps.any fun d => (s.pk? d).isSome then none
  else if p.awaits.any fun a => a.out.isNone then none
  else if pkType p.bytes = 3 && !p.nop &&
      ((s.pkOf p.q).any fun x => x.id < p.id && x.parent.isNone && (x.stage == .committed || x.stage == .running || x.stage == .done)) then none
  else if (((s.q? p.q).map (·.failed)).getD []).any fun f => p.deps.contains f.2 ||
      (pkSerial p.bytes && f.1 == p.sub && f.2 < p.id) ||
      (((s.pkSub p).map (·.after)).getD false && f.1 != p.sub && f.2 < p.id) then some 5
  else if p.awaits.any fun a => !a.ign && (match a.out with | some (_, e) => e | none => false) then some 5
  else some 0

/-- Run packet `id` when it is ready and of type `t` (0 for a packet turned into a NOP): a failed dependency or await ends it
with DEP_ERROR and goes on with `lost`, otherwise `body` runs it. -/
def State.pkRun (s : State) (id t : Nat) (body : State → Pkt → State) (lost : State → Pkt → State := fun s _ => s) : State :=
  match s.pk? id with
  | none => s
  | some p =>
    if (if p.nop then 0 else pkType p.bytes) ≠ t then s
    else
      let (s, p) := s.pkPoll p
      match s.pkReady p with
      | none => s
      | some 0 => body s p
      | some e => lost (s.pkPut { p.fail e with stage := .done }) p

/-- A NOP, or a packet whose predicate is false (R292, R301): complete once ready. -/
def execPktNop (id : BitVec 32) (s : State) : Host.Outcome State Fault Refusal :=
  .next (s.pkRun id.toNat 0 fun s p => s.pkPut { p with stage := .done })

/-- A RECORD completes once every earlier committed packet of its queue has retired (R308); its signal follows as it
retires. -/
def execPktRecord (id : BitVec 32) (s : State) : Host.Outcome State Fault Refusal :=
  .next (s.pkRun id.toNat 3 fun s p => s.pkPut { p with stage := .done })

/-- The bytes a WRITE stores: its words, or TBASE in place of each (R309). -/
def State.pktBytes (s : State) (b : List Nat) : List Nat :=
  let n := bitsOf (fieldOf b 24 4) 0 4
  if bitB (fieldOf b 24 4) 4 then (List.range n).flatMap fun _ => toBytes 8 s.tb else (b.drop 32).take (8 * n)

/-- A WRITE stores its bytes (R309). -/
def State.pktWrite (s : State) (p : Pkt) : State :=
  s.chlAs p.id none fun s =>
    match s.vaPut .wellspring [4, p.id] (s.pkSlot p) .store (fieldOf p.bytes 16 8) (s.pktBytes p.bytes) with
    | (s, .wait) => s
    | (s, .fail) => s.pkPut { p.fail 2 with stage := .done }
    | (s, .ok _) => s.pkPut { p with stage := .done }

def execPktWrite (id : BitVec 32) (s : State) : Host.Outcome State Fault Refusal :=
  .next (s.pkRun id.toNat 4 fun s p => s.pktWrite p)

/-! ## COND (R301, R302) -/

/-- The predicate written by COND c is v: packets that name it learn it; each corrected prediction counts. -/
def State.predSet (s : State) (c : Pkt) (v : Bool) : State :=
  let users := s.wsp.win.filter fun p => p.predBy == some c.id && p.pred.isNone
  let hint := bitB (fieldOf c.bytes 20 4) 8
  let s := users.foldl (fun s p =>
    let runs := v != pkPneg p.bytes
    let guess := hint != pkPneg p.bytes
    let s := s.pkPut { p with pred := some runs }
    if runs == guess || p.stage != .parsed || !s.flag R.WSP_CTL_SPEC then s
    else
      let s := s.incSat R.WSP_MISPRED_COUNT
      if guess then s.unpin { p with pred := some runs }
      else
        let stream := s.pkSlot p
        let pages := pkPages p.bytes
        match s.pinAll stream ((s.dtu.pasid.lookup stream).getD 0) pages with
        | some s => s.pkPut { p with pred := some runs, pins := pages }
        | none => s) s
  s.qMod c.q fun x => { x with subs := x.subs.map fun u => { u with
    preds := u.preds.map fun e => if e.2.1 == some c.id then (e.1, (e.2.1, some v)) else e } }

/-- A COND that does not run leaves the predicate as it was: what depends on it depends on the COND before. -/
def State.predPass (s : State) (c : Pkt) : State :=
  match c.prev with
  | (_, some v) => s.predSet c v
  | (by_, none) =>
    let fix := fun (p : Pkt) => if p.predBy == some c.id && p.pred.isNone then { p with predBy := by_ } else p
    let s := { s with wsp := { s.wsp with win := s.wsp.win.map fix } }
    s.qMod c.q fun x => { x with subs := x.subs.map fun u => { u with
      preds := u.preds.map fun e => if e.2.1 == some c.id then (e.1, (by_, none)) else e } }

/-- What a COND's OP says of an object's VALUE and ERR (R301). -/
def condTrue (b : List Nat) (value err : Nat) : Bool :=
  let v := fieldOf b 24 8
  match bitsOf (fieldOf b 20 4) 4 3 with
  | 0 => decide (value ≥ v)
  | 1 => decide (value < v)
  | 2 => value == v
  | 3 => value != v
  | _ => isErr err

/-- COND reads VALUE and ERR once, as a whole; of an object of another die they are what that die answers. -/
def State.pktCond (s : State) (p : Pkt) (rv re : Nat) : State :=
  let h := fieldOf p.bytes 16 4
  let r := if hDie h = s.die then condTrue p.bytes (s.synObj (hIdx h)).value (s.synObj (hIdx h)).err else condTrue p.bytes rv re
  (s.predSet p r).pkPut { p with stage := .done }

/-- A COND that fails leaves its predicate false (R301). -/
def execPktCond (id : BitVec 32) (value : DWord) (err : BitVec 16) (s : State) : Host.Outcome State Fault Refusal :=
  .next (s.pkRun id.toNat 2 (fun s p => s.pktCond p value.toNat err.toNat) fun s p => s.predSet p false)

/-! ## Commit (R298) -/

/-- The packet is the queue's oldest that has not committed; HEAD and CBOFF pass it. -/
def State.commitMove (s : State) (p : Pkt) : State :=
  let s := s.qMod p.q fun x =>
    match x.subs.find? fun u => u.idx == p.sub with
    | none => x
    | some u =>
      let next := if p.ref_ = 7 then u.cblen else p.off + 16 * pkLen p.bytes
      if next ≥ u.cblen then { x with head := (p.sub + 1) % 2 ^ 32, cboff := 0 } else { x with cboff := next }
  let head := s.qHead p.q
  { s with wsp := { s.wsp with
    bells := s.wsp.bells.filter fun b => b.1 != p.q || (b.2.1 + 2 ^ 32 - head - 1) % 2 ^ 32 < 2 ^ 31 } }

/-- Register the awaits of a packet and make its signals pending (R262). -/
def State.commitSync (s : State) (p : Pkt) : State :=
  let s := p.awaits.zipIdx.foldl (fun s a => s.synWait a.1.h a.1.w (p.id * 8 + a.2)) s
  (p.sigs.filter (·.ok)).foldl (fun s g => s.synPend g.h g.n) s

/-- A refusal takes effect (R251, R293): the record, then the packet is done with REFUSED. -/
def State.commitRefuse (s : State) (p : Pkt) : State :=
  let bad := (pkHandles p).findSome? fun h => match s.pkHandle p h.1 h.2 with
    | some 0 => none
    | some e => some (h.1, e)
    | none => none
  let s := if p.ref_ ≠ 0 then s.pkRecord p p.ref_
    else match bad with
      | some (h, e) => s.fault {
          cls := 4, cause := 1, sub := e, src := s.pkSlot p, d0 := h, d1 := s.pkSubid p + p.off * 2 ^ 32 }
      | none => s
  let sigs := p.sigs.map fun g => { g with ok := s.pkHandle p g.h true == some 0 }
  let p := { p.fail 7 with sigs, stage := .done, awaits := [] }
  let s := ((sigs.filter (·.ok)).foldl (fun s g => s.synPend g.h g.n) s).pkPut p
  let s := if pkType p.bytes = 2 then s.predSet p false else s
  s.commitMove p

/-- Commit a packet that is not refused; with its predicate false it becomes a NOP (R301). -/
def State.commitOk (s : State) (p : Pkt) (graph : Option Nat) : State :=
  let t := pkType p.bytes
  let off := p.pass ≠ 0 && ((s.pkSub p).map (·.passNop)).getD false
  let p := { p with stage := .committed, nop := p.pred == some false || off, graph, tc := s.tb }
  let s := (s.commitSync p).pkPut p
  let mark := fun (u : WspSub) => if t = 0x20 && u.idx == p.sub then { u with passNop := p.nop } else u
  let s := s.qMod p.q fun x => { x with subs := x.subs.map mark }
  let s := if p.nop && pkType p.bytes = 2 then s.predPass p else s
  s.commitMove p

/-! ## Deadlines (R321) -/

/-- The oldest submission of a queue that has packets not yet retired, or not yet fetched. -/
def State.watched (s : State) (q : Nat) : Option WspSub :=
  (s.q? q).bind fun x => x.subs.head?

/-- The cause of a miss: it fell before the queue became resident, or the state of the submission's oldest unretired packet. -/
def State.missCause (s : State) (q : Nat) (u : WspSub) : Nat :=
  if ((s.q? q).map (·.tRes)).getD 0 ≥ u.dl then 1
  else match (s.pkOf q).find? fun p => p.sub == u.idx with
  | none => 2
  | some p => match p.stage with
    | .fetched | .parsed => 2
    | .committed => 3
    | .done => 4
    | .running => if p.launch.any fun l => l.saved > 0 && l.live == 0 then 5 else 4

/-- Record a deadline miss of a queue's submission. -/
def State.missRecord (s : State) (q : Nat) (u : WspSub) (cause : Nat) : State :=
  let s := s.qMod q fun x => { x with
    dlmiss := min (2 ^ 32 - 1) (x.dlmiss + 1),
    subs := x.subs.map fun v => if v.idx == u.idx then { v with missed := true } else v }
  (s.incSat R.WSP_DLMISS_COUNT).fault {
    cls := 6, cause, src := ((s.q? q).bind (·.slot)).getD 0xFF, d0 := u.dl, d1 := u.subid + q * 2 ^ 32 }

/-- TBASE passes the deadline that a slot's queue watches. -/
def execQueueDeadlineMiss (slot : Fin 64) (s : State) : Host.Outcome State Fault Refusal :=
  .next (match s.slotQ slot with
    | none => s
    | some (q, _) => match s.watched q with
      | none => s
      | some u => if u.dl ≠ 0 && s.tb > u.dl && !u.missed then s.missRecord q u (s.missCause q u) else s)

end Sys2Proof.Machine
end

