-- ==== Sys2Proof/Machine/EmbCore.lean ====
section
/-!
DEFINITION. The Ember's shared operations: blocks, founding cohorts, threads and their registers, issue entries, waiting at
reconvergence points, the issue of an instruction, and the fault of a block (R29 to R53, R60, R71 to R77, R106, R107).
-/

namespace Sys2Proof.Machine

/-! ## Access to an Ember's state -/

def State.em (s : State) (e : Nat) : Ember := Cells.get {} s.emb e
def State.emPut (s : State) (e : Nat) (x : Ember) : State := { s with emb := Cells.set {} s.emb e x }

def State.blk? (s : State) (e b : Nat) : Option Block := (s.em e).blocks.lookup b
def Ember.blkPut (x : Ember) (b : Nat) (k : Block) : Ember := { x with blocks := Cells.put x.blocks b k }
def State.blkPut (s : State) (e b : Nat) (k : Block) : State := s.emPut e ((s.em e).blkPut b k)
def State.blkMod (s : State) (e b : Nat) (f : Block → Block) : State :=
  match s.blk? e b with | some k => s.blkPut e b (f k) | none => s

/-- Logical Ember e exists and its domain is on (R59, R62). -/
def State.embOn (s : State) (e : Nat) : Bool := e < s.embCount && s.domOn (16 + e)

/-- Count n events of a kind (R68). -/
def State.embEvt (s : State) (e ev n : Nat) : State :=
  if n = 0 then s
  else
    let sel := [s.get R.EMB_PERF_SEL_SEL0 e, s.get R.EMB_PERF_SEL_SEL1 e, s.get R.EMB_PERF_SEL_SEL2 e, s.get R.EMB_PERF_SEL_SEL3 e]
    (List.range 4).foldl (fun s j =>
      if sel[j]? == some ev then s.set R.EMB_PERF_COUNT (s.get R.EMB_PERF_COUNT e j + n) e j else s) s

/-! ## Masks and threads -/

/-- Lanes of a mask, ascending. -/
def lanesOf (m : Nat) : List Nat := (List.range 32).filter fun l => bitB m l

/-- Mask of lanes. -/
def maskOf (l : List Nat) : Nat := l.foldl (fun m i => m ||| 1 <<< i) 0

/-- Remove the lanes of b from a. -/
def andNot (a b : Nat) : Nat := a - (a &&& b)

/-- A thread of a block: (founding cohort, founding lane). -/
abbrev Thr := Nat × Nat

/-- Threads of an entry in ascending (founding cohort, founding lane) order. -/
def Entry.threads (e : Entry) : List Thr := e.parts.flatMap fun p => (lanesOf p.2).map fun l => (p.1, l)

/-! ## Founding cohorts -/

def Cohort.lane (c : Cohort) (l : Nat) : LaneSt := Cells.get .dead c.lanes l
def Cohort.setLane (c : Cohort) (l : Nat) (x : LaneSt) : Cohort := { c with lanes := Cells.set .dead c.lanes l x }
def Cohort.setLanes (c : Cohort) (m : Nat) (x : LaneSt) : Cohort := (lanesOf m).foldl (fun c l => c.setLane l x) c
def Cohort.pc (c : Cohort) (l : Nat) : Nat := Cells.get 0 c.pcs l
def Cohort.setPc (c : Cohort) (l pc : Nat) : Cohort := { c with pcs := Cells.set 0 c.pcs l pc }
def Cohort.setPcs (c : Cohort) (m pc : Nat) : Cohort := (lanesOf m).foldl (fun c l => c.setPc l pc) c

/-- Live lanes of a cohort. -/
def Cohort.live (c : Cohort) : Nat := maskOf ((List.range 32).filter fun l => c.lane l != .dead)

/-- Predicates of a lane as a byte. -/
def Cohort.preds (c : Cohort) (l : Nat) : Nat := Cells.get 0 c.p l
def Cohort.pred (c : Cohort) (l k : Nat) : Bool := bitB (c.preds l) k
def Cohort.setPred (c : Cohort) (l k : Nat) (v : Bool) : Cohort := { c with p := Cells.set 0 c.p l (putBit (c.preds l) k v) }

/-- Vector register r of a lane. -/
def Cohort.vGet (c : Cohort) (r l : Nat) : Nat := (Cells.get (0 : BitVec 32) c.v (r * 32 + l)).toNat
def Cohort.vSet (c : Cohort) (r l x : Nat) : Cohort := { c with v := Cells.set 0 c.v (r * 32 + l) (BitVec.ofNat 32 x) }
/-- Uniform register. -/
def Cohort.uGet (c : Cohort) (r : Nat) : Nat := (Cells.get (0 : BitVec 32) c.u r).toNat
def Cohort.uSet (c : Cohort) (r x : Nat) : Cohort := { c with u := Cells.set 0 c.u r (BitVec.ofNat 32 x) }

/-- A selector's operand for a lane (R71): v, u, or rz, which reads as zero. -/
def Cohort.rd (c : Cohort) (l sel : Nat) : Nat :=
  if sel < 0x100 then c.vGet sel l else if sel < 0x140 then c.uGet (sel - 0x100) else 0

/-- Write a selector for a lane; a write to rz is discarded (R71). -/
def Cohort.wr (c : Cohort) (l sel x : Nat) : Cohort :=
  if sel < 0x100 then c.vSet sel l x else if sel < 0x140 then c.uSet (sel - 0x100) x else c

/-- A register group's value, the lowest register least significant (R72); rz gives zero. -/
def Cohort.rdGroup (c : Cohort) (l sel : Nat) : Nat → Nat
  | 0 => 0
  | n + 1 => c.rd l sel + 2 ^ 32 * c.rdGroup l (if sel < 0x140 then sel + 1 else sel) n

/-- Write a register group. -/
def Cohort.wrGroup (c : Cohort) (l sel x : Nat) : Nat → Cohort
  | 0 => c
  | n + 1 => (c.wr l sel x).wrGroup l (if sel < 0x140 then sel + 1 else sel) (x / 2 ^ 32) n

/-! ## Blocks -/

def Block.coh (k : Block) (c : Nat) : Cohort := (k.cohorts.lookup c).getD { sched := 0 }
def Block.cohPut (k : Block) (c : Nat) (x : Cohort) : Block := { k with cohorts := Cells.put k.cohorts c x }
def Block.cohMod (k : Block) (c : Nat) (f : Cohort → Cohort) : Block :=
  k.cohPut c (f (k.coh c))

/-- What the launch, or for a fragment cohort its draw, gives a founding cohort. -/
def Block.infoOf (k : Block) (c : Nat) : LInfo := (k.coh c).info.getD k.info

def Block.rd (k : Block) (t : Thr) (sel : Nat) : Nat := (k.coh t.1).rd t.2 sel
def Block.wr (k : Block) (t : Thr) (sel x : Nat) : Block := k.cohMod t.1 fun c => c.wr t.2 sel x
def Block.rdGroup (k : Block) (t : Thr) (sel n : Nat) : Nat := (k.coh t.1).rdGroup t.2 sel n
def Block.wrGroup (k : Block) (t : Thr) (sel x n : Nat) : Block := k.cohMod t.1 fun c => c.wrGroup t.2 sel x n
def Block.pred (k : Block) (t : Thr) (p : Nat) : Bool := (k.coh t.1).pred t.2 p
def Block.setPred (k : Block) (t : Thr) (p : Nat) (v : Bool) : Block := k.cohMod t.1 fun c => c.setPred t.2 p v
def Block.pcOf (k : Block) (t : Thr) : Nat := (k.coh t.1).pc t.2

/-- Live threads of a block. -/
def Block.liveThreads (k : Block) : List Thr := k.cohorts.flatMap fun c => (lanesOf c.2.live).map fun l => (c.1, l)

/-- Registers a thread's outstanding accesses will write. -/
def Block.pendRegs (k : Block) (t : Thr) : List Nat :=
  k.pend.flatMap fun a => if a.coh == t.1 && a.lane == t.2 then
    (match a.k with
     | .load dv n _ _ => (List.range n).map (dv + ·)
     | .atomic _ dv n _ _ _ true => (List.range n).map (dv + ·)
     | _ => [])
  else []

/-- sr_pathmask (R43): the live lanes on a lane's side of every split still recorded. -/
def Cohort.pathmask (c : Cohort) (l : Nat) : Nat :=
  (c.levels.filter fun v => !v.serial).foldl (fun m v => match v.sides.find? fun x => bitB x l with
    | some x => m &&& x
    | none => m) c.live

/-! ## Issue entries -/

def Block.sched (k : Block) (c : Nat) : Nat := (k.coh c).sched

/-- A free issue entry of a scheduler. -/
def Ember.freeSlot (x : Ember) (sched : Nat) : Option Nat :=
  ((List.range 32).map (sched * 32 + ·)).find? fun i => (x.entries.lookup i).isNone

/-- Threads of one founding cohort take a free issue entry of their scheduler, or wait for one. -/
def Ember.enter (x : Ember) (b c m : Nat) : Ember :=
  if m = 0 then x
  else match x.blocks.lookup b with
    | none => x
    | some k => match x.freeSlot (k.sched c) with
      | some i => { x.blkPut b (k.cohMod c fun q => q.setLanes m .run) with
          entries := Cells.put x.entries i { blk := b, parts := [(c, m)], stamp := x.stamp }, stamp := x.stamp + 1 }
      | none => { x.blkPut b (k.cohMod c fun q => q.setLanes m .want) with wants := x.wants ++ [(b, c, m)] }

/-- An entry is freed; the group that has waited longest for one of its scheduler takes it. -/
def Ember.freeEntry (x : Ember) (i : Nat) : Ember :=
  let x := { x with entries := Cells.del x.entries i, first := x.first.filter fun p => p.2 != i }
  match x.wants.find? fun g => ((x.blocks.lookup g.1).map fun k => k.sched g.2.1) == some (i / 32) with
  | some g => { x with wants := x.wants.erase g }.enter g.1 g.2.1 g.2.2
  | none => x

/-- Take lanes of a founding cohort out of an entry, freeing it when none are left. -/
def Ember.leave (x : Ember) (i c m : Nat) : Ember :=
  match x.entries.lookup i with
  | none => x
  | some e =>
    let parts := (e.parts.map fun p => if p.1 == c then (p.1, andNot p.2 m) else p).filter fun p => p.2 != 0
    if parts.isEmpty then x.freeEntry i
    else { x with entries := Cells.put x.entries i { e with parts } }

/-- Lanes of a cohort that stand at a recorded reconvergence point of their own (R40). -/
def Cohort.atPoint (c : Cohort) (m : Nat) : Nat :=
  maskOf ((lanesOf m).filter fun l => c.levels.any fun v => v.addr == c.pc l && v.sides.any fun x => bitB x l)

/-- The threads of an entry that reached a reconvergence point leave it and wait there (R40, R47). -/
def Ember.arrive (x : Ember) (i : Nat) : Ember :=
  match x.entries.lookup i with
  | none => x
  | some e => e.parts.foldl (fun (x : Ember) (p : Nat × Nat) =>
      match x.blocks.lookup e.blk with
      | none => x
      | some k =>
        let m := (k.coh p.1).atPoint p.2
        if m = 0 then x else (x.blkPut e.blk (k.cohMod p.1 fun c => c.setLanes m .recon)).leave i p.1 m) x

/-- The threads of an entry go to an address; those at a reconvergence point wait there. -/
def Ember.goto (x : Ember) (i pc : Nat) : Ember :=
  match x.entries.lookup i with
  | none => x
  | some e => match x.blocks.lookup e.blk with
    | none => x
    | some k =>
      let k := e.parts.foldl (fun (k : Block) p => k.cohMod p.1 fun c => c.setPcs p.2 pc) k
      ({ x.blkPut e.blk k with entries := Cells.put x.entries i { e with done := [] } }).arrive i

/-- Start lanes of a cohort at an address: they wait at once when it is a reconvergence point of theirs. -/
def Ember.start (x : Ember) (b c m pc : Nat) : Ember :=
  match x.blocks.lookup b with
  | none => x
  | some k =>
    let k := k.cohMod c fun q => q.setPcs m pc
    let w := (k.coh c).atPoint m
    let x := x.blkPut b (if w = 0 then k else k.cohMod c fun q => q.setLanes w .recon)
    x.enter b c (andNot m w)

/-! ## Resolving a level (R40, R41) -/

/-- What the innermost level that can go on does: its live threads wait at its point or have exited, apart from held sides.
`heldOnly` limits it to starting held sides. -/
inductive Resolve where
  | start (idx : Nat) (m pc : Nat)
  | base (m pc : Nat)
  | join (idx : Nat) (m pc : Nat)
  deriving DecidableEq, Repr

def Level.mask (v : Level) : Nat := v.sides.foldl (· ||| ·) 0

/-- The first thing a cohort's table allows, innermost level first. -/
def Cohort.resolve (c : Cohort) (heldOnly : Bool) : Option Resolve :=
  let lv := c.levels.zipIdx.reverse.findSome? fun (v, i) =>
    let live := v.mask &&& c.live
    let held := v.held.foldl (fun m h => m ||| h.1) 0
    let arr := maskOf ((lanesOf live).filter fun l => c.lane l == .recon && c.pc l == v.addr)
    if andNot (andNot live held) arr ≠ 0 then none
    else match v.held with
      | h :: _ => some (.start i h.1 h.2)
      | [] => if heldOnly then none else some (.join i arr v.addr)
  match lv with
  | some r => some r
  | none =>
    let held := c.held.foldl (fun m h => m ||| h.1) 0
    match c.held with
    | h :: _ => if andNot c.live held = 0 then some (.base h.1 h.2) else none
    | [] => none

/-- Do one thing a cohort's table allows. -/
def Ember.resolve (x : Ember) (b c : Nat) (heldOnly : Bool) : Ember :=
  match x.blocks.lookup b with
  | none => x
  | some k => match (k.coh c).resolve heldOnly with
    | none => x
    | some (.start i m pc) =>
      let f := fun (v : Level) => { v with held := v.held.drop 1 }
      (x.blkPut b (k.cohMod c fun q => { q with levels := q.levels.modify i f })).start b c (m &&& (k.coh c).live) pc
    | some (.base m pc) =>
      (x.blkPut b (k.cohMod c fun q => { q with held := q.held.drop 1 })).start b c (m &&& (k.coh c).live) pc
    | some (.join i m pc) =>
      (x.blkPut b (k.cohMod c fun q => { q with levels := q.levels.eraseIdx i })).start b c m pc

/-! ## Splitting (R40, R41, R91, R92) -/

/-- Split an entry into sides (address, threads), the first keeping the entry; `rc`: the reconvergence point to record. -/
def Ember.split (x : Ember) (i : Nat) (sides : List (Nat × List Thr)) (rc : Option Nat) : Ember :=
  match x.entries.lookup i with
  | none => x
  | some e => match x.blocks.lookup e.blk with
    | none => x
    | some k =>
      let part := fun (ts : List Thr) => (e.parts.map fun p => (p.1, maskOf ((ts.filter fun t => t.1 == p.1).map (·.2)))).filter fun p => p.2 != 0
      let full := rc.isSome && e.parts.any fun p => ((k.coh p.1).levels.filter fun v => !v.serial).length ≥ 8
      -- record the level in every founding cohort of the entry; beyond 8 it only serialises the sides (R41)
      let k := match rc with
        | some a => e.parts.foldl (fun (k : Block) p => k.cohMod p.1 fun c =>
            { c with levels := c.levels ++ [{ addr := a, sides := (sides.map fun q => maskOf ((q.2.filter fun t => t.1 == p.1).map (·.2))).filter (· != 0), serial := full }] }) k
        | none => k
      match sides with
      | [] => x
      | (pc0, t0) :: rest =>
        let x := { x.blkPut e.blk k with entries := Cells.put x.entries i { e with parts := part t0, done := [] } }
        -- the other sides take free entries, or are held
        let x := rest.foldl (fun (x : Ember) (q : Nat × List Thr) =>
          match x.blocks.lookup e.blk with
          | none => x
          | some k =>
            let ps := part q.2
            match (if full then none else x.freeSlot (i / 32)) with
            | some j =>
              let k := ps.foldl (fun (k : Block) p => k.cohMod p.1 fun c => c.setPcs p.2 q.1) k
              ({ x.blkPut e.blk k with
                entries := Cells.put x.entries j { blk := e.blk, parts := ps, stamp := x.stamp }, stamp := x.stamp + 1 }).arrive j
            | none =>
              let hold := fun (p : Nat × Nat) (c : Cohort) =>
                let c := (c.setPcs p.2 q.1).setLanes p.2 .held
                let own := c.levels.zipIdx.reverse.find? fun v => v.1.mask &&& p.2 != 0
                match own with
                | some (_, n) => { c with levels := c.levels.modify n fun v => { v with held := v.held ++ [(p.2, q.1)] } }
                | none => { c with held := c.held ++ [(p.2, q.1)] }
              x.blkPut e.blk (ps.foldl (fun (k : Block) p => k.cohMod p.1 (hold p)) k)) x
        x.goto i pc0

/-! ## Outstanding accesses, faults and termination (R54, R60) -/

/-- Name of an Ember access at the DTU. -/
def accId (e id : Nat) : List Nat := [10, e, id]

/-- Cancel outstanding accesses of a block at the DTU. -/
def State.accCancel (s : State) (e : Nat) (l : List PendAcc) : State :=
  if l.isEmpty then s else s.vaCancel fun id => match id with
    | 10 :: e' :: n :: _ => e' == e && l.any fun a => a.id == n
    | _ => false

/-- An issued returning atomic is waited for; loads and parked accesses are cancelled (R54, R227). -/
def PendAcc.issued (a : PendAcc) : Bool := a.loc.isSome && (match a.k with | .atomic .. => true | _ => false)

/-- A packet, or a render pass, fails with a code (R265); a terminated block's launch places no more blocks. -/
def State.workFail (s : State) (pk code : Nat) (stop : Bool) : State :=
  if s.gfx.passes.any fun p => p.id == pk then
    let f := fun (p : Pass) => if p.id == pk && p.err == 0 then { p with err := code } else p
    { s with gfx := { s.gfx with passes := s.gfx.passes.map f } }
  else match s.pk? pk with
  | none => s
  | some p =>
    let p := p.fail code
    s.pkPut (if stop then { p with launch := p.launch.map fun l => { l with stop := true } } else p)

/-- Entries of a block are given up: their threads stop issuing. -/
def Ember.clearBlock (x : Ember) (b : Nat) : Ember :=
  let ids := (x.entries.filter fun e => e.2.blk == b).map (·.1)
  let x := { x with wants := x.wants.filter fun g => g.1 != b }
  ids.foldl (fun (x : Ember) i => x.freeEntry i) x

/-- Texture accesses that a block's entries wait with are given up. -/
def State.texCancel (s : State) (e b : Nat) : State :=
  let ids := ((s.em e).entries.filter fun x => x.2.blk == b).map (·.1)
  s.vaCancel fun id => match id with
    | 12 :: e' :: n :: _ => e' == e && ids.contains n
    | _ => false

/-- A block is terminated (R60): issue stops, its loads are cancelled, its launch fails with EXEC_FAULT; its resources are
released by BLOCK_TERMINATION. -/
def State.terminate (s : State) (e b : Nat) (t : Term) : State :=
  match s.blk? e b with
  | none => s
  | some k =>
    if k.term.isSome then s
    else
      let drop := k.pend.filter fun a => !a.issued
      let s := ((s.accCancel e drop).texCancel e b).vaCancel fun id => match id with
        | 11 :: e' :: n :: _ => e' == e && k.copies.any fun c => c.id == n
        | _ => false
      let s := s.blkPut e b { k with
        term := some t, pend := k.pend.filter (·.issued), copies := [], bars := [],
        cohorts := k.cohorts.map fun c => (c.1, { c.2 with levels := [], held := [] }) }
      let s := s.emPut e ((s.em e).clearBlock b)
      if t.quiet then s else s.workFail k.info.pk 1 true

/-! ## Guards and operands (R69, R71, R74) -/

def iOp (w : Nat) : Nat := bitsOf w 56 8
def iGe (w : Nat) : Bool := bitB w 55
def iF (w : Nat) : Bool := bitB w 50
def iD (w : Nat) : Nat := bitsOf w 41 9
def iA (w : Nat) : Nat := bitsOf w 32 9
def iB (w : Nat) : Nat := bitsOf w 23 9
def iC (w : Nat) : Nat := bitsOf w 14 9
def iMod (w : Nat) : Nat := bitsOf w 0 14
def iImm (w : Nat) : Nat := bitsOf w 0 32

/-- The instruction executes for a thread (R74). -/
def Block.guard (k : Block) (w : Nat) (t : Thr) : Bool := !iGe w || (k.pred t (bitsOf w 51 3) != bitB w 54)

def selIllegal (s : Nat) : Bool := 0x140 ≤ s && s < 0x1FF
def selIsU (s : Nat) : Bool := 0x100 ≤ s && s < 0x140
def selIsV (s : Nat) : Bool := s < 0x100

/-- A register operand of an instruction: a selector and the registers of its group. -/
structure Opnd where
  sel : Nat
  n : Nat := 1
  deriving DecidableEq, Repr

/-- Decode-time sub-causes of an operand: illegal selector, group not aligned (R71, R72). -/
def Opnd.bad (o : Opnd) : List Nat :=
  (if selIllegal o.sel then [3] else []) ++
  (if o.sel < 0x140 && o.sel % o.n ≠ 0 then [4] else [])

/-- A condition and the decode-time sub-cause it gives. -/
def badIf (b : Bool) (sub : Nat) : List Nat := if b then [sub] else []

/-- The lowest decode-time sub-cause found (R107); 0: none. -/
def lowest (l : List Nat) : Nat := l.foldl (fun m x => if m = 0 || x < m then x else m) 0

/-! ## Issue (R38, R77, R106, R107) -/

/-- What decoding finds of an instruction: its word with OP, the decode-time sub-causes, its register operands, how many
words it takes, and whether it accesses memory. -/
structure Ins where
  w : Nat
  bad : List Nat := []
  ops : List Opnd := []
  words : Nat := 1
  mem : Bool := false

/-- A thread has an acquire that is not performed yet: its later accesses wait (R159). -/
def Block.acquiring (k : Block) (t : Thr) : Bool := k.pend.any fun p => p.coh == t.1 && p.lane == t.2 && p.acq

/-- An execution-time fault of a thread: CAUSE and SUB, AUX (R106). -/
structure XFault where
  cause : Nat
  sub : Nat := 0
  aux : Nat := 0
  deriving DecidableEq, Repr

def xIll (sub : Nat) : XFault := { cause := 5, sub }
def xCal : XFault := { cause := 3 }
def xBasin : XFault := { cause := 4 }

/-- Rank of execution-time faults (R107; log entry 26): numbered sub-causes, then CAL_RANGE and BASIN_RANGE. -/
def XFault.rank (f : XFault) : Nat := if f.cause = 5 then f.sub else 0x100 + f.cause

/-- The fault to report among those of the threads: the lowest rank, then the lowest thread. -/
def pickFault : List (Thr × Option XFault) → Option (Thr × XFault)
  | [] => none
  | (t, f) :: l => match f, pickFault l with
    | none, r => r
    | some f, none => some (t, f)
    | some f, some (t', f') => if f'.rank < f.rank then some (t', f') else some (t, f)

/-- What the instruction at the head of an entry may do: nothing now, terminate its block, or run for its threads. -/
inductive Issue where
  | stall
  | fault (b : Nat) (t : Term)
  | go (b : Nat) (k : Block) (en : Entry) (act : List Thr) (pc : Nat)

/-- The checks of an instruction at issue. `xf` gives a thread's execution-time fault beyond REG_RANGE. -/
def State.check (s : State) (e slot : Nat) (i : Ins) (xf : Block → Thr → Option XFault) : Issue :=
  let x := s.em e
  match x.entries.lookup slot with
  | none => .stall
  | some en => match x.blocks.lookup en.blk, en.threads with
    | some k, t0 :: _ =>
      let ts := en.threads
      let pc := k.pcOf t0
      if !s.embOn e || s.flag R.EMB_CTL_HALT e || k.term.isSome || en.parts.any (fun p => k.stopped.contains p.1) then .stall
      else if (x.first.lookup (slot / 32)).any (· != slot) then .stall
      else
        let term := fun (t : Thr) (f : XFault) => Issue.fault en.blk {
          cause := f.cause, sub := f.sub, aux := f.aux, pc, coh := t.1, lane := t.2 }
        let sub := lowest (i.bad ++ badIf (i.words = 2 && pc % 16 ≠ 0) 6)
        if sub ≠ 0 then term t0 (xIll sub)
        else
          let act := ts.filter fun t => k.guard i.w t && !en.done.contains t
          let regs := (i.ops.filter fun o => selIsV o.sel).flatMap fun o => (List.range o.n).map (o.sel + ·)
          if act.any fun t => (i.mem && k.acquiring t) || (k.pendRegs t).any fun r => regs.contains r then .stall
          else
              match act.find? fun t => regs.any (· ≥ (k.infoOf t.1).n) with
              | some t => term t { cause := 1 }
              | none => match pickFault (act.map fun t => (t, xf k t)) with
                | some (t, f) => term t f
                | none => .go en.blk k en act pc
    | _, _ => .stall

/-- Bookkeeping of an issue: the age limit is served, the events are counted (R38, R68). -/
def State.issued (s : State) (e slot : Nat) (en : Entry) : State :=
  let x := s.em e
  let s := s.emPut e { x with first := x.first.filter fun p => p.2 != slot }
  let s := s.embEvt e 2 1
  if en.parts.length > 1 then s.embEvt e 6 en.threads.length else s

/-- Issue an instruction that changes only its block, then go on to the next instruction. -/
def State.issuePlain (s : State) (e slot : Nat) (i : Ins) (xf : Block → Thr → Option XFault)
    (f : Block → Entry → List Thr → Block) : State :=
  match s.check e slot i xf with
  | .stall => s
  | .fault b t => s.terminate e b t
  | .go b k en act pc =>
    let s := (s.blkPut e b (f k en act)).issued e slot en
    s.emPut e ((s.em e).goto slot ((pc + 8 * i.words) % 2 ^ 64))

/-- Issue an instruction that acts on the state; none: it stalls at issue. -/
def State.issue (s : State) (e slot : Nat) (i : Ins) (xf : Block → Thr → Option XFault)
    (f : State → Nat → Entry → List Thr → Nat → Option State) : State :=
  match s.check e slot i xf with
  | .stall => s
  | .fault b t => s.terminate e b t
  | .go b _ en act pc => match f s b en act pc with
    | none => s
    | some s => s.issued e slot en

/-- Issue an instruction that may change the state and still stall at issue; the flag says that it issued. -/
def State.issueWait (s : State) (e slot : Nat) (i : Ins) (xf : Block → Thr → Option XFault)
    (f : State → Nat → Entry → List Thr → Nat → State × Bool) : State :=
  match s.check e slot i xf with
  | .stall => s
  | .fault b t => s.terminate e b t
  | .go b _ en act pc => match f s b en act pc with
    | (s, false) => s
    | (s, true) => s.issued e slot en

/-- Go on to the next instruction. -/
def State.nextPc (s : State) (e slot pc words : Nat) : State := s.emPut e ((s.em e).goto slot ((pc + 8 * words) % 2 ^ 64))

def noFault (_ : Block) (_ : Thr) : Option XFault := none

end Sys2Proof.Machine
end

