-- ==== Sys2Proof/Machine/Sfu.lean ====
section
/-!
DEFINITION. Special functions (R82). The spec bounds their error and fixes no result: each result is the exact function's
value, moved by a free value within the bound and rounded toward the exact value (log entry 25).
-/

namespace Sys2Proof.Machine

/-- Fixed point with 96 fraction bits: ln 2, 2π, 100π, log2 e. -/
def fixLn2 : Nat := 54916777467707473351141471128
def fixTwoPi : Nat := 497805226624462170461043889244
def fix100Pi : Nat := 24890261331223108523052194462201
def fixLog2e : Nat := 114302077158074026402637675936
def fixOne : Nat := 2 ^ 96

/-- A finite value as fixed point, cut toward −∞. -/
def fixOf (n : Bool) (m : Nat) (e : Int) : Int :=
  let x : Int := shl m (e + 96); if n then -x else x

/-- Sum of y^k / k! from term k on. -/
def expSeries : Nat → Nat → Int → Int → Int
  | 0, _, _, _ => 0
  | fuel + 1, k, t, y => t + expSeries fuel (k + 1) (t * y / fixOne / ((k : Int) + 1)) y

/-- 2^x for a fixed-point x, as magnitude and exponent. -/
def exp2Fix (x : Int) : Int × Int :=
  let n := x / fixOne
  let f := x % fixOne
  (expSeries 40 0 fixOne (f * fixLn2 / fixOne), n - 96)

/-- Fraction bits of log2 of a fixed-point number in [1, 2). -/
def log2Bits : Nat → Nat → Nat → Nat
  | 0, _, acc => acc
  | k + 1, x, acc =>
    let y := x * x / fixOne
    if y ≥ 2 * fixOne then log2Bits k (y / 2) (2 * acc + 1) else log2Bits k y (2 * acc)

/-- log2 of m × 2^e, with 60 fraction bits. -/
def log2Fix (m : Nat) (e : Int) : Int :=
  let k := Nat.log2 m
  ((k : Int) + e) * 2 ^ 60 + log2Bits 60 (shl m (96 - (k : Int))) 0

/-- Alternating series of sine (from t = y, k = 1) and cosine (from t = 1, k = 0). -/
def trigSeries : Nat → Nat → Int → Int → Int
  | 0, _, _, _ => 0
  | fuel + 1, k, t, y => t + trigSeries fuel (k + 2) (-(t * y / fixOne * y / fixOne) / (((k : Int) + 1) * ((k : Int) + 2))) y

def sinFix (x : Int) : Int := let y := x % fixTwoPi; trigSeries 32 1 y y
def cosFix (x : Int) : Int := trigSeries 32 0 fixOne (x % fixTwoPi)

/-- tanh of a magnitude in fixed point. -/
def tanhFix (x : Int) : Int :=
  let (m, e) := exp2Fix (-(2 * x * fixLog2e / fixOne))
  let q := shl m.toNat (e + 96)
  ((fixOne : Int) - q) * fixOne / ((fixOne : Int) + q)

/-- The value v × 2^e moved by d × 2^b, |d| ≤ 1 given by the free number `fr`, rounded toward v × 2^e, subnormal results
flushed. -/
def sfuRes (v : Int) (e : Int) (b : Int) (fr : Nat) : Nat :=
  let d : Int := (fr : Int) - 2 ^ 31
  let w := (Fv.ofInt v e).add .rne (Fv.ofInt d (b - 31))
  f32.flush (f32.enc (if d ≥ 0 then .rdn else .rup) w)

/-- Exponent of one ulp of v × 2^e. -/
def ulpOf (v e : Int) : Int := f32.ulpExp v.natAbs e

/-- The special functions, in opcode order. -/
inductive Sfu where
  | rcp | rsq | sqrt | exp2 | log2 | sin | cos | tanh
  deriving DecidableEq, Repr

def f32One : Nat := 0x3F800000

/-- Result of a special function on an FP32 operand, given a free 32-bit number. Infinities, zeros and NaNs give the exact
function's IEEE 754 results; beyond 100π sine and cosine give some value in [−1, 1]. -/
def Sfu.eval (k : Sfu) (a : Nat) (fr : Nat) : Nat :=
  match k, f32.dec (f32.flush a) with
  | _, .nan => f32.nanCode
  | .rcp, .inf n => signBit f32 n
  | .rcp, .fin n 0 _ => signBit f32 n ||| f32.infCode
  | .rcp, .fin n m e =>
    let (q, k) := ratio 1 m
    signBit f32 n ||| sfuRes q (k - e) (ulpOf q (k - e)) fr
  | .rsq, .inf n => if n then f32.nanCode else 0
  | .rsq, .fin n 0 _ => signBit f32 n ||| f32.infCode
  | .rsq, .fin n m e =>
    if n then f32.nanCode
    else
      let (m, e) := if e % 2 = 0 then (m, e) else (2 * m, e - 1)
      let v : Int := isqrt (2 ^ 160 / m)
      let q := -80 - e / 2
      sfuRes v q (ulpOf v q + 1) fr
  | .sqrt, .inf n => if n then f32.nanCode else f32.infCode
  | .sqrt, .fin n 0 _ => signBit f32 n
  | .sqrt, .fin n m e =>
    if n then f32.nanCode
    else
      let (m, e) := if e % 2 = 0 then (m, e) else (2 * m, e - 1)
      let v : Int := isqrt (m * 2 ^ 100)
      let q := e / 2 - 50
      sfuRes v q (ulpOf v q) fr
  | .exp2, .inf n => if n then 0 else f32.infCode
  | .exp2, .fin n m e =>
    if m = 0 then f32One
    else if (Nat.log2 m : Int) + e ≥ 8 then (if n then 0 else f32.infCode)
    else
      let (v, q) := exp2Fix (fixOf n m e)
      sfuRes v q (ulpOf v q + 1) fr
  | .log2, .inf n => if n then f32.nanCode else f32.infCode
  | .log2, .fin _ 0 _ => signBit f32 true ||| f32.infCode
  | .log2, .fin n m e =>
    if n then f32.nanCode
    else
      let v := log2Fix m e
      let x := (Nat.log2 m : Int) + e
      let near := x = -1 || x = 0 || (x = 1 && m = 2 ^ Nat.log2 m)
      sfuRes v (-60) (if near then -22 else ulpOf v (-60) + 1) fr
  | .sin, .inf _ | .cos, .inf _ => f32.nanCode
  | .sin, .fin n m e =>
    if m = 0 then signBit f32 n
    else if (Nat.log2 m : Int) + e ≥ 9 || (fixOf n m e).natAbs > fix100Pi then sfuRes 0 0 0 fr
    else sfuRes (sinFix (fixOf n m e)) (-96) (-21) fr
  | .cos, .fin n m e =>
    if m = 0 then f32One
    else if (Nat.log2 m : Int) + e ≥ 9 || (fixOf n m e).natAbs > fix100Pi then sfuRes 0 0 0 fr
    else sfuRes (cosFix (fixOf n m e)) (-96) (-21) fr
  | .tanh, .inf n => signBit f32 n ||| f32One
  | .tanh, .fin n m e =>
    if m = 0 then signBit f32 n
    else
      let v := if (Nat.log2 m : Int) + e ≥ 6 then (fixOne : Int) else tanhFix (fixOf false m e)
      sfuRes (if n then -v else v) (-96) (-20) fr

end Sys2Proof.Machine
end

