-- ==== Sys2Proof/Machine/EmbAlu.lean ====
section
/-!
DEFINITION. Ember instructions of classes 0x0 to 0x4 and the moves of class 0xB that stay within a thread (R75, R76, R78 to
R84). Each takes the Ember, the issue entry that issues it, and bits [55:0] of its word as fetched (log entry 27).
-/

namespace Sys2Proof.Machine

/-- A whole first word: OP over the 56 bits a command carries. -/
def word56 (op : Nat) (w : BitVec 56) : Nat := op * 2 ^ 56 + w.toNat

/-! ## The ALU and ALI formats (R75) -/

/-- Operand shape of an ALU instruction: whether ALI is accepted, the number of sources (A, B, C), the MOD bits it uses,
whether it has a destination register, and whether some source is neither a u register, an immediate nor rz. -/
structure AluShape where
  ali : Bool := true
  nsrc : Nat := 2
  use : Nat := 0
  dst : Bool := true
  other : Bool := false

/-- Sources of a word: selectors, and whether B is the immediate. In ALI form C is the register D names. -/
def AluShape.srcs (h : AluShape) (w : Nat) : List Nat :=
  if iF w then (if h.nsrc ≥ 1 then [iA w] else []) ++ (if h.nsrc ≥ 3 then [iD w] else [])
  else [iA w, iB w, iC w].take h.nsrc

/-- Decode-time findings of the common fields of an ALU or ALI word. -/
def AluShape.ins (h : AluShape) (w : Nat) (more : List Nat := []) : Ins :=
  let srcs := h.srcs w
  let regs := (if h.dst then [({ sel := iD w } : Opnd)] else []) ++ srcs.map fun s => { sel := s }
  let cls := iOp w / 16
  {
    w,
    ops := regs,
    bad := badIf (iF w && !h.ali) 1 ++
      (if iF w then badIf (h.nsrc = 0 && iA w ≠ 0) 2
       else badIf ((h.nsrc < 1 && iA w ≠ 0) || (h.nsrc < 2 && iB w ≠ 0) || (h.nsrc < 3 && iC w ≠ 0) ||
         andNot (iMod w) h.use ≠ 0) 2) ++
      regs.flatMap Opnd.bad ++
      badIf (h.dst && selIsU (iD w) && (iGe w || h.other || !([0, 1, 2, 3, 0xB].contains cls) ||
        srcs.any fun s => !(selIsU s || s = 0x1FF))) 5 ++ more }

/-- MOD as the instruction sees it: zero in ALI form. -/
def modOf (w : Nat) : Nat := if iF w then 0 else iMod w

/-- Operands of a thread: a; b or the immediate; c, which in ALI form is D's register. -/
def aOf (w : Nat) (k : Block) (t : Thr) : Nat := k.rd t (iA w)
def bOf (w : Nat) (k : Block) (t : Thr) : Nat := if iF w then iImm w else k.rd t (iB w)
def cOf (w : Nat) (k : Block) (t : Thr) : Nat := if iF w then k.rd t (iD w) else k.rd t (iC w)

/-- Issue an instruction that writes D with a function of the thread's operands, each thread's result from the registers as
they were before the instruction. -/
def State.alu (s : State) (e slot : Nat) (h : AluShape) (w : Nat) (more : List Nat) (f : Block → Thr → Nat) : State :=
  s.issuePlain e slot (h.ins w more) noFault fun k _ act => act.foldl (fun k' t => k'.wr t (iD w) (f k t)) k

/-- Issue an instruction that writes a predicate. -/
def State.aluP (s : State) (e slot : Nat) (h : AluShape) (w : Nat) (more : List Nat) (pd : Nat)
    (f : Block → Thr → Bool) : State :=
  s.issuePlain e slot (h.ins w more) noFault fun k _ act => act.foldl (fun k' t => k'.setPred t pd (f k t)) k

/-! ## Integer (R78, R79) -/

def mSgn : Nat := 0x200
def mSat : Nat := 0x100
def mHi : Nat := 0x80

/-- Reading of a 32-bit operand under SGN. -/
def ival (sg : Bool) (x : Nat) : Int := if sg then sgn 32 x else x

/-- Wrap to 32 bits, or clamp to the range SGN selects under SAT. -/
def iwrap (sat sg : Bool) (i : Int) : Nat :=
  if sat then
    let lo : Int := if sg then -2 ^ 31 else 0
    let hi : Int := if sg then 2 ^ 31 - 1 else 2 ^ 32 - 1
    unsgn 32 (max lo (min hi i))
  else unsgn 32 i

def iadd (m a b : Nat) : Nat := iwrap (bitB m 8) (bitB m 9) (ival (bitB m 9) a + ival (bitB m 9) b)
def isub (m a b : Nat) : Nat := iwrap (bitB m 8) (bitB m 9) (ival (bitB m 9) a - ival (bitB m 9) b)
def imul (m a b : Nat) : Nat :=
  if bitB m 7 then unsgn 32 (ival (bitB m 9) a * ival (bitB m 9) b / 2 ^ 32) else a * b % 2 ^ 32
def imad (a b c : Nat) : Nat := (a * b + c) % 2 ^ 32
def imin (m a b : Nat) : Nat := if ival (bitB m 9) a ≤ ival (bitB m 9) b then a else b
def imax (m a b : Nat) : Nat := if ival (bitB m 9) b ≤ ival (bitB m 9) a then a else b
def ishl (a b : Nat) : Nat := if b ≥ 32 then 0 else (a <<< b) % 2 ^ 32
def ishr (m a b : Nat) : Nat := if bitB m 9 then unsgn 32 (sgn 32 a / 2 ^ min b 32) else if b ≥ 32 then 0 else a >>> b
/-- Leading zeros of the low n bits. -/
def clzN : Nat → Nat → Nat
  | 0, _ => 0
  | n + 1, a => if bitB a n then 0 else 1 + clzN n a
def ibfe (m a b : Nat) : Nat :=
  let p := bitsOf b 0 8
  let n := bitsOf b 8 8
  let x := if bitB m 9 then unsgn 32 (sgn 32 a / 2 ^ p) else a >>> p
  if n = 0 then 0
  else if bitB m 9 then (if n ≥ 32 then x else unsgn 32 (sgn n x)) else x % 2 ^ min n 32

def isetp (cond : Nat) (sg : Bool) (a b : Nat) : Bool := condOrd cond (compare (ival sg a) (ival sg b))

/-- setp's fields (R78): COND, signedness, pd, and the bits of D that must be zero. -/
def setpCond (w : Nat) : Nat := if iF w then bitsOf w 46 4 else bitsOf w 10 4
def setpZero (w : Nat) (sg : Bool) : Bool :=
  if iF w then bitB w 44 || (!sg && bitB w 45) else bitsOf w 44 6 != 0

def execIadd (e : Fin 16) (slot : Fin 128) (w : BitVec 56) (s : State) : Host.Outcome State Fault Refusal :=
  let w := word56 0x00 w
  .next (s.alu e slot { use := mSgn + mSat } w [] fun k t => iadd (modOf w) (aOf w k t) (bOf w k t))

def execIsub (e : Fin 16) (slot : Fin 128) (w : BitVec 56) (s : State) : Host.Outcome State Fault Refusal :=
  let w := word56 0x01 w
  .next (s.alu e slot { use := mSgn + mSat } w [] fun k t => isub (modOf w) (aOf w k t) (bOf w k t))

def execImul (e : Fin 16) (slot : Fin 128) (w : BitVec 56) (s : State) : Host.Outcome State Fault Refusal :=
  let w := word56 0x02 w
  .next (s.alu e slot { use := mSgn + mHi } w [] fun k t => imul (modOf w) (aOf w k t) (bOf w k t))

def execImad (e : Fin 16) (slot : Fin 128) (w : BitVec 56) (s : State) : Host.Outcome State Fault Refusal :=
  let w := word56 0x03 w
  .next (s.alu e slot { nsrc := 3 } w [] fun k t => imad (aOf w k t) (bOf w k t) (cOf w k t))

def execImin (e : Fin 16) (slot : Fin 128) (w : BitVec 56) (s : State) : Host.Outcome State Fault Refusal :=
  let w := word56 0x04 w
  .next (s.alu e slot { use := mSgn } w [] fun k t => imin (modOf w) (aOf w k t) (bOf w k t))

def execImax (e : Fin 16) (slot : Fin 128) (w : BitVec 56) (s : State) : Host.Outcome State Fault Refusal :=
  let w := word56 0x05 w
  .next (s.alu e slot { use := mSgn } w [] fun k t => imax (modOf w) (aOf w k t) (bOf w k t))

def execAnd (e : Fin 16) (slot : Fin 128) (w : BitVec 56) (s : State) : Host.Outcome State Fault Refusal :=
  let w := word56 0x06 w
  .next (s.alu e slot {} w [] fun k t => aOf w k t &&& bOf w k t)

def execOr (e : Fin 16) (slot : Fin 128) (w : BitVec 56) (s : State) : Host.Outcome State Fault Refusal :=
  let w := word56 0x07 w
  .next (s.alu e slot {} w [] fun k t => aOf w k t ||| bOf w k t)

def execXor (e : Fin 16) (slot : Fin 128) (w : BitVec 56) (s : State) : Host.Outcome State Fault Refusal :=
  let w := word56 0x08 w
  .next (s.alu e slot {} w [] fun k t => aOf w k t ^^^ bOf w k t)

def execShl (e : Fin 16) (slot : Fin 128) (w : BitVec 56) (s : State) : Host.Outcome State Fault Refusal :=
  let w := word56 0x09 w
  .next (s.alu e slot {} w [] fun k t => ishl (aOf w k t) (bOf w k t))

def execShr (e : Fin 16) (slot : Fin 128) (w : BitVec 56) (s : State) : Host.Outcome State Fault Refusal :=
  let w := word56 0x0A w
  .next (s.alu e slot { use := mSgn } w [] fun k t => ishr (modOf w) (aOf w k t) (bOf w k t))

def execPopc (e : Fin 16) (slot : Fin 128) (w : BitVec 56) (s : State) : Host.Outcome State Fault Refusal :=
  let w := word56 0x0B w
  .next (s.alu e slot { ali := false, nsrc := 1 } w [] fun k t => popc 32 (aOf w k t))

def execClz (e : Fin 16) (slot : Fin 128) (w : BitVec 56) (s : State) : Host.Outcome State Fault Refusal :=
  let w := word56 0x0C w
  .next (s.alu e slot { ali := false, nsrc := 1 } w [] fun k t => clzN 32 (aOf w k t))

def execBfe (e : Fin 16) (slot : Fin 128) (w : BitVec 56) (s : State) : Host.Outcome State Fault Refusal :=
  let w := word56 0x0D w
  .next (s.alu e slot { use := mSgn } w [] fun k t => ibfe (modOf w) (aOf w k t) (bOf w k t))

def execSetpI (e : Fin 16) (slot : Fin 128) (w : BitVec 56) (s : State) : Host.Outcome State Fault Refusal :=
  let w := word56 0x0E w
  let sg := if iF w then bitB w 45 else bitB w 9
  .next (s.aluP e slot { dst := false, use := 0x3C00 + mSgn } w
    (badIf (setpZero w true) 2 ++ badIf (setpCond w ≥ 6) 8) (bitsOf w 41 3) fun k t =>
      isetp (setpCond w) sg (aOf w k t) (bOf w k t))

def execSel (e : Fin 16) (slot : Fin 128) (w : BitVec 56) (s : State) : Host.Outcome State Fault Refusal :=
  let w := word56 0x0F w
  .next (s.alu e slot { ali := false, use := 0xF, other := true } w [] fun k t =>
    if k.pred t (bitsOf w 0 3) != bitB w 3 then aOf w k t else bOf w k t)

/-! ## FP32 (R80, R81) -/

def mRnd : Nat := 0x300
def mFtz : Nat := 0x80
def mFsat : Nat := 0x40
def mNeg : Nat := 0x30
def mNc : Nat := 0x8
def mAbs : Nat := 0x6

def modRnd (m : Nat) : Rnd := Rnd.of (bitsOf m 8 2)

/-- An operand with its modifiers: FTZ, absolute value, then negation. -/
def fopnd (f : Ffmt) (ftz ab ng : Bool) (c : Nat) : Fv :=
  let v := f.dec (if ftz then f.flush c else c)
  let v := if ab then v.abs else v
  if ng then v.neg else v

def fa (f : Ffmt) (m c : Nat) : Fv := fopnd f (bitB m 7) (bitB m 2) (bitB m 5) c
def fb (f : Ffmt) (m c : Nat) : Fv := fopnd f (bitB m 7) (bitB m 1) (bitB m 4) c
def fc (f : Ffmt) (m c : Nat) : Fv := fopnd f (bitB m 7) false (bitB m 3) c

/-- A result: one rounding, SAT, FTZ. -/
def fres (f : Ffmt) (m : Nat) (v : Fv) : Nat :=
  let c := f.enc (modRnd m) v
  let c := if bitB m 6 then f.enc .rne (f.dec c).sat else c
  if bitB m 7 then f.flush c else c

def fpAdd (f : Ffmt) (m a b : Nat) : Nat := fres f m ((fa f m a).add (modRnd m) (fb f m b))
def fpMul (f : Ffmt) (m a b : Nat) : Nat := fres f m ((fa f m a).mul (fb f m b))
def fpFma (f : Ffmt) (m a b c : Nat) : Nat := fres f m (((fa f m a).mul (fb f m b)).add (modRnd m) (fc f m c))
def fpMinMax (f : Ffmt) (mx : Bool) (m a b : Nat) : Nat := fres f m (Fv.minMax mx (fa f m a) (fb f m b))
def fpSetp (f : Ffmt) (m cond a b : Nat) : Bool := Fv.cond cond (fa f m a) (fb f m b)

/-- A function of FP16 halves on both halves of a register (R76 class 0x2). -/
def half2 (g : Nat → Nat → Nat → Nat) (a b c : Nat) : Nat :=
  g (a % 2 ^ 16) (b % 2 ^ 16) (c % 2 ^ 16) + 2 ^ 16 * g (a / 2 ^ 16) (b / 2 ^ 16) (c / 2 ^ 16)

def mFp : Nat := mRnd + mFtz + mFsat + mNeg + mAbs
def mHp : Nat := mRnd + mFsat + mNeg + mAbs

def execFadd (e : Fin 16) (slot : Fin 128) (w : BitVec 56) (s : State) : Host.Outcome State Fault Refusal :=
  let w := word56 0x10 w
  .next (s.alu e slot { use := mFp } w [] fun k t => fpAdd f32 (modOf w) (aOf w k t) (bOf w k t))

def execFmul (e : Fin 16) (slot : Fin 128) (w : BitVec 56) (s : State) : Host.Outcome State Fault Refusal :=
  let w := word56 0x11 w
  .next (s.alu e slot { use := mFp } w [] fun k t => fpMul f32 (modOf w) (aOf w k t) (bOf w k t))

def execFfma (e : Fin 16) (slot : Fin 128) (w : BitVec 56) (s : State) : Host.Outcome State Fault Refusal :=
  let w := word56 0x12 w
  .next (s.alu e slot { nsrc := 3, use := mFp + mNc } w [] fun k t =>
    fpFma f32 (modOf w) (aOf w k t) (bOf w k t) (cOf w k t))

def execFmin (e : Fin 16) (slot : Fin 128) (w : BitVec 56) (s : State) : Host.Outcome State Fault Refusal :=
  let w := word56 0x13 w
  .next (s.alu e slot { use := mFp - mRnd } w [] fun k t => fpMinMax f32 false (modOf w) (aOf w k t) (bOf w k t))

def execFmax (e : Fin 16) (slot : Fin 128) (w : BitVec 56) (s : State) : Host.Outcome State Fault Refusal :=
  let w := word56 0x14 w
  .next (s.alu e slot { use := mFp - mRnd } w [] fun k t => fpMinMax f32 true (modOf w) (aOf w k t) (bOf w k t))

/-- Decode-time findings of a floating-point setp (R78, R80). -/
def setpFBad (w : Nat) : List Nat := badIf (setpZero w false) 2 ++ badIf (setpCond w = 6 || setpCond w = 7) 8

def execSetpF (e : Fin 16) (slot : Fin 128) (w : BitVec 56) (s : State) : Host.Outcome State Fault Refusal :=
  let w := word56 0x15 w
  .next (s.aluP e slot { dst := false, use := 0x3C00 + mFtz + mNeg + mAbs } w (setpFBad w) (bitsOf w 41 3) fun k t =>
    fpSetp f32 (modOf w) (setpCond w) (aOf w k t) (bOf w k t))

def execFrnd (e : Fin 16) (slot : Fin 128) (w : BitVec 56) (s : State) : Host.Outcome State Fault Refusal :=
  let w := word56 0x16 w
  .next (s.alu e slot { ali := false, nsrc := 1, use := mRnd + mFtz + mFsat + 0x20 + 4 } w [] fun k t =>
    let m := modOf w
    fres f32 m ((fa f32 m (aOf w k t)).integral (modRnd m)))

/-! ## Packed FP16 -/

def execHadd2 (e : Fin 16) (slot : Fin 128) (w : BitVec 56) (s : State) : Host.Outcome State Fault Refusal :=
  let w := word56 0x20 w
  .next (s.alu e slot { use := mHp } w [] fun k t =>
    half2 (fun a b _ => fpAdd f16 (modOf w) a b) (aOf w k t) (bOf w k t) 0)

def execHmul2 (e : Fin 16) (slot : Fin 128) (w : BitVec 56) (s : State) : Host.Outcome State Fault Refusal :=
  let w := word56 0x21 w
  .next (s.alu e slot { use := mHp } w [] fun k t =>
    half2 (fun a b _ => fpMul f16 (modOf w) a b) (aOf w k t) (bOf w k t) 0)

def execHfma2 (e : Fin 16) (slot : Fin 128) (w : BitVec 56) (s : State) : Host.Outcome State Fault Refusal :=
  let w := word56 0x22 w
  .next (s.alu e slot { nsrc := 3, use := mHp + mNc } w [] fun k t =>
    half2 (fun a b c => fpFma f16 (modOf w) a b c) (aOf w k t) (bOf w k t) (cOf w k t))

def execHmin2 (e : Fin 16) (slot : Fin 128) (w : BitVec 56) (s : State) : Host.Outcome State Fault Refusal :=
  let w := word56 0x23 w
  .next (s.alu e slot { use := mHp - mRnd } w [] fun k t =>
    half2 (fun a b _ => fpMinMax f16 false (modOf w) a b) (aOf w k t) (bOf w k t) 0)

def execHmax2 (e : Fin 16) (slot : Fin 128) (w : BitVec 56) (s : State) : Host.Outcome State Fault Refusal :=
  let w := word56 0x24 w
  .next (s.alu e slot { use := mHp - mRnd } w [] fun k t =>
    half2 (fun a b _ => fpMinMax f16 true (modOf w) a b) (aOf w k t) (bOf w k t) 0)

/-- pd takes the low halves' comparison and pd + 1 the high halves'; pd is even (R81). -/
def execSetpH2 (e : Fin 16) (slot : Fin 128) (w : BitVec 56) (s : State) : Host.Outcome State Fault Refusal :=
  let w := word56 0x25 w
  let pd := bitsOf w 41 3
  .next (s.issuePlain e slot (AluShape.ins { dst := false, use := 0x3C00 + mNeg + mAbs } w
      (setpFBad w ++ badIf (pd % 2 = 1) 4)) noFault fun k _ act =>
    act.foldl (fun k' t =>
      let a := aOf w k t
      let b := bOf w k t
      (k'.setPred t pd (fpSetp f16 (modOf w) (setpCond w) (a % 2 ^ 16) (b % 2 ^ 16))).setPred t (pd + 1)
        (fpSetp f16 (modOf w) (setpCond w) (a / 2 ^ 16) (b / 2 ^ 16))) k)

/-- Sum of exact terms, rounded once; an exact zero takes the sign rules of a sum. -/
def execHdot2 (e : Fin 16) (slot : Fin 128) (w : BitVec 56) (s : State) : Host.Outcome State Fault Refusal :=
  let w := word56 0x26 w
  .next (s.alu e slot { ali := false, nsrc := 3, use := mFp + mNc } w [] fun k t =>
    let m := modOf w
    let mh := m - b2n (bitB m 7) * mFtz
    let a := aOf w k t
    let b := bOf w k t
    let lo := (fa f16 mh (a % 2 ^ 16)).mul (fb f16 mh (b % 2 ^ 16))
    let hi := (fa f16 mh (a / 2 ^ 16)).mul (fb f16 mh (b / 2 ^ 16))
    fres f32 m ((lo.add (modRnd m) hi).add (modRnd m) (fc f32 m (cOf w k t))))

/-! ## Conversion (R83) -/

/-- cvt's fields: STYPE, DTYPE, PART. -/
def cvtBad (w : Nat) : List Nat :=
  let st := bitsOf w 10 4
  let dt := bitsOf w 3 4
  let part := bitsOf w 0 3
  badIf (st = 15 || dt = 15) 8 ++
  badIf (st ≠ 15 && cvtWidth st < 32 && part ≥ 32 / cvtWidth st) 8 ++
  badIf (dt ≠ 15 && cvtWidth dt < 32 && part ≥ 32 / cvtWidth dt) 8 ++
  badIf (cvtWidth st = 32 && cvtWidth dt = 32 && part ≠ 0) 8

def cvtVal (w a d : Nat) : Nat :=
  let st := bitsOf w 10 4
  let dt := bitsOf w 3 4
  let part := bitsOf w 0 3
  let x := if cvtWidth st < 32 then bitsOf a (cvtWidth st * part) (cvtWidth st) else a
  let y := cvtElem st dt (Rnd.of (bitsOf w 8 2)) (bitB w 7) x
  if cvtWidth dt < 32 then
    let lo := cvtWidth dt * part
    d - bitsOf d lo (cvtWidth dt) * 2 ^ lo + y * 2 ^ lo
  else y

/-- A destination narrower than 32 bits keeps the other bits of d, so d is a source then. -/
def execCvt (e : Fin 16) (slot : Fin 128) (w : BitVec 56) (s : State) : Host.Outcome State Fault Refusal :=
  let w := word56 0x30 w
  .next (s.alu e slot { ali := false, nsrc := 1, use := 0x3FFF } w (cvtBad w) fun k t => cvtVal w (aOf w k t) (k.rd t (iD w)))

/-! ## Special functions (R82): each result takes a free value, one for each thread -/

/-- Issue a special function. -/
def State.sfu (s : State) (e slot : Nat) (op : Nat) (w : BitVec 56) (f : Sfu) : State :=
  let w := word56 op w
  s.issue e slot (AluShape.ins { ali := false, nsrc := 1 } w) noFault fun s b _ act pc =>
    match s.blk? e b with
    | none => none
    | some k =>
      let s := act.foldl (fun (s : State) t =>
        let (fr, s) := s.free 32
        s.blkMod e b fun k' => k'.wr t (iD w) (f.eval (aOf w k t) fr)) s
      some (s.nextPc e slot pc 1)

def execRcp (e : Fin 16) (slot : Fin 128) (w : BitVec 56) (s : State) : Host.Outcome State Fault Refusal := .next (s.sfu e slot 0x40 w .rcp)
def execRsq (e : Fin 16) (slot : Fin 128) (w : BitVec 56) (s : State) : Host.Outcome State Fault Refusal := .next (s.sfu e slot 0x41 w .rsq)
def execSqrt (e : Fin 16) (slot : Fin 128) (w : BitVec 56) (s : State) : Host.Outcome State Fault Refusal := .next (s.sfu e slot 0x42 w .sqrt)
def execExp2 (e : Fin 16) (slot : Fin 128) (w : BitVec 56) (s : State) : Host.Outcome State Fault Refusal := .next (s.sfu e slot 0x43 w .exp2)
def execLog2 (e : Fin 16) (slot : Fin 128) (w : BitVec 56) (s : State) : Host.Outcome State Fault Refusal := .next (s.sfu e slot 0x44 w .log2)
def execSin (e : Fin 16) (slot : Fin 128) (w : BitVec 56) (s : State) : Host.Outcome State Fault Refusal := .next (s.sfu e slot 0x45 w .sin)
def execCos (e : Fin 16) (slot : Fin 128) (w : BitVec 56) (s : State) : Host.Outcome State Fault Refusal := .next (s.sfu e slot 0x46 w .cos)
def execTanh (e : Fin 16) (slot : Fin 128) (w : BitVec 56) (s : State) : Host.Outcome State Fault Refusal := .next (s.sfu e slot 0x47 w .tanh)

/-! ## Moves and predicates (R76 class 0xB) -/

def execMov (e : Fin 16) (slot : Fin 128) (w : BitVec 56) (s : State) : Host.Outcome State Fault Refusal :=
  let w := word56 0xB0 w
  .next (s.alu e slot { nsrc := if iF w then 0 else 1 } w [] fun k t => if iF w then iImm w else aOf w k t)

/-- Decode-time findings of plop. -/
def plopBad (w : Nat) : List Nat :=
  badIf (iF w) 1 ++ badIf (iD w / 8 ≠ 0 || iA w / 16 ≠ 0 || iB w / 16 ≠ 0 || iC w ≠ 0 || iMod w / 4 ≠ 0) 2 ++ badIf (iMod w % 4 = 3) 8

/-- plop: pd in D[2:0], as setp names it (DEDUCED, log entry 28). -/
def execPlop (e : Fin 16) (slot : Fin 128) (w : BitVec 56) (s : State) : Host.Outcome State Fault Refusal :=
  let w := word56 0xB3 w
  .next (s.issuePlain e slot { w, bad := plopBad w } noFault fun k _ act => act.foldl (fun k' t =>
    let a := k.pred t (iA w % 8) != bitB (iA w) 3
    let b := k.pred t (iB w % 8) != bitB (iB w) 3
    k'.setPred t (iD w % 8) (match iMod w % 4 with | 0 => a && b | 1 => a || b | _ => a != b)) k)

def execP2r (e : Fin 16) (slot : Fin 128) (w : BitVec 56) (s : State) : Host.Outcome State Fault Refusal :=
  let w := word56 0xB4 w
  .next (s.alu e slot { ali := false, nsrc := 0, other := true } w [] fun k t => (k.coh t.1).preds t.2)

def execRegToPredicate (e : Fin 16) (slot : Fin 128) (w : BitVec 56) (s : State) : Host.Outcome State Fault Refusal :=
  let w := word56 0xB5 w
  let more := badIf (!iF w) 1 ++ badIf (iD w ≠ 0 || iImm w / 256 ≠ 0) 2
  .next (s.issuePlain e slot (AluShape.ins { nsrc := 1, dst := false } w more) noFault fun k _ act =>
    act.foldl (fun k' t => (List.range 8).foldl (fun k'' j =>
      if bitB (iImm w) j then k''.setPred t j (bitB (aOf w k t) j) else k'') k') k)

def execNop (e : Fin 16) (slot : Fin 128) (w : BitVec 56) (s : State) : Host.Outcome State Fault Refusal :=
  let w := word56 0x76 w
  .next (s.issuePlain e slot (AluShape.ins { ali := false, nsrc := 0, dst := false } w (badIf (iD w ≠ 0) 2)) noFault
    fun k _ _ => k)

end Sys2Proof.Machine
end

