-- ==== Sys2Proof/Machine/EmbMem.lean ====
section
/-!
DEFINITION. Ember memory instructions (R85 to R90, R149 to R173, R351): ld, st, prf, atomics, fence, the L1, and the
completion of outstanding accesses.
-/

namespace Sys2Proof.Machine

/-! ## The L1 (R351, R164, R166) -/

/-- Line of a place: host or device, and its address. -/
def State.lineKey (s : State) : Loc → Option (Bool × Nat)
  | .loc a => some (false, lineOf (s.dpaOf a))
  | .remote d => some (false, lineOf d)
  | .host a => some (true, lineOf a)
  | .bad _ => none

def Ember.l1Find (x : Ember) (k : Bool × Nat) : Option L1Line := x.l1.find? fun l => l.host == k.1 && l.line == k.2

/-- Keep a line in the L1 of 512 lines: a full one evicts a line first for eviction, else a line the spec does not choose. -/
def State.l1Fill (s : State) (e : Nat) (k : Bool × Nat) (data : List Nat) (first : Bool) : State :=
  let x := s.em e
  let l := x.l1.filter fun l => !(l.host == k.1 && l.line == k.2)
  let n : L1Line := { host := k.1, line := k.2, data, first }
  if l.length < 512 then s.emPut e { x with l1 := l ++ [n] }
  else match l.findIdx? (·.first) with
    | some i => s.emPut e { x with l1 := l.eraseIdx i ++ [n] }
    | none =>
      let (v, s) := s.free 9
      s.emPut e { x with l1 := l.eraseIdx (v % l.length) ++ [n] }

/-- A store updates the line's L1 copy if there is one. -/
def State.l1Store (s : State) (e : Nat) (l : Loc) (bs : List Nat) : State :=
  match s.lineKey l with
  | none => s
  | some k =>
    let a := match l with | .loc a => a | .remote a => a | .host a => a | .bad a => a
    let o := a % 128
    let x := s.em e
    s.emPut e { x with l1 := x.l1.map fun y => if y.host == k.1 && y.line == k.2 then
      { y with data := y.data.take o ++ bs ++ y.data.drop (o + bs.length) } else y }

/-- Every L1 line becomes invalid. -/
def State.l1Inval (s : State) (e : Nat) : State := s.emPut e { s.em e with l1 := [] }

/-- The line of a place. -/
def Loc.toLine : Loc → Loc
  | .loc a => .loc (lineOf a) | .remote a => .remote (lineOf a) | .host a => .host (lineOf a) | .bad a => .bad a

def Loc.off : Loc → Nat
  | .loc a => a % 128 | .remote a => a % 128 | .host a => a % 128 | .bad a => a % 128

/-- What an Ember read of a place came to: it waits for a domain, or its bytes with the code its launch fails with (0: none)
(R177, R196, R265). -/
inductive EmbRd where
  | wait | got (bs : List Nat) (code : Nat)
  deriving DecidableEq, Repr

/-- Read n bytes of one line through the L1. `ext` holds the line's bytes where this die does not. -/
def State.embRead (s : State) (e : Nat) (cl : SinClient) (l : Loc) (n hint stream : Nat) (ext : List Nat) : State × EmbRd :=
  let s := s.set R.L1_ACC_COUNT (s.get R.L1_ACC_COUNT e + 1) e
  match (s.lineKey l).bind (s.em e).l1Find with
  | some x => (s, .got ((x.data.drop l.off).take n) 0)
  | none =>
    let s := (s.set R.L1_MISS_COUNT (s.get R.L1_MISS_COUNT e + 1) e).embEvt e 0xA 1
    let r := s.vaRead cl l.toLine 128 hint stream ext
    match r.2.2, s.lineKey l with
    | .ok, some k =>
      let s := if hint = 2 then r.1 else r.1.l1Fill e k r.2.1 (hint == 1)
      (s, .got ((r.2.1.drop l.off).take n) 0)
    | .domainAsleep, _ => (s, .wait)
    | .unreachable, _ => (r.1, .got (List.replicate n 255) 4)
    | _, some (_, _) => (r.1, .got (List.replicate n 255) (match l with | .bad _ => 0 | .loc _ => if s.memcOn then 3 else 0 | _ => 3))
    | _, none => (r.1, .got (List.replicate n 255) 0)

/-- Store to one line: the L1 copy, then memory. A place out of reach loses the store with LINK_LOST. -/
def State.embWrite (s : State) (e pk : Nat) (cl : SinClient) (l : Loc) (stream : Nat) (bs : List Nat) : State :=
  let s := (s.l1Store e l bs).chlAs pk none fun s => s.vaWrite cl l stream bs
  if s.locStatus l == .unreachable then s.workFail pk 4 false else s

/-! ## Addresses (R85, R86) -/

/-- Sign-extended byte offset. -/
def memOff (w : Nat) : Int := sgn 24 (bitsOf w 0 24)

/-- Effective address of a thread in a space: global as a 64-bit VA, Caldera and constant as an offset. -/
def memEa (k : Block) (w : Nat) (off : Int) (t : Thr) : Nat :=
  match bitsOf w 49 2 with
  | 0 => unsgn 64 ((k.rdGroup t (iA w) 2 : Int) + off)
  | _ => unsgn 32 ((k.rd t (iA w) : Int) + off)

/-- Bytes of Caldera that a block's instructions reach; fragment shaders have none (R341). -/
def Block.calSize (k : Block) : Nat := if k.info.kind == .fragment then 0 else k.info.cal

def Block.calGet (k : Block) (a n : Nat) : List Nat := bytesAt 0 k.cal a n
def Block.calPut (k : Block) (a : Nat) (bs : List Nat) : Block := { k with cal := putBytes 0 k.cal a bs }

/-- A helper lane of a fragment cohort, whose stores perform nothing (R341). -/
def Block.helper (k : Block) (t : Thr) : Bool :=
  match (k.coh t.1).frag with
  | some f => ((f.quads.getD (t.2 / 4) { x := 0, y := 0, draw := 0, prim := 0, cov := [] }).cov.getD (t.2 % 4) 0) == 0
  | none => false

/-- Execution-time faults of an access of `size` bytes (R86, R37). -/
def memFault (w : Nat) (off : Int) (size : Nat) (k : Block) (t : Thr) : Option XFault :=
  let a := memEa k w off t
  if a % size ≠ 0 then some (xIll 0xA)
  else if bitsOf w 49 2 = 1 && a + size > k.calSize then some xCal
  else none

/-! ## Order within a thread (R154, R159) -/

def PendAcc.hits (p : PendAcc) (va n : Nat) : Bool := p.va < va + n && va < p.va + p.n

/-- A row of a copy reaches some of n bytes at a VA. -/
def XCopy.hits (c : XCopy) (va n : Nat) : Bool :=
  (List.range c.rows).any fun i => let r := (c.va + i * c.pitch) % 2 ^ 64; r < va + n && va < r + c.len

/-- Registers that n bytes take. -/
def regsOf (n : Nat) : Nat := (n + 3) / 4

/-- A store or atomic of a thread waits for its earlier accesses to the same bytes, its copies' among them (R154, R169). -/
def Block.mustWait (k : Block) (t : Thr) (va n : Nat) : Bool :=
  (k.pend.any fun p => p.coh == t.1 && p.lane == t.2 && p.hits va n) ||
    k.copies.any fun c => c.coh == t.1 && c.lane == t.2 && c.hits va n

/-- A read of a thread waits for its earlier stores and atomics to the same bytes. -/
def Block.readWait (k : Block) (t : Thr) (va n : Nat) : Bool :=
  (k.pend.any fun p => p.coh == t.1 && p.lane == t.2 && (match p.k with | .load .. => false | _ => true) && p.hits va n) ||
    k.copies.any fun c => c.up && c.coh == t.1 && c.lane == t.2 && c.hits va n

/-- Value that loaded bytes give a register group (R86). -/
def loadVal (size : Nat) (sx : Bool) (bs : List Nat) : Nat :=
  let v := ofBytes bs
  if sx then unsgn 32 (sgn (8 * size) v) else v

/-- Add an outstanding access to a block. -/
def State.accAdd (s : State) (e b : Nat) (a : PendAcc) : State :=
  let x := s.em e
  (s.emPut e { x with nextId := x.nextId + 1 }).blkMod e b fun k => { k with pend := k.pend ++ [{ a with id := x.nextId }] }

/-- Outcome of a translation as a place; a fault fails the launch with TRANSLATION (R229, R265). -/
def State.accLoc (s : State) (e id pk stream va : Nat) (k : VaKind) : State × Option (Option Loc) :=
  match s.vaNow (accId e id) stream va k with
  | (s, none) => (s, none)
  | (s, some (.err _)) => (s.workFail pk 2 false, some none)
  | (s, some o) => (s, some (some (s.outLoc o)))

/-! ## ld (R85, R86, R88) -/

/-- Fields of the MEM format. -/
def memSpace (w : Nat) : Nat := bitsOf w 49 2
def memDv (w : Nat) : Nat := bitsOf w 41 8
def memSize (w : Nat) : Nat := 2 ^ bitsOf w 29 3
def memSx (w : Nat) : Bool := bitB w 28
def memHint (w : Nat) : Nat := bitsOf w 26 2

def memIns (w : Nat) : Ins :=
  let op := iOp w
  let dv : Opnd := { sel := memDv w, n := if op = 0x52 then 1 else regsOf (memSize w) }
  let a : Opnd := { sel := iA w, n := if memSpace w = 0 then 2 else 1 }
  let ops := if op = 0x52 then [a] else [a, dv]
  {
    w, ops, mem := op ≠ 0x52,
    bad := badIf (memSpace w = 3 || bitsOf w 29 3 ≥ 5) 8 ++ badIf (op = 0x51 && memSpace w = 2) 7 ++
      badIf (memSx w && (op ≠ 0x50 || bitsOf w 29 3 > 1)) 2 ++ badIf (bitsOf w 24 2 ≠ 0) 2 ++
      badIf (op = 0x52 && memDv w ≠ 0) 2 ++ ops.flatMap Opnd.bad }

/-- Load of one thread: Caldera and what lies beyond the constant buffer at once, the rest outstanding. -/
def State.ldThread (s : State) (e b w : Nat) (t : Thr) : State :=
  match s.blk? e b with
  | none => s
  | some k =>
    let size := memSize w
    let n := regsOf size
    let a := memEa k w (memOff w) t
    let put := fun (bs : List Nat) => s.blkPut e b (k.wrGroup t (memDv w) (loadVal size (memSx w) bs) n)
    let add := fun (va m : Nat) =>
      let id := (s.em e).nextId
      let s := s.accAdd e b {
        id := 0, coh := t.1, lane := t.2, va, n := m, hint := memHint w, k := .load (memDv w) n size (memSx w) }
      (s.accLoc e id k.info.pk k.info.stream va .load).1
    match memSpace w with
    | 1 => put (k.calGet a size)
    | 2 =>
      let i := k.infoOf t.1
      if a ≥ i.csize then put (List.replicate size 0) else add ((i.cbuf + a) % 2 ^ 64) (min size (i.csize - a))
    | _ => add a size

/-- VA bytes an ld, st or atomic of a thread reaches, for its order. -/
def memVa (k : Block) (w : Nat) (off : Int) (t : Thr) : Nat :=
  if memSpace w = 2 then ((k.infoOf t.1).cbuf + memEa k w off t) % 2 ^ 64 else memEa k w off t

def execLd (e : Fin 16) (slot : Fin 128) (w : BitVec 56) (s : State) : Host.Outcome State Fault Refusal :=
  let w := word56 0x50 w
  .next (s.issue e slot (memIns w) (memFault w (memOff w) (memSize w)) fun s b _ act pc =>
    some ((act.foldl (fun s t => s.ldThread e b w t) s).nextPc e slot pc 1))

/-! ## st (R87) -/

/-- Store bytes at a VA for a thread: at once, or outstanding while its translation is. -/
def State.stGo (s : State) (e b : Nat) (t : Thr) (va : Nat) (bs : List Nat) : State :=
  match s.blk? e b with
  | none => s
  | some k =>
    let id := (s.em e).nextId
    let s := s.accAdd e b { id := 0, coh := t.1, lane := t.2, va, n := bs.length, k := .store bs }
    let drop := fun (s : State) => s.blkMod e b fun k => { k with pend := k.pend.filter fun p => p.id != id }
    match s.accLoc e id k.info.pk k.info.stream va .store with
    | (s, none) => s
    | (s, some none) => drop s
    | (s, some (some l)) => (drop s).embWrite e k.info.pk .ember l k.info.stream bs

def State.stThread (s : State) (e b w : Nat) (t : Thr) : State :=
  match s.blk? e b with
  | none => s
  | some k =>
    if k.helper t then s
    else
      let size := memSize w
      let a := memEa k w (memOff w) t
      let bs := toBytes size (k.rdGroup t (memDv w) (regsOf size))
      if memSpace w = 1 then s.blkPut e b (k.calPut a bs)
      else s.stGo e b t a bs

def execSt (e : Fin 16) (slot : Fin 128) (w : BitVec 56) (s : State) : Host.Outcome State Fault Refusal :=
  let w := word56 0x51 w
  .next (s.issue e slot (memIns w) (memFault w (memOff w) (memSize w)) fun s b _ act pc =>
    match s.blk? e b with
    | none => none
    | some k =>
      if memSpace w ≠ 1 && act.any fun t => k.mustWait t (memVa k w (memOff w) t) (memSize w) then none
      else some ((act.foldl (fun s t => s.stThread e b w t) s).nextPc e slot pc 1))

/-! ## prf (R76, R216) -/

/-- Prefetch a thread's line into the L1 and the Sinter. `ext` holds, by VA, the bytes of lines of other memory. -/
def State.prfThread (s : State) (e b w : Nat) (ext : List Host.Cell) (t : Thr) : State :=
  match s.blk? e b with
  | none => s
  | some k =>
    if memSpace w = 1 then s
    else
      let va := memVa k w (memOff w) t
      match s.vaNow (accId e 0) k.info.stream va .prf with
      | (s, some (.err _)) => s
      | (s, none) => s
      | (s, some o) => match s.outLoc o with
        | .bad _ => s
        | l => (s.embRead e .ember l 1 (memHint w) k.info.stream (bytesAt 0 ext (lineOf va) 128)).1

def execPrf (e : Fin 16) (slot : Fin 128) (w : BitVec 56) (ext : List Host.Cell) (s : State) :
    Host.Outcome State Fault Refusal :=
  let w := word56 0x52 w
  .next (s.issue e slot (memIns w) noFault fun s b _ act pc =>
    some ((act.foldl (fun s t => s.prfThread e b w ext t) s).nextPc e slot pc 1))

/-! ## Completion of outstanding accesses -/

/-- The block that holds an outstanding access. -/
def State.accFind (s : State) (e id : Nat) : Option (Nat × Block × PendAcc) :=
  (s.em e).blocks.findSome? fun (b, k) => (k.pend.find? fun a => a.id == id).map fun a => (b, k, a)

/-- An earlier outstanding access of the block must complete first: the same thread's to the same bytes, a copy's among them,
and for stores and atomics any thread's (R87, R90, R154, R169). -/
def Block.accBlocked (k : Block) (a : PendAcc) : Bool :=
  (k.pend.any fun p => p.id < a.id && p.hits a.va a.n &&
    ((p.coh == a.coh && p.lane == a.lane) || (match p.k, a.k with | .load .., _ => false | _, .load .. => false | _, _ => true))) ||
  k.copies.any fun c => c.id < a.id && c.coh == a.coh && c.lane == a.lane &&
    (c.up || (match a.k with | .load .. => false | _ => true)) && c.hits a.va a.n

def Block.accDone (k : Block) (id : Nat) : Block := { k with pend := k.pend.filter fun p => p.id != id }

/-- The data of an outstanding load arrives, or a parked store's translation has come. -/
def State.loadDone (s : State) (e id : Nat) (ext : List Host.Cell) : State :=
  match s.accFind e id with
  | none => s
  | some (b, k, a) =>
    if k.accBlocked a then s
    else match a.k with
      | .atomic .. => s
      | .load dv n size sx =>
        match s.accLoc e id k.info.pk k.info.stream a.va .load with
        | (s, none) => s
        | (s, some none) => s.blkMod e b fun k => (k.accDone id).wrGroup (a.coh, a.lane) dv (2 ^ (32 * n) - 1) n
        | (s, some (some l)) =>
          match s.embRead e .ember l a.n a.hint k.info.stream (bytesAt 0 ext (lineOf a.va) 128) with
          | (s, .wait) => s
          | (s, .got bs code) =>
            let v := if code ≠ 0 then 2 ^ (32 * n) - 1 else loadVal size sx (bs ++ List.replicate (size - a.n) 0)
            let s := if code ≠ 0 then s.workFail k.info.pk code false else s
            s.blkMod e b fun k => (k.accDone id).wrGroup (a.coh, a.lane) dv v n
      | .store bs =>
        match s.accLoc e id k.info.pk k.info.stream a.va .store with
        | (s, none) => s
        | (s, some none) => s.blkMod e b fun k => k.accDone id
        | (s, some (some l)) => (s.embWrite e k.info.pk .ember l k.info.stream bs).blkMod e b fun k => k.accDone id

def execLoadCompletion (e : Fin 16) (id : BitVec 32) (ext : List Host.Cell) (s : State) : Host.Outcome State Fault Refusal :=
  .next (s.loadDone e id.toNat ext)

/-! ## Atomics (R89, R90, R157 to R159) -/

def atmW64 (w : Nat) : Bool := bitB w 8
def atmScope (w : Nat) : Nat := bitsOf w 11 3
def atmOrder (w : Nat) : Nat := bitsOf w 9 2
def atmRet (w : Nat) : Bool := !bitB w 7
def atmSgn (w : Nat) : Bool := bitB w 6

def atmIns (w : Nat) : Ins :=
  let op := iOp w % 16
  let g := if atmW64 w then 2 else 1
  let ops : List Opnd := [{ sel := iA w, n := if memSpace w = 0 then 2 else 1 }, { sel := iB w, n := g }, { sel := memDv w, n := g }] ++
    (if op = 7 then [{ sel := iC w, n := g }] else [])
  {
    w, ops, mem := true,
    bad := badIf (memSpace w = 2) 7 ++ badIf (memSpace w = 3 || atmScope w > 3 || (atmW64 w && op ≥ 8)) 8 ++
      badIf ((atmSgn w && op ≠ 1 && op ≠ 2) || bitsOf w 0 6 ≠ 0 || (op ≠ 7 && iC w ≠ 0)) 2 ++ ops.flatMap Opnd.bad }

/-- The acquire of an Ember at a scope (R159, R166): L1 lines, copies of remote lines, copies of host lines. -/
def State.embAcquire (s : State) (e scope : Nat) : State := if scope < 2 then s else (s.l1Inval e).sinAcquire (scope == 3)

/-- The release at system scope flushes behind earlier writes with a zero-length read (R176). -/
def State.embRelease (s : State) (scope : Nat) : State := if scope = 3 then s.emit (.hostRead 0 0) else s

/-- An atomic performed: the old value returns, an acquire takes effect. -/
def State.atomRet (s : State) (e b id : Nat) (a : PendAcc) (old code pk : Nat) : State :=
  let s := if code = 0 then s else s.workFail pk code false
  let s := if a.acq then s.embAcquire e a.scope else s
  s.blkMod e b fun k =>
    let k := k.accDone id
    match a.k with
    | .atomic _ dv n _ _ _ true => k.wrGroup (a.coh, a.lane) dv old n
    | _ => k

/-- Take an outstanding atomic as far as it can go: translate, perform it here, or send it to its home. -/
def State.atomGo (s : State) (e id : Nat) : State :=
  match s.accFind e id with
  | none => s
  | some (b, k, a) =>
    match a.k, a.loc with
    | .atomic op _ n sg x y _, none =>
      if k.accBlocked a then s
      else match s.accLoc e id k.info.pk k.info.stream a.va .atomic with
        | (s, none) => s
        | (s, some none) => s.atomRet e b id a (2 ^ (32 * n) - 1) 0 k.info.pk
        | (s, some (some (.loc p))) =>
          let r := s.atomAt .ember p op (n = 2) sg x y k.info.stream
          (match r.2.2 with
            | .domainAsleep => s
            | .ok =>
              let s := r.1.l1Store e (.loc p) (bytesAt 0 r.1.mem p (4 * n))
              s.atomRet e b id a r.2.1 0 k.info.pk
            | _ => r.1.atomRet e b id a r.2.1 (if s.memcOn then 3 else 0) k.info.pk)
        | (s, some (some (.bad d))) => (s.badAddr d k.info.stream).atomRet e b id a (2 ^ (32 * n) - 1) 0 k.info.pk
        | (s, some (some l)) =>
          if s.locStatus l == .unreachable then
            (s.fault { cls := 3, cause := 4, d0 := a.va, d1 := k.info.stream * 2 ^ 32 }).atomRet e b id a (2 ^ (32 * n) - 1) 4 k.info.pk
          else
            let s := s.blkMod e b fun k => { k with pend := k.pend.map fun p => if p.id == id then { p with loc := some l } else p }
            s.chlAs k.info.pk (some (e, id)) fun s => s.atomSend l op (n = 2) sg (a.scope == 3) x y
    | _, _ => s

/-- The atomic of one thread: Caldera at once, in thread order; otherwise outstanding. -/
def State.atmThread (s : State) (e b w : Nat) (t : Thr) : State :=
  match s.blk? e b with
  | none => s
  | some k =>
    if k.helper t then s
    else
      let n := if atmW64 w then 2 else 1
      let a := memEa k w 0 t
      let x := k.rdGroup t (iB w) n
      let y := k.rdGroup t (iC w) n
      let op := iOp w % 16
      if memSpace w = 1 then
        let old := ofBytes (k.calGet a (4 * n))
        let k := k.calPut a (toBytes (4 * n) (atomNew op (atmW64 w) (atmSgn w) old x y))
        s.blkPut e b (if atmRet w then k.wrGroup t (memDv w) old n else k)
      else
        s.accAdd e b {
          id := 0, coh := t.1, lane := t.2, va := a, n := 4 * n, scope := atmScope w,
          acq := atmOrder w % 2 == 1, k := .atomic op (memDv w) n (atmSgn w) x y (atmRet w) }

/-- Issue an atomic. A release waits for the thread's earlier accesses. -/
def State.atm (s : State) (e slot : Nat) (op : Nat) (w : BitVec 56) : State :=
  let w := word56 (0x60 + op) w
  s.issue e slot (atmIns w) (memFault w 0 (if atmW64 w then 8 else 4)) fun s b _ act pc =>
    match s.blk? e b with
    | none => none
    | some k =>
      let wait := fun (t : Thr) => (memSpace w ≠ 1 && k.mustWait t (memEa k w 0 t) (if atmW64 w then 8 else 4)) ||
        (atmOrder w ≥ 2 && k.pend.any fun p => p.coh == t.1 && p.lane == t.2)
      if act.any wait || (memSpace w ≠ 1 && atmOrder w ≥ 2 && atmScope w ≥ 2 && !act.isEmpty && !s.wtAcked) then none
      else
        let s := if memSpace w ≠ 1 && atmOrder w ≥ 2 && !act.isEmpty then s.embRelease (atmScope w) else s
        let id0 := (s.em e).nextId
        let s := act.foldl (fun s t => s.atmThread e b w t) s
        let s := ((List.range ((s.em e).nextId - id0)).map (id0 + ·)).foldl (fun s id => s.atomGo e id) s
        some (s.nextPc e slot pc 1)

def execAtomAdd (e : Fin 16) (slot : Fin 128) (w : BitVec 56) (s : State) : Host.Outcome State Fault Refusal := .next (s.atm e slot 0 w)
def execAtomMin (e : Fin 16) (slot : Fin 128) (w : BitVec 56) (s : State) : Host.Outcome State Fault Refusal := .next (s.atm e slot 1 w)
def execAtomMax (e : Fin 16) (slot : Fin 128) (w : BitVec 56) (s : State) : Host.Outcome State Fault Refusal := .next (s.atm e slot 2 w)
def execAtomAnd (e : Fin 16) (slot : Fin 128) (w : BitVec 56) (s : State) : Host.Outcome State Fault Refusal := .next (s.atm e slot 3 w)
def execAtomOr (e : Fin 16) (slot : Fin 128) (w : BitVec 56) (s : State) : Host.Outcome State Fault Refusal := .next (s.atm e slot 4 w)
def execAtomXor (e : Fin 16) (slot : Fin 128) (w : BitVec 56) (s : State) : Host.Outcome State Fault Refusal := .next (s.atm e slot 5 w)
def execAtomExch (e : Fin 16) (slot : Fin 128) (w : BitVec 56) (s : State) : Host.Outcome State Fault Refusal := .next (s.atm e slot 6 w)
def execAtomCas (e : Fin 16) (slot : Fin 128) (w : BitVec 56) (s : State) : Host.Outcome State Fault Refusal := .next (s.atm e slot 7 w)
def execAtomFadd (e : Fin 16) (slot : Fin 128) (w : BitVec 56) (s : State) : Host.Outcome State Fault Refusal := .next (s.atm e slot 8 w)
def execAtomInc (e : Fin 16) (slot : Fin 128) (w : BitVec 56) (s : State) : Host.Outcome State Fault Refusal := .next (s.atm e slot 9 w)

/-- The copies of a line homed elsewhere take what an atomic left there: the L1's, and this die's Sinter's (R154, R157). -/
def State.copyUpd (s : State) (e : Nat) (l : Loc) (bs : List Nat) : State :=
  let s := s.l1Store e l bs
  match s.lineKey l with
  | none => s
  | some k => match s.sinFind k.2 k.1 with
    | none => s
    | some (w, x) => s.sinPut k.2 w { x with data := x.data.take l.off ++ bs ++ x.data.drop (l.off + bs.length) }

/-- An atomic that waits goes on: one that waited for its translation or for a domain is tried again; one sent to its home
takes the old value that came back, or ones with LINK_DOWN where `ok` is false (R177). -/
def State.atomDone (s : State) (e id old : Nat) (ok : Bool) : State :=
  match s.accFind e id with
  | none => s
  | some (b, k, a) => match a.k, a.loc with
    | .atomic op _ n sg x y _, some l =>
      let s := if ok then s.copyUpd e l (toBytes (4 * n) (atomNew op (n == 2) sg old x y)) else s
      s.atomRet e b id a (if ok then old else 2 ^ (32 * n) - 1) (if ok then 0 else 4) k.info.pk
    | .atomic .., none => s.atomGo e id
    | _, _ => s

def execAtomicCompletion (e : Fin 16) (id : BitVec 32) (old : DWord) (ok : Bool) (s : State) : Host.Outcome State Fault Refusal :=
  .next (s.atomDone e id.toNat old.toNat ok)

/-! ## fence (R160, R165, R166) -/

/-- Decode-time findings of fence. -/
def fenceBad (w : Nat) : List Nat :=
  badIf (!iF w) 1 ++ badIf (iD w ≠ 0 || iA w ≠ 0 || bitsOf w 2 2 ≠ 0 || bitsOf w 6 26 ≠ 0) 2 ++ badIf (bitsOf w 4 2 = 3) 8

def execFence (e : Fin 16) (slot : Fin 128) (w : BitVec 56) (s : State) : Host.Outcome State Fault Refusal :=
  let w := word56 0xB2 w
  let scope := bitsOf w 0 2
  let kind := bitsOf w 4 2
  .next (s.issue e slot { w, bad := fenceBad w } noFault fun s b _ act pc =>
    match s.blk? e b with
    | none => none
    | some k =>
      let before := fun (t : Thr) (p : PendAcc) => p.coh == t.1 && p.lane == t.2 &&
        (kind != 1 || (match p.k with | .store _ => false | _ => true))
      if (act.any fun t => k.pend.any (before t)) || (kind ≠ 1 && scope ≥ 2 && !act.isEmpty && !s.wtAcked) then none
      else if act.isEmpty then some (s.nextPc e slot pc 1)
      else
        let s := if kind = 1 then s else s.embRelease scope
        let s := if kind = 2 then s else s.embAcquire e scope
        some (s.nextPc e slot pc 1))

/-- A write of L1_CTL.INV by a master (R355). -/
def State.l1Ctl (s : State) (e val : Nat) : State := if bitB val 0 then s.l1Inval e else s

def execL1Invalidate (m : Master) (e : Fin 16) (s : State) : Host.Outcome State Fault Refusal :=
  .next (s.ownerWrite m (0x1000200 + 0x10000 * e) 1 false fun s => s.l1Ctl e 1)

end Sys2Proof.Machine
end

