-- ==== Sys2Proof/Machine/Fum.lean ====
section
/-!
DEFINITION. The Fumarole island (R400 to R417): microcontroller control, extension calls, AO camera, motion energy, inference
engine, wake DAC.
-/

namespace Sys2Proof.Machine

/-! ## AO SRAM (R404) -/

/-- Little-endian number in AO SRAM; a byte that nothing has written reads as zero (log entry 39). -/
def State.aoNat (s : State) (a n : Nat) : Nat := ofBytes (bytesAt 0 s.ao a n)
def State.aoPut (s : State) (a : Nat) (bs : List Nat) : State := { s with ao := putBytes 0 s.ao a bs }

/-- Base of AO camera buffer i. -/
def aoBuf (i : Nat) : Nat := if i = 0 then 0x8000 else 0x14000

/-! ## The extension (R415, R605) -/

/-- An event is logged; the spec does not number the base firmware's own events, nor lay the log out (log entry 41). -/
def State.fumLog (s : State) (code val : Nat) : State :=
  { s with fum := { s.fum with log := s.fum.log ++ [(s.get R.FUM_RTC_RTC, code, val)] } }

/-- An event for the base firmware: the extension leaves WAIT, told the event bits, which the spec does not number. -/
def State.fumEvent (s : State) : State :=
  if s.fum.asleep then
    let (b, s) := s.free 32
    { s with fum := { s.fum with asleep := false } }.emit (.reply true b)
  else s

/-- A header of an extension stands in its region. -/
def State.extHere (s : State) : Bool :=
  s.aoNat 0x30000 4 == 0x46585431 && [8, 12, 16, 20].all fun o => s.aoNat (0x30000 + o) 4 < 0xC000

/-- The microcontroller starts: the base firmware checks the extension's generation and starts it. -/
def State.mcuStart (s : State) : State :=
  let gen := s.aoNat 0x30004 4
  let s := s.set R.BOOT_COMPAT_EXTOK 0
  if s.flag R.FUM_STAT_MINIMAL || !s.extHere then s.set R.FUM_MCU_CTL_EXT 0
  else if s.fl (s.boot.fumarole + 0x1C) 4 ≤ gen && gen ≤ s.fl (s.boot.fumarole + 0x20) 4 then (s.set R.FUM_MCU_CTL_EXT 1).set R.BOOT_COMPAT_EXTOK 1
  else
    let (c, s) := s.free 32
    ((s.set R.FUM_MCU_CTL_EXT 0).fumLog c gen).fault { cls := 10, cause := 3, d0 := gen }

/-- The microcontroller is held in reset. -/
def State.mcuStop (s : State) : State :=
  { (s.set R.FUM_MCU_CTL_RUN 0).set R.FUM_MCU_CTL_EXT 0 with fum := { s.fum with asleep := false } }

/-- A write of FUM_MCU_CTL, live (R414, R417). -/
def State.mcuCtl (s : State) (val : Nat) : State :=
  let s := s.set R.FUM_MCU_CTL_DIV (bitsOf val 0 2)
  match s.flag R.FUM_MCU_CTL_RUN, bitB val 31 with
  | false, true => if s.fum.bad then s else (s.set R.FUM_MCU_CTL_RUN 1).mcuStart
  | true, false => s.mcuStop
  | _, _ => s

def execMcuRun (m : Master) (run : Bool) (div : BitVec 2) (s : State) : Host.Outcome State Fault Refusal :=
  .next (s.ownerWrite m 0x380008 (b2n run * 2 ^ 31 + div.toNat) false fun s => s.mcuCtl (b2n run * 2 ^ 31 + div.toNat))

/-- The Warden loads the base firmware from an image, or none passed, and sets the mode (R414, R417). -/
def State.fumBoot (s : State) (minimal : Bool) (img : Option Nat) : State :=
  let s := { s.setB R.FUM_STAT_MINIMAL minimal with fum := { s.fum with minimal } }
  let s := if minimal then (((s.set R.FUM_AOC_CTL_EN 0).set R.FUM_ME_CFG_EN 0).set R.FUM_FIE_CTL_AUTO 0) else s
  match img with
  | none => { s.mcuStop with fum := { s.fum with bad := true, asleep := false } }
  | some a =>
    let body := s.flBytes (a + 256) (s.fl (a + 0x28) 4)
    let s := { s with fum := { s.fum with bad := false, gen := s.fl (a + 0x10) 4, lmem := putBytes 0 s.fum.lmem (s.fl (a + 0x2C) 4) body } }
    (s.set R.FUM_MCU_CTL_RUN 1).mcuStart

/-! ## The wake DAC (R412) -/

/-- The code that FUM_WDAC.SRC selects. -/
def State.wdacCode (s : State) : Nat :=
  let src := s.get R.FUM_WDAC_SRC
  if s.flag R.FUM_STAT_MINIMAL && 1 ≤ src && src ≤ 3 then 0
  else match src with
    | 1 => s.get R.FUM_ME_SCORE_SCORE
    | 2 => s.fum.code2
    | 3 => s.fum.code3
    | 4 => s.get R.FUM_WDAC_MAN
    | _ => 0

def State.wdacUpdate (s : State) : State := s.set R.FUM_WDAC_CODE s.wdacCode

/-- Trips of ACMP3 are held off for 4 µs. -/
def State.wdacHold (s : State) : State := { s with fum := { s.fum with holdOff := s.tb + 400 } }

/-- A write of FUM_WDAC, live. -/
def State.wdacWrite (s : State) (val : Nat) : State :=
  let t := ((s.set R.FUM_WDAC_MAN (bitsOf val 8 8)).set R.FUM_WDAC_SRC (bitsOf val 0 3)).wdacUpdate
  if s.get R.FUM_WDAC_MAN ≠ t.get R.FUM_WDAC_MAN || s.get R.FUM_WDAC_SRC ≠ t.get R.FUM_WDAC_SRC then t.wdacHold else t

/-- A write of FUM_ACMPn_CFG, live: SRC exists on ACMP3 only; a change of THR3 holds trips off. -/
def State.acmpCfg (s : State) (n val : Nat) : State :=
  let t := s.putReg R.FUM_ACMP_CFG n 0 (if n = 3 then val else putBit val 24 false)
  if n = 3 && s.get R.FUM_ACMP_CFG_THR 3 ≠ t.get R.FUM_ACMP_CFG_THR 3 then t.wdacHold else t

/-! ## The FIE (R408 to R410) -/

/-- A layer descriptor. -/
structure FieLayer where
  op : Nat
  k : Nat
  stride : Nat
  relu : Bool
  pad : Nat
  u8 : Bool
  cam : Bool
  iw : Nat
  ih : Nat
  ic : Nat
  oc : Nat
  inp : Nat
  out : Nat
  wgt : Nat
  bias : Nat
  mult : Nat
  shift : Nat
  deriving DecidableEq, Repr

def State.fieLayer (s : State) (a buf : Nat) : FieLayer :=
  let g := fun (o : Nat) => s.aoNat (a + o) 4
  let w := g 0
  let k := bitsOf w 4 3
  { op := bitsOf w 0 4, k, stride := if bitB w 8 then 2 else 1, relu := bitB w 9, pad := if bitB w 10 then k / 2 else 0,
    u8 := bitB w 11, cam := bitB w 12, iw := bitsOf (g 4) 0 16, ih := bitsOf (g 4) 16 16, ic := bitsOf (g 8) 0 16,
    oc := bitsOf (g 8) 16 16, inp := if bitB w 12 then aoBuf buf else bitsOf (g 0xC) 0 18, out := bitsOf (g 0x10) 0 18,
    wgt := bitsOf (g 0x14) 0 18, bias := bitsOf (g 0x18) 0 18, mult := bitsOf (g 0x1C) 0 16, shift := bitsOf (g 0x1C) 16 5 }

/-- Output size along one axis. -/
def fieOut (n k pad stride : Nat) : Nat := if n + 2 * pad < k then 0 else (n + 2 * pad - k) / stride + 1

/-- Height, width and channels of a layer's output (log entry 40). -/
def FieLayer.dims (l : FieLayer) : Nat × Nat × Nat :=
  match l.op with
  | 1 => (fieOut l.ih l.k l.pad l.stride, fieOut l.iw l.k l.pad l.stride, l.oc)
  | 2 => (fieOut l.ih l.k l.pad l.stride, fieOut l.iw l.k l.pad l.stride, l.ic)
  | 3 => (1, 1, l.oc)
  | 4 => (fieOut l.ih 2 0 l.stride, fieOut l.iw 2 0 l.stride, l.ic)
  | _ => (1, 1, l.ic)

/-- Bytes of weights, and channels with a bias. -/
def FieLayer.wsize (l : FieLayer) : Nat × Nat :=
  match l.op with
  | 1 => (l.oc * l.k * l.k * l.ic, l.oc)
  | 2 => (l.ic * l.k * l.k, l.ic)
  | 3 => (l.oc * (l.ih * l.iw * l.ic), l.oc)
  | _ => (0, 0)

/-- The descriptor is an error: its OP, or a range beyond the AO SRAM. -/
def FieLayer.bad (l : FieLayer) : Bool :=
  let d := l.dims
  l.op ≥ 6 || l.inp + l.ih * l.iw * l.ic > 0x40000 || l.out + d.1 * d.2.1 * d.2.2 > 0x40000 ||
    l.wgt + l.wsize.1 > 0x40000 || l.bias + 4 * l.wsize.2 > 0x40000

/-- Input byte i of a layer. -/
def State.fieIn (s : State) (l : FieLayer) (i : Nat) : Int :=
  let b := byteAt 0 s.ao (l.inp + i)
  if l.u8 then (b : Int) - 128 else sgn 8 b

/-- Input at a row, column (padded coordinates) and channel; zero in the padding. -/
def State.fieAt (s : State) (l : FieLayer) (y x c : Nat) : Int :=
  if l.pad ≤ y && y < l.ih + l.pad && l.pad ≤ x && x < l.iw + l.pad then
    s.fieIn l (((y - l.pad) * l.iw + (x - l.pad)) * l.ic + c) else 0

def State.fieW (s : State) (l : FieLayer) (i : Nat) : Int := sgn 8 (byteAt 0 s.ao (l.wgt + i))
def State.fieBias (s : State) (l : FieLayer) (c : Nat) : Int := sgn 32 (s.aoNat (l.bias + 4 * c) 4)

def sumInt (l : List Int) : Int := l.foldl (fun a b => a + b) 0

/-- Clamp to 32 bits; whether it clamped. -/
def clamp32 (v : Int) : Int × Bool :=
  if v > 2147483647 then (2147483647, true) else if v < -2147483648 then (-2147483648, true) else (v, false)

/-- The accumulator of output (y, x, c). -/
def State.fieAcc (s : State) (l : FieLayer) (y x c : Nat) : Int × Bool :=
  let ks := (List.range l.k).flatMap fun i => (List.range l.k).map fun j => (i, j)
  clamp32 (match l.op with
    | 1 => s.fieBias l c + sumInt (ks.flatMap fun p => (List.range l.ic).map fun d =>
        s.fieW l (((c * l.k + p.1) * l.k + p.2) * l.ic + d) * s.fieAt l (y * l.stride + p.1) (x * l.stride + p.2) d)
    | 2 => s.fieBias l c + sumInt (ks.map fun p =>
        s.fieW l ((c * l.k + p.1) * l.k + p.2) * s.fieAt l (y * l.stride + p.1) (x * l.stride + p.2) c)
    | 3 => let n := l.ih * l.iw * l.ic
      s.fieBias l c + sumInt ((List.range n).map fun i => s.fieW l (c * n + i) * s.fieIn l i)
    | _ => sumInt ((List.range (l.ih * l.iw)).map fun i => s.fieIn l (i * l.ic + c)))

/-- One output, and whether its sum clamped. -/
def State.fieElem (s : State) (l : FieLayer) (y x c : Nat) : Int × Bool :=
  let r := if l.op = 4 then
      ([(0, 0), (0, 1), (1, 0), (1, 1)].foldl (fun (m : Int) (p : Nat × Nat) =>
        max m (s.fieIn l (((y * l.stride + p.1) * l.iw + (x * l.stride + p.2)) * l.ic + c))) (-128), false)
    else
      let a := s.fieAcc l y x c
      (max (-128) (min 127 ((a.1 * l.mult + 2 ^ (l.shift + 15)) / 2 ^ (l.shift + 16))), a.2)
  (if l.relu then max 0 r.1 else r.1, r.2)

/-- Run one layer: its output bytes are written; whether a sum clamped, and element 0. -/
def State.fieRun (s : State) (l : FieLayer) : State × Bool × Option Int :=
  let d := l.dims
  let os := (List.range d.1).flatMap fun y => (List.range d.2.1).flatMap fun x => (List.range d.2.2).map fun c => s.fieElem l y x c
  (s.aoPut l.out (os.map fun o => unsgn 8 o.1), os.any (fun o => o.2), os.head?.map fun o => o.1)

/-- Run a list: state, ERR, SAT, element 0 of the last layer's output. -/
def State.fieList (s : State) (buf : Nat) : Nat → Nat → Bool → Option Int → State × Bool × Bool × Option Int
  | 0, _, sat, e => (s, false, sat, e)
  | n + 1, a, sat, e =>
    if a + 32 > 0x40000 then (s, true, sat, none)
    else
      let l := s.fieLayer a buf
      if l.op = 0 then (s, false, sat, e)
      else if l.bad then (s, true, sat, none)
      else
        let r := s.fieRun l
        r.1.fieList buf n (a + 32) (sat || r.2.1) r.2.2

/-- Start a run. -/
def State.fieStart (s : State) (r : FieRun) : State :=
  { ((s.set R.FUM_FIE_STAT_BUSY 1).set R.FUM_FIE_STAT_ERR 0).set R.FUM_FIE_STAT_SAT 0 with fum := { s.fum with fie := some r } }

/-- A write of FUM_FIE_CTL, live (R410, R417). -/
def State.fieCtl (s : State) (m : Master) (val : Nat) : State :=
  if s.flag R.FUM_STAT_MINIMAL && (bitB val 31 || bitB val 30) then s.errMark m
  else
    let s := (s.set R.FUM_FIE_CTL_AUTO (bitsOf val 31 1)).set R.FUM_FIE_CTL_LIST (bitsOf val 0 18)
    if bitB val 30 && !s.flag R.FUM_FIE_STAT_BUSY then
      s.fieStart { list := bitsOf val 0 18, buf := s.get R.FUM_AOC_STAT_BUF, auto := false, ext := false }
    else s

def execFieGo (m : Master) (auto_ : Bool) (list : BitVec 18) (s : State) : Host.Outcome State Fault Refusal :=
  let val := b2n auto_ * 2 ^ 31 + 2 ^ 30 + list.toNat
  .next (s.ownerWrite m 0x3800C0 val false fun s => s.fieCtl m val)

/-- A run ends (R409). A run whose list gives no output has no score of the spec's. -/
def State.fieDone (s : State) : State :=
  match s.fum.fie with
  | none => s
  | some r =>
    let q := s.fieList r.buf 64 r.list false none
    let s := { q.1 with fum := { q.1.fum with fie := none } }
    let (code, s) := if q.2.1 then (0, s) else match q.2.2.2 with
      | some e => ((e + 128).toNat, s)
      | none => s.free 8
    let s := ((s.set R.FUM_FIE_STAT_BUSY 0).setB R.FUM_FIE_STAT_ERR q.2.1).setB R.FUM_FIE_STAT_SAT q.2.2.1
    let s := s.set R.FUM_FIE_SCORE_CODE code
    let s := { s with fum := { s.fum with code2 := code, code3 := max (s.get R.FUM_ME_SCORE_SCORE) code } }
    let s := s.wdacUpdate
    if r.ext then s.emit (.reply true code) else s

def execFieRunDone (s : State) : Host.Outcome State Fault Refusal := .next s.fieDone

/-! ## The AO camera (R406) -/

/-- A write of FUM_AOC_CTL, live. -/
def State.aocCtl (s : State) (m : Master) (val : Nat) : State :=
  if bitB val 31 && s.flag R.FUM_STAT_MINIMAL then s.errMark m
  else
    let w := s.get R.FUM_AOC_SIZE_W
    let h := s.get R.FUM_AOC_SIZE_H
    let ok := w % 16 = 0 && 32 ≤ w && w ≤ 256 && h % 12 = 0 && 24 ≤ h && h ≤ 192
    let t := s.putReg R.FUM_AOC_CTL 0 0 val
    let t := if bitB val 31 then { t with fum := { t.fum with skip := if s.flag R.FUM_AOC_CTL_EN then t.fum.skip else 0 } } else t
    if bitB val 31 && !ok then (t.set R.FUM_AOC_CTL_EN 0).set R.FUM_AOC_STAT_CFGERR 1
    else if bitB val 31 then t.set R.FUM_AOC_STAT_CFGERR 0 else t

/-- A buffer is being read. -/
def State.aoBusy (s : State) (b : Nat) : Bool := s.fum.meBuf == some b || s.fum.fie.any fun r => r.buf == b

/-- Pixel at a place of a frame, in 8 bits; none where the sensor sent none. -/
def aoPix (raw10 : Bool) (rows : List (List Nat)) (y x : Nat) : Option Nat :=
  (rows[y]?).bind fun r => (r[x]?).map fun v => if raw10 then bitsOf v 2 8 else v % 256

/-- Output pixel (y, x). -/
def aoOut (raw10 bin2 : Bool) (rows : List (List Nat)) (x0 y0 y x : Nat) : Option Nat :=
  if bin2 then
    match aoPix raw10 rows (y0 + 2 * y) (x0 + 2 * x), aoPix raw10 rows (y0 + 2 * y) (x0 + 2 * x + 1),
      aoPix raw10 rows (y0 + 2 * y + 1) (x0 + 2 * x), aoPix raw10 rows (y0 + 2 * y + 1) (x0 + 2 * x + 1) with
    | some a, some b, some c, some d => some ((a + b + c + d) / 4)
    | _, _, _, _ => none
  else aoPix raw10 rows (y0 + y) (x0 + x)

/-- Write the pixels of the window that the sensor sent. -/
def State.aoWindow (s : State) (buf : Nat) (rows : List (List Nat)) : State :=
  let w := s.get R.FUM_AOC_SIZE_W
  ((List.range (s.get R.FUM_AOC_SIZE_H)).flatMap fun y => (List.range w).map fun x => (y, x)).foldl
    (fun (t : State) (p : Nat × Nat) =>
      match aoOut (s.flag R.FUM_AOC_CTL_RAW10) (s.flag R.FUM_AOC_CTL_BIN2) rows (s.get R.FUM_AOC_WIN_X0) (s.get R.FUM_AOC_WIN_Y0) p.1 p.2 with
      | some v => t.aoPut (aoBuf buf + p.1 * w + p.2) [v]
      | none => t) s

/-- A frame of the sensor (R406). -/
def State.aocFrame (s : State) (rows : List (List Nat)) : State :=
  if !s.flag R.FUM_AOC_CTL_EN then s
  else if s.fum.skip > 0 then { s with fum := { s.fum with skip := s.fum.skip - 1 } }
  else
    let s := { s with fum := { s.fum with skip := s.get R.FUM_AOC_CTL_SKIP } }
    let b := 1 - s.get R.FUM_AOC_STAT_BUF
    if s.aoBusy b then s.set R.FUM_AOC_STAT_OVR 1
    else
      let s := s.aoWindow b rows
      let s := ((s.set R.FUM_AOC_STAT_BUF b).incWrap R.FUM_AOC_STAT_FRAMES).set R.FUM_AOC_STAMP_RTC (s.get R.FUM_RTC_RTC)
      if s.flag R.FUM_ME_CFG_EN then { s with fum := { s.fum with meBuf := some b } } else s

/-- A captured frame: the pixel rows the sensor sends. -/
def execAocFrame (rows : List (List (BitVec 10))) (s : State) : Host.Outcome State Fault Refusal :=
  .next (s.aocFrame (rows.map fun r => r.map BitVec.toNat))

/-! ## Motion energy (R407) -/

/-- A write of FUM_ME_CFG, live. -/
def State.meCfg (s : State) (m : Master) (val : Nat) : State :=
  if bitB val 31 && s.flag R.FUM_STAT_MINIMAL then s.errMark m
  else
    let t := s.putReg R.FUM_ME_CFG 0 0 val
    if !s.flag R.FUM_ME_CFG_EN && bitB val 31 then { t with fum := { t.fum with meRef := none } } else t

/-- Mean of cell c of a buffer. -/
def State.meCell (s : State) (buf c : Nat) : Nat :=
  let w := s.get R.FUM_AOC_SIZE_W
  let cw := w / 16
  let ch := s.get R.FUM_AOC_SIZE_H / 12
  ((List.range ch).map fun y => ((bytesAt 0 s.ao (aoBuf buf + (c / 16 * ch + y) * w + c % 16 * cw) cw).sum)).sum / (cw * ch)

/-- Score of a frame's cells against the reference. -/
def State.meScore (s : State) (mu ref : List Nat) : Nat :=
  ((List.range 192).filter fun c => bitB (s.get R.FUM_ME_MASK_CELLS (c / 32)) (c % 32) &&
    decide ((mu.getD c 0 - ref.getD c 0) + (ref.getD c 0 - mu.getD c 0) > s.get R.FUM_ME_CFG_CELLTHR)).length

/-- The detector scores the frame it reads, and an AUTO run may begin (R407, R410, R412). -/
def State.meResult (s : State) : State :=
  match s.fum.meBuf with
  | none => s
  | some b =>
    let mu := (List.range 192).map fun c => s.meCell b c
    let score := match s.fum.meRef with | some ref => s.meScore mu ref | none => 0
    let s := { s with fum := { s.fum with meBuf := none, meRef := some mu } }
    let s := s.set R.FUM_ME_SCORE_SCORE score
    let run := s.flag R.FUM_FIE_CTL_AUTO && score ≥ s.get R.FUM_ME_CFG_MEGATE && !s.flag R.FUM_FIE_STAT_BUSY
    let s := if run then s.fieStart { list := s.get R.FUM_FIE_CTL_LIST, buf := b, auto := true, ext := false }
      else { s with fum := { s.fum with code2 := 0, code3 := score } }
    (s.wdacUpdate).fumEvent

def execMeResult (s : State) : Host.Outcome State Fault Refusal := .next s.meResult

/-! ## RTC (R400) -/

/-- A write of FUM_CTL.CAPT. -/
def execRtcCapture (m : Master) (s : State) : Host.Outcome State Fault Refusal :=
  .next (s.ownerWrite m 0x380000 1 false State.rtcCapture)

/-! ## Extension calls (R416) -/

/-- The extension runs and is not asleep. -/
def State.extOn (s : State) : Bool := s.flag R.FUM_MCU_CTL_RUN && s.flag R.FUM_MCU_CTL_EXT && !s.fum.asleep

def State.extDo (s : State) (f : State → State) : State := if s.extOn then f s else s

def execExtWait (s : State) : Host.Outcome State Fault Refusal :=
  .next (s.extDo fun s => { s with fum := { s.fum with asleep := true } })

def execExtWake (s : State) : Host.Outcome State Fault Refusal :=
  .next (s.extDo fun s =>
    if !bitB (s.get R.FUM_WAKE_EN_EN) 3 || !s.flag R.FUM_ACMP_CFG_SRC 3 then s.emit (.reply true 0xFFFFFFFF)
    else (s.wdacWrite (255 * 2 ^ 8 + 4)).emit (.reply true 0))

def execExtFieRun (list : Word) (s : State) : Host.Outcome State Fault Refusal :=
  .next (s.extDo fun s =>
    if s.flag R.FUM_FIE_STAT_BUSY then s.emit (.reply true 0xFFFFFFFF)
    else s.fieStart { list := list.toNat, buf := s.get R.FUM_AOC_STAT_BUF, auto := false, ext := true })

def execExtLog (code val : Word) (s : State) : Host.Outcome State Fault Refusal :=
  .next (s.extDo fun s => s.fumLog code.toNat val.toNat)

def execExtTime (s : State) : Host.Outcome State Fault Refusal :=
  .next (s.extDo fun s => s.emit (.reply true (s.get R.FUM_RTC_RTC)))

/-- A message goes to the Warden's side of the mailbox area (log entry 41). -/
def execExtMbox (off len : Word) (s : State) : Host.Outcome State Fault Refusal :=
  .next (s.extDo fun s =>
    ((s.aoPut 0x800 (bytesAt 0 s.ao off.toNat (min 256 len.toNat))).incWrap R.FUM_MBOX_M2W).emit (.irqWarden 2))

/-- An entry point does not return in 5 ms (R415). -/
def execExtEntryTimeout (s : State) : Host.Outcome State Fault Refusal :=
  .next (if s.flag R.FUM_MCU_CTL_RUN && s.flag R.FUM_MCU_CTL_EXT then
      let (c, s) := s.free 32
      let (v, s) := s.free 32
      ({ s.set R.FUM_MCU_CTL_EXT 0 with fum := { s.fum with asleep := false } }).fumLog c v
    else s)

end Sys2Proof.Machine
end

