-- ==== Sys2Proof/Machine/BootBase.lean ====
section
/-!
DEFINITION. What the bring-up's steps and the rest of the die share (R522, R547, R572 to R580): breadcrumbs, step history, ramps.
-/

namespace Sys2Proof.Machine

/-! ## Breadcrumbs and history -/

/-- BOOT_MODE of the straps: 0 FLASH, 1 CHAIN, otherwise HALT (R550). -/
def State.bootMode (s : State) : Nat := s.boot.env.straps.toNat % 4
def State.isChainDie (s : State) : Bool := s.bootMode == 1

/-- Write a breadcrumb (R572, R573): the record whole, then HEAD advances. The record that it overwrites is lost. -/
def State.crumb (s : State) (step kind var code arg : Nat) : State :=
  let w0 := step + kind * 2 ^ 8 + var * 2 ^ 12 + code * 2 ^ 16 + arg % 2 ^ 32 * 2 ^ 32
  let i := s.get R.BOOT_BC_HEAD_HEAD % 256
  let s := { s with boot := { s.boot with
    crumbs := Cells.put s.boot.crumbs i (w0, s.tb), okSteps := s.boot.okSteps.filter fun o => o.2 != i } }
  s.incWrap R.BOOT_BC_HEAD_HEAD

/-- The stored (VARIANT, FAILS, CLASS and SUB) of a step (R575). -/
def State.histOf (s : State) (step : Nat) : Nat × Nat × Nat := Cells.get (0, 0, 0) s.boot.hist step

/-- A step's last variant (R579). -/
def lastVar (step : Nat) : Nat := ([(3, 2), (5, 1), (7, 1), (11, 3), (12, 1), (13, 1), (14, 1), (16, 2)].lookup step).getD 0

/-- The variant a step starts with (R577): min(stored VARIANT + FAILS, last variant). -/
def State.startVar (s : State) (step : Nat) : Nat := min ((s.histOf step).1 + (s.histOf step).2.1) (lastVar step)

/-- Allowances of the steps from WARDEN in ms, on the cold and on the warm path (R559, R582, R641). -/
def stepMs (warm : Bool) (step : Nat) : Nat :=
  (if warm then [1, 6, 6, 6, 12, 20, 1, 70, 1, 5, 5, 60, 60, 40, 15, 110]
    else [2, 8, 20, 5, 15, 450, 600, 240, 140, 10, 30, 40, 10, 30, 20, 140]).getD (step - 6) 0

/-- A step's allowance: with MEMTEST 2 each GiB above 7 adds 77 ms to MEMTEST (R559). -/
def State.allowance (s : State) (step : Nat) : Nat :=
  let warm := s.flag R.BOOT_STAT_WARMPATH
  stepMs warm step + (if step = 12 && s.boot.memtest = 2 then 77 * (s.get R.BOOT_DRAM_SIZE / 1024 + 1 - 7) else 0)

/-- Milliseconds in whole watchdog units at 1.2 GHz, rounded up (R636, R641). -/
def wdtUnits (ms : Nat) : Nat := (ms * 1200000 + 65535) / 65536

/-- The kick at a step's BEGIN (R641): the ROM's, but in HALT; the Warden's with the step's allowance. -/
def State.stepKick (s : State) (step : Nat) : State :=
  if step < 6 || step = 22 then (if s.bootMode ≥ 2 then s else s.wdtKick)
  else ((s.set R.WDT_S1TMO_N (wdtUnits (s.allowance step))).set R.WDT_S2TMO_N (wdtUnits 50)).wdtKick

/-- A step begins: BOOT_STAT.STEP and VARIANT, the BEGIN breadcrumb, the watchdog's kick. -/
def State.stepBegin (s : State) (step var arg : Nat) : State :=
  let s := (s.set R.BOOT_STAT_STEP step).set R.BOOT_STAT_VARIANT var
  ({ s with boot := { s.boot with open_ := some (step, var, arg) } }.crumb step 1 var 0 arg).stepKick step

/-- The step in progress hangs (R578). -/
def State.hung (s : State) : Bool := match s.boot.open_ with
  | some o => s.boot.env.hang == some o.1
  | none => false

/-- The rest of a step, unless it hangs; the resource then under test is noted (R579). -/
def State.orHang (s : State) (f : State → State) : State :=
  if s.hung then { s with boot := { s.boot with hungAt := some s.boot.env.hangAt } } else f s

/-- A step ends well: OK breadcrumb, the variant stored, FAILS 0. -/
def State.stepOk (s : State) (step var code arg : Nat) : State :=
  let i := s.get R.BOOT_BC_HEAD_HEAD % 256
  let s := { s with boot := { s.boot with open_ := none, hist := Cells.put s.boot.hist step (var, 0, 0) } }.crumb step 2 var code arg
  { s with boot := { s.boot with okSteps := Cells.put s.boot.okSteps step i } }

/-- FAILS advances with CLASS and SUB, and the FAIL breadcrumb is written with the ARG of the BEGIN (R572, R576). -/
def State.failed (s : State) (step var code arg : Nat) : State :=
  let h := s.histOf step
  { s with boot := { s.boot with hist := Cells.put s.boot.hist step (h.1, min 15 (h.2.1 + 1), code) } }.crumb step 3 var code arg

/-- The step in progress fails with CLASS and SUB. -/
def State.stepFail (s : State) (step var code : Nat) : State :=
  let arg := match s.boot.open_ with
    | some o => if o.1 = step then o.2.2 else 0
    | none => 0
  { s with boot := { s.boot with open_ := none } }.failed step var code arg

/-- A journal entry (R575); a write that fails sets JFAIL and a NOTE breadcrumb of the step. -/
def State.journalNote (s : State) (state step : Nat) : State :=
  let bad := !s.isChainDie && (s.dirEnt 8).isNone
  let s := s.journal state step (s.get R.BOOT_STAT_ENTRY)
  if bad then s.crumb step 5 0 0 0 else s

/-- Bytes 0 to 23 of a BOOTREP message (R431): its kind, the die it concerns, this die's state, its UID. -/
def State.bootRep (s : State) (kind die : Nat) : List Nat :=
  let d := if s.get R.BOOT_STAT_PHASE = 4 then s.get R.BOOT_FATAL_DETAIL else if s.boot.slotTmo then 0x0100 else 0
  [kind, die, s.get R.BOOT_STAT_PHASE, s.get R.BOOT_STAT_STEP, d % 256, d / 256, 0, 0] ++ toBytes 16 s.uid

/-- Report PHASE, step and detail to die 0 (R570); a test window taken without a slot is reported once (R569). -/
def State.bootReport (s : State) : State :=
  if s.isDie0 then s
  else { s.mgmtZero 0x0E (s.bootRep 4 s.die) with boot := { s.boot with slotTmo := false } }

/-- The die ends FAILED (R580). -/
def State.bootFatal (s : State) (step code : Nat) : State :=
  let romOnly := s.get R.BOOT_STAT_PHASE < 2
  let s := ((s.set R.BOOT_STAT_PHASE 4).set R.BOOT_FATAL_VALID 1).set R.BOOT_FATAL_STEP step
  let s := (s.set R.BOOT_FATAL_DETAIL code).journalNote 2 step
  let s := { s with boot := { s.boot with failedOnly := romOnly } }
  (if romOnly then s else s.ownElect).bootReport

/-- The bring-up goes on: not FAILED, not in HALT, no step hung. -/
def State.booting (s : State) : Bool := s.get R.BOOT_STAT_PHASE < 3 && s.boot.open_.isNone

/-- Run the next step unless the bring-up has ended. -/
def State.andThen (s : State) (f : State → State) : State := if s.booting then f s else s

/-- Steps whose breadcrumbs the ROM writes and whose history it keeps (R573, R576). -/
def romStep (st : Nat) : Bool := (3 ≤ st && st ≤ 5) || st == 22

/-- A step that the last bring-up began and did not end counts as failed with CLASS INTERRUPTED (R576). -/
def State.interrupted (s : State) (rom : Bool) : State :=
  match s.boot.inter with
  | some (st, v, a) => if romStep st == rom then { s with boot := { s.boot with inter := none } }.failed st v 0x0400 a else s
  | none => s

/-! ## Ramps at bring-up -/

/-- A ramp aborts (R522): lockout, ABORTED, the log, vector 15, and the POWER record when FAB is on. `pos` is the bit of
R547. -/
def State.rampAbort (s : State) (pos cause : Nat) : State :=
  let s := if pos < 16 then
      (s.set R.PWR_LOCKOUT_LOCK_DOM (putBit (s.get R.PWR_LOCKOUT_LOCK_DOM) pos true)).set R.PWR_ABORTED_AB_DOM
        (putBit (s.get R.PWR_ABORTED_AB_DOM) pos true)
    else (s.set R.PWR_LOCKOUT_LOCK_EMB (putBit (s.get R.PWR_LOCKOUT_LOCK_EMB) (pos - 16) true)).set R.PWR_ABORTED_AB_EMB
        (putBit (s.get R.PWR_ABORTED_AB_EMB) (pos - 16) true)
  let dom := if pos < 16 then pos else 8
  let s := (((s.set R.PWR_ABORTLOG_TB (s.tb % 2 ^ 32)).set R.PWR_ABORTLOG_CAUSE cause).set R.PWR_ABORTLOG_DOMAIN dom).set
    R.PWR_ABORTLOG_EMBER (pos - 16)
  let s := (s.set R.PWR_EVT_ABORT 1).vectorIf (s.flag R.PWR_CTL_IRQ) 15
  if pos = 0 then s else s.fault { cls := 8, cause, src := dom, sub := pos - 16 }

/-- The domain is locked out (R522). -/
def State.locked (s : State) (d : Nat) : Bool :=
  if d < 16 then bitB (s.get R.PWR_LOCKOUT_LOCK_DOM) d else bitB (s.get R.PWR_LOCKOUT_LOCK_EMB) (d - 16)

/-- Mark a domain powered or not (PWR_DOM_ON). -/
def State.domPut (s : State) (d : Nat) (on : Bool) : State :=
  if d < 16 then s.set R.PWR_DOM_ON_ON_DOM (putBit (s.get R.PWR_DOM_ON_ON_DOM) d on)
  else s.set R.PWR_DOM_ON_ON_EMB (putBit (s.get R.PWR_DOM_ON_ON_EMB) (d - 16) on)

/-- Ramp a named domain in the bring-up: off when locked out, aborted as the environment has it, on otherwise. -/
def State.bootRamp (s : State) (d : Nat) : State :=
  if s.locked d then s
  else match s.boot.env.domAbort.lookup d with
    | some cur => s.rampAbort d (if cur then 2 else 1)
    | none => s.domPut d true

/-- Physical Ember of logical Ember l, when mapped. -/
def State.physOf (s : State) (l : Nat) : Option Nat :=
  let b := bitsOf (s.get R.BOOT_DEF_MAP_MAP (l / 4)) (8 * (l % 4)) 8
  if b ≥ 0x80 then some (b % 32) else none

end Sys2Proof.Machine
end

