-- ==== Sys2Proof/Machine/Tephra.lean ====
section
/-!
DEFINITION. The Basin, the Tephra array and the Geyser drain (R108 to R148): the accumulator word, the instructions that act
on tiles at once, and the two queues. A tile's copies are named 2 × tile + copy.
-/

namespace Sys2Proof.Machine

/-! ## Formats (R108 to R110) -/

/-- Storage bits of an operand format. -/
def tphBits (f : Nat) : Nat := [4, 4, 4, 8, 8, 8, 8, 8, 8, 16, 16, 32].getD f 0

/-- Class of a format: 4-bit, 8-bit, FP16, long. -/
def tphClass (f : Nat) : Nat := [0, 0, 0, 1, 1, 1, 1, 1, 1, 2, 3, 3].getD f 4

/-- K granule of a class (R109). -/
def tphGranule (c : Nat) : Nat := [64, 32, 8, 2].getD c 2

/-- The value of an operand element (R112). -/
def tphVal (f c : Nat) : Fv :=
  match f with
  | 0 => Fv.ofInt (sgn 4 c) 0
  | 1 => Fv.ofInt (c % 16 : Nat) 0
  | 2 => e2m1.dec c
  | 3 => Fv.ofInt (sgn 8 c) 0
  | 4 => Fv.ofInt (c % 256 : Nat) 0
  | 5 => e3m2.dec (c % 64)
  | 6 => e2m3.dec (c % 64)
  | 7 => e4m3.dec c
  | 8 => e5m2.dec c
  | 9 => f16.dec c
  | 10 => bf16.dec c
  | _ => f32.dec c

/-- The LONGACC licence is in force (R594, R595). -/
def State.longAcc (s : State) : Bool := bitB (s.get R.BOOT_LICSTAT_EN) 1

/-- Sub-causes of a pair of formats (R108, R110). -/
def State.fmtBad (s : State) (a b : Nat) : List Nat :=
  badIf (a > 11 || b > 11 || tphClass a ≠ tphClass b || (tphClass a = 3 && !s.longAcc)) 8

/-! ## The accumulator word (R111 to R118) -/

/-- What an accumulator word holds: V in units, the special tags, SAT. -/
structure AccW where
  v : Int := 0
  pinf : Bool := false
  ninf : Bool := false
  nan : Bool := false
  sat : Bool := false
  deriving DecidableEq, Repr

def AccW.tags (a : AccW) : Nat := b2n a.pinf * 2 ^ 121 + b2n a.ninf * 2 ^ 122 + b2n a.nan * 2 ^ 123 + b2n a.sat * 2 ^ 124

/-- A short-form word read from its bits. -/
def AccW.ofShort (x : Nat) : AccW :=
  { v := sgn 121 x, pinf := bitB x 121, ninf := bitB x 122, nan := bitB x 123, sat := bitB x 124 }
def AccW.short (a : AccW) : Nat := unsgn 121 a.v + a.tags

/-- A long-form word read from its five slices, lowest first. -/
def AccW.ofLong (l : List Nat) : AccW :=
  let v := l.foldr (fun x m => bitsOf x 0 119 + 2 ^ 119 * m) 0
  { AccW.ofShort (l.getD 0 0) with v := sgn 595 v }
def AccW.long (a : AccW) : List Nat :=
  let v := unsgn 595 a.v
  (List.range 5).map fun k => bitsOf v (119 * k) 119 + (if k = 0 then a.tags else 0)

/-- The value of a word (R115); `u` is the exponent of its unit. -/
def AccW.val (a : AccW) (u : Int) : Fv :=
  if a.nan || (a.pinf && a.ninf) then .nan
  else if a.pinf then .inf false
  else if a.ninf then .inf true
  else Fv.ofInt a.v u

/-- Exponent of the unit of a short or a long word. -/
def accUnit (long : Bool) : Int := if long then -298 else -48

/-- Add V and tags into a word (R115, R116): the word, and whether it saturated. -/
def AccW.plus (long : Bool) (a d : AccW) : AccW × Bool :=
  let r : AccW := { a with pinf := a.pinf || d.pinf, ninf := a.ninf || d.ninf, nan := a.nan || d.nan }
  if a.sat then (r, false)
  else
    let hi : Int := (if long then 2 ^ 594 else 2 ^ 120) - 1
    let lo : Int := -hi - 1
    let v := a.v + d.v
    if v > hi then ({ r with v := hi, sat := true }, true)
    else if v < lo then ({ r with v := lo, sat := true }, true)
    else ({ r with v }, false)

/-- The products of two rows of elements summed exactly, special products as tags (R112, R115; log entry 29). -/
def dotAcc (long : Bool) (a b : List Fv) : AccW :=
  (a.zip b).foldl (fun (w : AccW) (p : Fv × Fv) => match p.1.mul p.2 with
    | .nan => { w with nan := true }
    | .inf n => if n then { w with ninf := true } else { w with pinf := true }
    | .fin n m e => { w with v := w.v + (if m = 0 then 0 else sMag n m e (accUnit long)) }) {}

/-! ## Basin words -/

/-- Which copy a tile's primary or shadow is. -/
def Block.cpy (k : Block) (t : Nat) (shadow : Bool) : Nat := 2 * t + (if bitB k.sw t != shadow then 1 else 0)

def Block.basGet (k : Block) (c w : Nat) : Nat := (Cells.get (0 : BitVec 128) k.basin (c * 256 + w)).toNat
def Block.basPut (k : Block) (c w x : Nat) : Block :=
  { k with basin := Cells.set 0 k.basin (c * 256 + w) (BitVec.ofNat 128 x) }

/-- Write a word: reserved bits read as zero, and TSAT of word 0 stays or is set (R111, R118). -/
def Block.basWr (k : Block) (c w x : Nat) : Block :=
  let t := if w = 0 && (bitB (k.basGet c 0) 125 || bitB x 125) then 2 ^ 125 else 0
  k.basPut c w (bitsOf x 0 125 + t)

/-- Clear a copy: V, tags and TSAT (R130, R135). -/
def Block.basZero (k : Block) (c : Nat) : Block :=
  { k with basin := k.basin.filter fun p => p.1 / 256 != c }

def Block.tsat (k : Block) (c : Nat) : Bool := bitB (k.basGet c 0) 125
def Block.setTsat (k : Block) (c : Nat) (b : Bool) : Block := k.basPut c 0 (putBit (k.basGet c 0) 125 b)

/-- A word of a tile, or of a long-form group when five copies are named. -/
def Block.accGet (k : Block) (d : List Nat) (w : Nat) : AccW :=
  match d with
  | [c] => AccW.ofShort (k.basGet c w)
  | _ => AccW.ofLong (d.map fun c => k.basGet c w)

def Block.accPut (k : Block) (d : List Nat) (w : Nat) (a : AccW) : Block :=
  match d with
  | [c] => k.basWr c w a.short
  | _ => (d.zip a.long).foldl (fun (k : Block) (p : Nat × Nat) => k.basWr p.1 w p.2) k

/-- Overwrite a word, or add into it; the second component counts saturations. -/
def Block.accum (kn : Block × Nat) (d : List Nat) (w : Nat) (add : Bool) (x : AccW) : Block × Nat :=
  if add then
    let r := (kn.1.accGet d w).plus (d.length ≠ 1) x
    let k := kn.1.accPut d w r.1
    if r.2 then (d.foldl (fun (k : Block) c => k.setTsat c true) k, kn.2 + 1) else (k, kn.2)
  else (kn.1.accPut d w x, kn.2)

/-- Write raw bits from registers or Caldera: an overwrite keeps what the data carries; an add is exact, and SAT and TSAT in
the data are carried (R118, R135, R136; log entry 29). -/
def Block.accRaw (kn : Block × Nat) (c w x : Nat) (add : Bool) : Block × Nat :=
  if add then
    let r := Block.accum kn [c] w true (AccW.ofShort x)
    (r.1.basWr c w ((r.1.basGet c w) ||| (if bitB x 124 then 2 ^ 124 else 0) ||| (if w = 0 && bitB x 125 then 2 ^ 125 else 0)), r.2)
  else (kn.1.basWr c w x, kn.2)

/-- Store a block after n saturations (R116, R148). -/
def State.basDone (s : State) (e b : Nat) (kn : Block × Nat) : State :=
  let s := s.blkPut e b kn.1
  if kn.2 = 0 then s else s.addSat R.TPH_SATCNT_COUNT kn.2 e

/-! ## Operands in Caldera (R123) -/

/-- Element idx of a stored row. -/
def Block.calElem (k : Block) (a pitch bits row idx : Nat) : Nat :=
  let o := idx * bits
  bitsOf (ofBytes (k.calGet (a + row * pitch + o / 8) ((bits + 7) / 8))) (o % 8) bits

/-- Address and pitch of a Caldera region of `rows` rows of `len` bytes are fit. -/
def calFault (size a pitch rows len : Nat) : Option XFault :=
  if a % 16 ≠ 0 || pitch % 16 ≠ 0 then some (xIll 0xA)
  else if a + (rows - 1) * pitch + len > size then some xCal
  else none

/-- The worse of two faults (R107). -/
def worse (a b : Option XFault) : Option XFault :=
  match a, b with
  | none, b => b
  | a, none => a
  | some x, some y => if y.rank < x.rank then some y else some x

/-- Tiles first to first + n − 1 lie in the allocation. -/
def basFault (k : Block) (first n : Nat) : Option XFault := if first + n > k.info.tiles then some xBasin else none

/-! ## The queues (R119 to R121, R141, R142) -/

/-- Copies that an operation writes, and those it reads. -/
def TOp.writes (o : TOp) : List Nat :=
  match o.k with
  | .mm d .. => d
  | .mmf d .. => d
  | .drain t _ _ _ _ _ _ clr _ _ => if clr then t.flatten else []
  | .copy t load _ _ => if load then t else []
def TOp.reads (o : TOp) : List Nat :=
  match o.k with
  | .mm d .. => d
  | .mmf d .. => d
  | .drain t _ _ _ _ _ _ _ _ _ => t.flatten
  | .copy t _ _ _ => t

def meets (a b : List Nat) : Bool := a.any fun x => b.contains x

/-- Operations of a block in both queues. -/
def Ember.ops (x : Ember) (b : Nat) : List TOp := (x.tq ++ x.gq).filter fun o => o.blk == b

/-- An instruction that reads and writes copies must wait (R119, R120). -/
def Ember.basWait (x : Ember) (b : Nat) (rd wr : List Nat) : Bool :=
  (x.ops b).any fun o => meets o.writes (rd ++ wr) || (!o.started && meets o.reads wr)

/-- Charge of the queued and running operations. -/
def Ember.charge (x : Ember) : Nat := (x.tq ++ x.gq).foldl (fun n o => n + o.charge) 0

/-- Queue an operation if there is room (R141). -/
def Ember.accept (x : Ember) (geyser : Bool) (o : TOp) : Option Ember :=
  let o := { o with id := x.nextId }
  if x.charge + o.charge > 4096 then none
  else if geyser then (if x.gq.length < 8 then some { x with gq := x.gq ++ [o], nextId := x.nextId + 1 } else none)
  else if x.tq.length < 16 then some { x with tq := x.tq ++ [o], nextId := x.nextId + 1 } else none

/-- Queue the operation of each thread in turn, as far as there is room: the Ember, and the threads left. -/
def Ember.acceptAll (x : Ember) (geyser : Bool) (f : Thr → TOp) : List Thr → Ember × List Thr
  | [] => (x, [])
  | t :: l => match x.accept geyser (f t) with
    | some x => x.acceptAll geyser f l
    | none => (x, t :: l)

/-- Issue an instruction that queues one operation for each thread; the entry stalls with those that found no room. -/
def State.issueQueue (s : State) (e slot : Nat) (geyser : Bool) (i : Ins) (xf : Block → Thr → Option XFault)
    (f : Block → Nat → Thr → TOp) : State :=
  match s.check e slot i xf with
  | .stall => s
  | .fault b t => s.terminate e b t
  | .go b k en act pc =>
    match (s.em e).acceptAll geyser (f k b) act with
    | (x, []) => ((s.emPut e x).issued e slot en).nextPc e slot pc i.words
    | (x, l) =>
      let done := en.done ++ act.filter fun t => !l.contains t
      s.emPut e { x with entries := Cells.put x.entries slot { en with done } }

/-! ## tma.mm (R122 to R125) -/

/-- The descriptor bits of a two-word instruction (R75). -/
def descOf (w : Nat) (w2 : DWord) : Nat := bitsOf w 0 51 + 2 ^ 51 * bitsOf w2.toNat 0 56

/-- Findings common to the two-word instructions: the second word must be a continuation word. -/
def descBad (w2 : DWord) : List Nat := badIf (bitsOf w2.toNat 56 8 ≠ 0xFF) 2

/-- Copies of the destination: a tile, or a long-form group. -/
def Block.dstTiles (k : Block) (dt : Nat) (long : Bool) : List Nat :=
  (List.range (if long then 5 else 1)).map fun n => k.cpy (dt + n) false

/-- Findings of tma.mm: its two words and its descriptor. -/
def mmIns (s : State) (w : Nat) (w2 : DWord) : Ins :=
  let d := descOf w w2
  let ops : List Opnd := [{ sel := bitsOf d 20 9 }, { sel := bitsOf d 29 9 }, { sel := bitsOf d 38 9 }, { sel := bitsOf d 47 9 }]
  { w, ops, words := 2, mem := true
    bad := descBad w2 ++ badIf (bitsOf d 59 48 ≠ 0) 2 ++ s.fmtBad (bitsOf d 5 4) (bitsOf d 9 4) ++ ops.flatMap Opnd.bad }

/-- Depth of a tma.mm. -/
def mmDepth (d : Nat) : Nat := (bitsOf d 15 5 + 1) * tphGranule (tphClass (bitsOf d 5 4))

/-- The operand whose address selector lies at bit o of the descriptor. -/
def Block.mmSrc (k : Block) (t : Thr) (d o : Nat) (tr : Bool) : TSrc :=
  { addr := k.rd t (bitsOf d o 9), pitch := k.rd t (bitsOf d (o + 9) 9), tr }

/-- Faults of a thread's operands and destination: A is 16 rows of K unless ATR, B is K rows of 16 unless BTR. -/
def mmFault (d : Nat) (k : Block) (t : Thr) : Option XFault :=
  let n := mmDepth d
  let bits := tphBits (bitsOf d 5 4)
  let fit := fun (x : TSrc) (wide : Bool) =>
    if wide then calFault k.calSize x.addr x.pitch 16 (n * bits / 8) else calFault k.calSize x.addr x.pitch n (16 * bits / 8)
  worse (worse (fit (k.mmSrc t d 20 (bitB d 13)) (!bitB d 13)) (fit (k.mmSrc t d 38 (bitB d 14)) (bitB d 14)))
    (basFault k (bitsOf d 0 4) (if tphClass (bitsOf d 5 4) = 3 then 5 else 1))

/-- The operation a thread queues. -/
def mmOp (d : Nat) (k : Block) (b : Nat) (t : Thr) : TOp := {
  id := 0, blk := b, coh := t.1, lane := t.2, grp := bitsOf d 56 3, charge := 8 * (bitsOf d 15 5 + 1) + 24,
  k := .mm (k.dstTiles (bitsOf d 0 4) (tphClass (bitsOf d 5 4) = 3)) (bitB d 4) (bitsOf d 5 4) (bitsOf d 9 4) (mmDepth d)
    (k.mmSrc t d 20 (bitB d 13)) (k.mmSrc t d 38 (bitB d 14)) }

def execTmaMm (e : Fin 16) (slot : Fin 128) (w : BitVec 56) (w2 : DWord) (s : State) : Host.Outcome State Fault Refusal :=
  let w := word56 0xC0 w
  let d := descOf w w2
  .next (s.issueQueue e slot false (mmIns s w w2) (mmFault d) (mmOp d))

/-- The words of a 16 × 16 product of A by rows and B by columns. -/
def Block.matmul (k : Block) (d : List Nat) (add : Bool) (a b : List (List Fv)) : Block × Nat :=
  (a.zipIdx.flatMap fun r => b.zipIdx.map fun c => (r, c)).foldl
    (fun (kn : Block × Nat) (p : (List Fv × Nat) × (List Fv × Nat)) =>
      Block.accum kn d (16 * p.1.2 + p.2.2) add (dotAcc (d.length ≠ 1) p.1.1 p.2.1)) (k, 0)

/-- A row of A or a column of B as a solo multiply reads it: element i of vector r. -/
def Block.operand (k : Block) (x : TSrc) (f n : Nat) (byRow : Bool) : List (List Fv) :=
  (List.range 16).map fun r => (List.range n).map fun i =>
    tphVal f (if byRow then k.calElem x.addr x.pitch (tphBits f) r i else k.calElem x.addr x.pitch (tphBits f) i r)

/-- Mark an operation as started. -/
def markStarted (id : Nat) (l : List TOp) : List TOp := l.map fun o => if o.id == id then { o with started := true } else o

/-- The operation that may start next in a queue: the first unstarted, when every earlier-accepted operation that names a
common copy has started. -/
def Ember.nextOp (x : Ember) (q : List TOp) : Option TOp :=
  (q.find? fun o => !o.started).bind fun o =>
    if (x.ops o.blk).any fun p => p.id < o.id && !p.started && meets p.reads o.reads then none else some o

/-- The Tephra array starts its next operation: the products enter the Basin (R124, R125, R128, R142). -/
def State.tphStart (s : State) (e : Nat) : State :=
  let x := s.em e
  match x.nextOp x.tq with
  | none => s
  | some o => match x.blocks.lookup o.blk with
    | none => s
    | some k =>
      let s := (s.emPut e { x with tq := markStarted o.id x.tq }).embEvt e 9 (o.charge - 24)
      let macs := fun (s : State) (n : Nat) => s.set R.TPH_MACS_COUNT (s.get R.TPH_MACS_COUNT e + 256 * n) e
      match o.k with
      | .mm d add af bf n a b =>
        (macs s n).basDone e o.blk (k.matmul d add (k.operand a af n !a.tr) (k.operand b bf n b.tr))
      | .mmf d add af bf a b =>
        let n := (a.getD 0 []).length
        (macs s n).basDone e o.blk (k.matmul d add (a.map fun r => r.map (tphVal af)) (b.map fun r => r.map (tphVal bf)))
      | _ => s

def execTephraOpStart (e : Fin 16) (s : State) : Host.Outcome State Fault Refusal :=
  .next (if s.embOn e then s.tphStart e else s)

/-! ## Conversion of words (R130 to R133) -/

/-- The next draw of the Ember's generator (R133). -/
def State.tphDraw (s : State) (e : Nat) : Nat × State :=
  let m := 2 ^ 64
  let x := s.get R.TPH_SEED_STATE e
  let x := x ^^^ (x <<< 13 % m)
  let x := x ^^^ (x >>> 7)
  let x := x ^^^ (x <<< 17 % m)
  (bitsOf x 32 32, s.set R.TPH_SEED_STATE x e)

/-- The value Geyser rounds (R132). -/
def geyserVal (v : Fv) (shift : Int) (scale : Fv) (relu : Bool) : Fv :=
  let x := match v, scale with
    | .nan, _ | _, .nan => .nan
    | .inf n, .inf m => .inf (n != m)
    | .inf n, .fin m z _ => if z = 0 then .nan else .inf (n != m)
    | .fin n z _, .inf m => if z = 0 then .fin false 0 0 else .inf (n != m)
    | .fin n z e, .fin n' z' e' => if z = 0 then .fin false 0 0 else .fin (n != n') (z * z') (e + e' + shift)
  if relu then (match x with
    | .inf true => .fin false 0 0
    | .fin true _ _ => .fin false 0 0
    | x => x)
  else x

/-- Round a value to an output element; a stochastic rounding draws (R133). -/
def State.geyserElem (s : State) (e ofmt rnd : Nat) (v : Fv) : State × Nat :=
  if rnd = 2 then let (r, s) := s.tphDraw e; (s, outElem ofmt (.sto r) v) else (s, outElem ofmt (Rnd.of rnd) v)

/-- Convert a list of values in order. -/
def State.geyserElems (s : State) (e ofmt rnd : Nat) (l : List Fv) : State × List Nat :=
  l.foldl (fun (r : State × List Nat) v => let (s, x) := r.1.geyserElem e ofmt rnd v; (s, r.2 ++ [x])) (s, [])

/-- Bytes of elements of `bits` bits, the first in the lowest bits. -/
def packElems (bits : Nat) (l : List Nat) : List Nat :=
  toBytes (l.length * bits / 8) (l.foldr (fun x m => x + 2 ^ bits * m) 0)

/-! ## acc.drain and acc.copy (R130, R134, R136) -/

/-- Bits of a drain's output element. -/
def drainBits (ofmt : Nat) (long : Bool) : Nat := if ofmt = 13 then (if long then 640 else 128) else outBits ofmt

/-- Findings of acc.drain. -/
def drainIns (s : State) (w : Nat) (w2 : DWord) : Ins :=
  let d := descOf w w2
  let ofmt := bitsOf d 10 4
  let scl := bitB d 25
  let ops : List Opnd := [{ sel := bitsOf d 28 9, n := if bitB d 26 then 2 else 1 }, { sel := bitsOf d 37 9 }] ++
    (if scl then [{ sel := bitsOf d 46 9 }] else [])
  { w, ops, words := 2, mem := true
    bad := descBad w2 ++ badIf (bitsOf d 58 49 ≠ 0 || (ofmt = 13 && bitsOf d 14 12 ≠ 0) ||
        (!scl && bitsOf d 46 9 ≠ 0 && bitsOf d 46 9 ≠ 0x1FF)) 2 ++
      badIf (ofmt ≥ 14 || bitsOf d 14 2 = 3 || (bitB d 9 && (bitsOf d 4 4 + 1 > 3 || !s.longAcc))) 8 ++ ops.flatMap Opnd.bad }

/-- Destination and pitch of a drain. -/
def Block.drainAddr (k : Block) (t : Thr) (d : Nat) : Nat := k.rdGroup t (bitsOf d 28 9) (if bitB d 26 then 2 else 1)

/-- Faults of a drain: its output range, its scales, its tiles. -/
def drainFault (d : Nat) (k : Block) (t : Thr) : Option XFault :=
  let nt := bitsOf d 4 4 + 1
  let long := bitB d 9
  worse (worse (calFault (if bitB d 26 then 2 ^ 128 else k.calSize) (k.drainAddr t d) (k.rd t (bitsOf d 37 9)) 16
      (16 * nt * drainBits (bitsOf d 10 4) long / 8))
      (if bitB d 25 && k.rd t (bitsOf d 46 9) + 64 * nt > k.calSize then some xCal else none))
    (basFault k (bitsOf d 0 4) (if long then 5 * nt else nt))

/-- Cost of a drained tile or group (R141). -/
def drainCost (ofmt : Nat) (long : Bool) : Nat := if ofmt = 13 then (if long then 160 else 32) else if long then 64 else 16

/-- The operation a thread queues. -/
def drainOp (d : Nat) (k : Block) (b : Nat) (t : Thr) : TOp :=
  let t0 := bitsOf d 0 4
  let nt := bitsOf d 4 4 + 1
  let long := bitB d 9
  let ofmt := bitsOf d 10 4
  { id := 0, blk := b, coh := t.1, lane := t.2, grp := bitsOf d 55 3, charge := drainCost ofmt long * nt + 24,
    k := .drain ((List.range nt).map fun i => (List.range (if long then 5 else 1)).map fun j =>
        k.cpy (if long then t0 + 5 * i + j else t0 + i) !bitB d 8)
      ofmt (bitsOf d 14 2) (bitB d 16) (sgn 8 (bitsOf d 17 8)) (if bitB d 25 then some (k.rd t (bitsOf d 46 9)) else none)
      (bitB d 26) (bitB d 27) (k.drainAddr t d) (k.rd t (bitsOf d 37 9)) }

def execAccDrain (e : Fin 16) (slot : Fin 128) (w : BitVec 56) (w2 : DWord) (s : State) : Host.Outcome State Fault Refusal :=
  let w := word56 0xC1 w
  let d := descOf w w2
  .next (s.issueQueue e slot true (drainIns s w w2) (drainFault d) (drainOp d))

/-- Findings of acc.copy. -/
def accCopyIns (w : Nat) (w2 : DWord) : Ins :=
  let d := descOf w w2
  let ops : List Opnd := [{ sel := bitsOf d 11 9 }]
  { w, ops, words := 2, mem := true,
    bad := descBad w2 ++ badIf (bitsOf d 23 84 ≠ 0 || (bitB d 10 && !bitB d 9)) 2 ++ ops.flatMap Opnd.bad }

def accCopyFault (d : Nat) (k : Block) (t : Thr) : Option XFault :=
  let nt := bitsOf d 4 4 + 1
  worse (calFault k.calSize (k.rd t (bitsOf d 11 9)) 0 1 (4096 * nt)) (basFault k (bitsOf d 0 4) nt)

/-- The operation a thread queues. -/
def accCopyOp (d : Nat) (k : Block) (b : Nat) (t : Thr) : TOp :=
  let nt := bitsOf d 4 4 + 1
  { id := 0, blk := b, coh := t.1, lane := t.2, grp := bitsOf d 20 3, charge := 32 * nt + 24,
    k := .copy ((List.range nt).map fun i => k.cpy (bitsOf d 0 4 + i) !bitB d 8) (bitB d 9) (bitB d 10) (k.rd t (bitsOf d 11 9)) }

def execAccCopy (e : Fin 16) (slot : Fin 128) (w : BitVec 56) (w2 : DWord) (s : State) : Host.Outcome State Fault Refusal :=
  let w := word56 0xC2 w
  let d := descOf w w2
  .next (s.issueQueue e slot true (accCopyIns w w2) (accCopyFault d) (accCopyOp d))

/-- Cut bytes at an address into pieces that stay within memory lines. -/
def cutLines : Nat → Nat → List Nat → List (Nat × List Nat)
  | 0, _, _ => []
  | _, _, [] => []
  | fuel + 1, a, bs => let n := 128 - a % 128; (a, bs.take n) :: cutLines fuel (a + n) (bs.drop n)

/-- Geyser starts its next operation: it converts and writes, or copies (R130 to R136, R142). -/
def State.gsrStart (s : State) (e : Nat) : State :=
  let x := s.em e
  match x.nextOp x.gq with
  | none => s
  | some o => match x.blocks.lookup o.blk with
    | none => s
    | some k =>
      let s := s.emPut e { x with gq := markStarted o.id x.gq }
      match o.k with
      | .copy t load add a =>
        let at_ := fun (p : Nat × Nat) (w : Nat) => a + 4096 * p.2 + 16 * w
        let kn := t.zipIdx.foldl (fun (kn : Block × Nat) (p : Nat × Nat) =>
          (List.range 256).foldl (fun (kn : Block × Nat) w =>
            if load then Block.accRaw kn p.1 w (ofBytes (kn.1.calGet (at_ p w) 16)) add
            else (kn.1.calPut (at_ p w) (toBytes 16 (kn.1.basGet p.1 w)), kn.2)) kn) (k, 0)
        s.basDone e o.blk kn
      | .drain t ofmt rnd relu shift scl glob clr a pitch =>
        let bits := drainBits ofmt (t.any fun d => d.length ≠ 1)
        let scale := fun (i j : Nat) => match scl with
          | some p => f32.dec (ofBytes (k.calGet (p + 64 * i + 4 * j) 4))
          | none => .fin false 1 0
        -- one list of 256 elements for each tile or group, in ascending order
        let r := t.zipIdx.foldl (fun (r : State × List (List Nat)) (p : List Nat × Nat) =>
          if ofmt = 13 then
            (r.1, r.2 ++ [(List.range 256).map fun w => (p.1.map fun c => k.basGet c w).foldr (fun x m => x + 2 ^ 128 * m) 0])
          else
            let vs := (List.range 256).map fun w =>
              geyserVal ((k.accGet p.1 w).val (accUnit (p.1.length ≠ 1))) shift (scale p.2 (w % 16)) relu
            let (s, l) := r.1.geyserElems e ofmt rnd vs
            (s, r.2 ++ [l])) (s, [])
        let rows := (List.range 16).map fun i => packElems bits (r.2.flatMap fun l => (l.drop (16 * i)).take 16)
        let s := if clr then r.1.blkMod e o.blk fun k => t.flatten.foldl (fun (k : Block) c => k.basZero c) k else r.1
        rows.zipIdx.foldl (fun (s : State) (p : List Nat × Nat) =>
          let at_ := a + p.2 * pitch
          if glob then (cutLines 80 (at_ % 2 ^ 64) p.1).foldl (fun (s : State) (c : Nat × List Nat) =>
            s.stGo e o.blk (o.coh, o.lane) c.1 c.2) s
          else s.blkMod e o.blk fun k => k.calPut at_ p.1) s
      | _ => s

def execGeyserOpStart (e : Fin 16) (s : State) : Host.Outcome State Fault Refusal :=
  .next (if s.embOn e then s.gsrStart e else s)

/-- A write of TPH_SEED (R148). -/
def State.tphSeed (s : State) (e v : Nat) : State :=
  s.set R.TPH_SEED_STATE (if v % 2 ^ 64 = 0 then R.TPH_SEED_STATE.rst else v) e

/-! ## Instructions on tiles at once (R120, R121, R135) -/

/-- Findings of a one-word ALU instruction of class 0xD: form, unused fields. -/
def tileBad (w : Nat) (dUsed aUsed bUsed : Bool) (mods : Nat) : List Nat :=
  let free := fun (x : Nat) => x = 0 || x = 0x1FF
  badIf (iF w) 1 ++
  badIf (iC w ≠ 0 || andNot (iMod w) mods ≠ 0 || (!dUsed && !free (iD w)) || (!aUsed && !free (iA w)) ||
    (!bUsed && !free (iB w))) 2

/-- A field that names a tile. -/
def tileField (x : Nat) : List Nat := badIf (x ≥ 16) 2

/-- Tiles of a mask register, or every allocated tile for rz. -/
def Block.tileMask (k : Block) (t : Thr) (sel : Nat) : List Nat :=
  if sel = 0x1FF then List.range k.info.tiles else (List.range 16).filter fun i => bitB (k.rd t sel) i

def maskFault (sel : Nat) (k : Block) (t : Thr) : Option XFault :=
  if (k.tileMask t sel).any (· ≥ k.info.tiles) then some xBasin else none

/-- Issue an instruction that reads and writes tiles: it waits for the queues, then acts for each thread in turn. -/
def State.issueTile (s : State) (e slot : Nat) (i : Ins) (xf : Block → Thr → Option XFault)
    (rd wr : Block → Thr → List Nat) (f : Block × Nat → Thr → Block × Nat) : State :=
  s.issue e slot i xf fun s b _ act pc => match s.blk? e b with
    | none => none
    | some k =>
      if act.any fun t => (s.em e).basWait b (rd k t) (wr k t) then none
      else some ((s.basDone e b (act.foldl f (k, 0))).nextPc e slot pc 1)

/-- Findings of acc.swap. -/
def swapIns (w : Nat) : Ins :=
  let ops : List Opnd := [{ sel := iA w }]
  { w, ops, bad := tileBad w false true false 0 ++ ops.flatMap Opnd.bad }

def execAccSwap (e : Fin 16) (slot : Fin 128) (w : BitVec 56) (s : State) : Host.Outcome State Fault Refusal :=
  let w := word56 0xD1 w
  let names := fun (k : Block) (t : Thr) => (k.tileMask t (iA w)).flatMap fun i => [2 * i, 2 * i + 1]
  .next (s.issue e slot (swapIns w) (maskFault (iA w))
    fun s b _ act pc => match s.blk? e b with
      | none => none
      | some k =>
        if act.any fun t => ((s.em e).ops b).any fun o => meets (o.reads ++ o.writes) (names k t) then none
        else
          let sw := act.foldl (fun m t => (k.tileMask t (iA w)).foldl (fun m i => m ^^^ 2 ^ i) m) k.sw
          some ((s.blkPut e b { k with sw }).nextPc e slot pc 1))

/-- Findings of acc.zero. -/
def zeroIns (w : Nat) : Ins :=
  let ops : List Opnd := [{ sel := iA w }]
  { w, ops, bad := tileBad w false true false 3 ++ ops.flatMap Opnd.bad }

def execAccZero (e : Fin 16) (slot : Fin 128) (w : BitVec 56) (s : State) : Host.Outcome State Fault Refusal :=
  let w := word56 0xD2 w
  let names := fun (k : Block) (t : Thr) => (k.tileMask t (iA w)).flatMap fun i =>
    if bitB w 1 then [2 * i, 2 * i + 1] else [k.cpy i (bitB w 0)]
  .next (s.issueTile e slot (zeroIns w) (maskFault (iA w))
    (fun _ _ => []) names fun kn t => ((names kn.1 t).foldl (fun (k : Block) c => k.basZero c) kn.1, kn.2))

/-- Findings of acc.ld. -/
def accLdIns (w : Nat) : Ins :=
  let ops : List Opnd := [{ sel := iA w, n := 4 }, { sel := iB w }]
  { w, ops, bad := tileBad w true true true 3 ++ tileField (iD w) ++ badIf (!selIsV (iA w)) 3 ++ ops.flatMap Opnd.bad }

def execAccLd (e : Fin 16) (slot : Fin 128) (w : BitVec 56) (s : State) : Host.Outcome State Fault Refusal :=
  let w := word56 0xD3 w
  let t0 := iD w % 16
  .next (s.issueTile e slot
    (accLdIns w)
    (fun k _ => basFault k t0 1) (fun _ _ => []) (fun k _ => [k.cpy t0 (bitB w 1)])
    fun kn t => Block.accRaw kn (kn.1.cpy t0 (bitB w 1)) (kn.1.rd t (iB w) % 256) (kn.1.rdGroup t (iA w) 4) (bitB w 0))

/-- Findings of acc.st. -/
def accStIns (w : Nat) : Ins :=
  let ops : List Opnd := [{ sel := iD w, n := 4 }, { sel := iB w }]
  { w, ops, bad := tileBad w true true true 2 ++ tileField (iA w) ++ badIf (!selIsV (iD w)) 3 ++ ops.flatMap Opnd.bad }

def execAccSt (e : Fin 16) (slot : Fin 128) (w : BitVec 56) (s : State) : Host.Outcome State Fault Refusal :=
  let w := word56 0xD4 w
  let t0 := iA w % 16
  .next (s.issueTile e slot
    (accStIns w)
    (fun k _ => basFault k t0 1) (fun k _ => [k.cpy t0 (bitB w 1)]) (fun _ _ => [])
    fun kn t => (kn.1.wrGroup t (iD w) (kn.1.basGet (kn.1.cpy t0 (bitB w 1)) (kn.1.rd t (iB w) % 256)) 4, kn.2))

/-- Findings of acc.flags. -/
def flagsIns (w : Nat) : Ins :=
  let ops : List Opnd := [{ sel := iD w }]
  { w, ops, bad := tileBad w true false false 1 ++ ops.flatMap Opnd.bad ++ badIf (selIsU (iD w)) 5 }

def execAccFlags (e : Fin 16) (slot : Fin 128) (w : BitVec 56) (s : State) : Host.Outcome State Fault Refusal :=
  let w := word56 0xD8 w
  let all := fun (k : Block) => (List.range k.info.tiles).map fun t => (t, false)
  let pairs := fun (k : Block) => all k ++ (all k).map fun p => (p.1, true)
  let names := fun (k : Block) (_ : Thr) => (pairs k).map fun p => k.cpy p.1 p.2
  .next (s.issueTile e slot
    (flagsIns w)
    noFault names (fun k t => if bitB w 0 then names k t else [])
    fun kn t =>
      let k := kn.1
      let v := (pairs k).foldl (fun m p => m + (if k.tsat (k.cpy p.1 p.2) then 2 ^ (p.1 + (if p.2 then 16 else 0)) else 0)) 0
      let k' := if bitB w 0 then (names k t).foldl (fun (k : Block) c => k.setTsat c false) k else k
      (k'.wr t (iD w) v, kn.2))

/-! ## acc.max, acc.min, acc.topk (R138 to R140) -/

/-- A candidate: its word and its position. -/
abbrev Cand := Nat × Int

/-- Value of a candidate for the order of R139: −1, V or +1 around the finite values. -/
def candKey (x : Nat) : Int × Int :=
  match (AccW.ofShort x).val 0 with
  | .inf n => (if n then -1 else 1, 0)
  | _ => (0, (AccW.ofShort x).v)

/-- One candidate ranks before another: the better value, then the lower position. -/
def candLt (mn : Bool) (a b : Cand) : Bool :=
  let x := candKey a.1
  let y := candKey b.1
  if x == y then decide (a.2 < b.2)
  else
    let lt := decide (x.1 < y.1) || (x.1 == y.1 && decide (x.2 < y.2))
    lt == mn

def candInsert (mn : Bool) (c : Cand) : List Cand → List Cand
  | [] => [c]
  | d :: l => if candLt mn c d then c :: d :: l else d :: candInsert mn c l

/-- Unit of a short-form word's V. -/
def accOne : Int := 2 ^ 48

/-- A candidate is not NaN. -/
def candOk (c : Cand) : Bool := (AccW.ofShort c.1).val 0 != .nan

/-- Reduce one row of a tile into the result tile's row: n the entries of the result, p0 the word of its first position. -/
def Block.reduceRow (kn : Block × Nat) (src dst row ncol base n p0 : Nat) (mn merge : Bool) : Block × Nat :=
  let k := kn.1
  let fresh : List Cand := (List.range ncol).map fun j =>
    (bitsOf (k.basGet src (16 * row + j)) 0 125, ((base + j) % 2 ^ 16 : Nat))
  let old : List Cand := if merge then (List.range n).map fun i =>
      (bitsOf (k.basGet dst (16 * row + i)) 0 125, (AccW.ofShort (k.basGet dst (16 * row + p0 + i))).v / accOne)
    else []
  let best := ((fresh ++ old).filter candOk).foldl (fun l c => candInsert mn c l) []
  (List.range n).foldl (fun (kn : Block × Nat) i =>
    let c := best.getD i (2 ^ 123, 0xFFFF)
    ((kn.1.basWr dst (16 * row + i) c.1).basWr dst (16 * row + p0 + i) (AccW.short { v := c.2 * accOne }), kn.2)) kn

/-- Findings of acc.max, acc.min and acc.topk by kind: 0, 1, 2. -/
def reduceIns (kind w : Nat) : Ins :=
  let ops : List Opnd := [{ sel := iB w }]
  { w, ops, bad := tileBad w true true true (if kind = 2 then 0xFF7 else 0xF7) ++ tileField (iD w) ++ tileField (iA w) ++
      badIf ((if kind = 2 then bitsOf w 8 4 + 1 else 1) > 8) 8 ++ ops.flatMap Opnd.bad }

/-- Reduce the sixteen rows of the source tile for a thread. -/
def Block.reduceTile (kn : Block × Nat) (kind w : Nat) (t : Thr) : Block × Nat :=
  let n := if kind = 2 then bitsOf w 8 4 + 1 else 1
  (List.range 16).foldl (fun (kn : Block × Nat) i =>
    Block.reduceRow kn (kn.1.cpy (iA w % 16) (bitB w 1)) (kn.1.cpy (iD w % 16) (bitB w 2)) i (bitsOf w 4 4 + 1) (kn.1.rd t (iB w)) n
      (if kind = 2 then 8 else 1) (kind == 1) (bitB w 0)) kn

def State.accReduce (s : State) (e slot kind : Nat) (w : BitVec 56) : State :=
  let w := word56 (0xD5 + kind) w
  let td := iD w % 16
  let ta := iA w % 16
  s.issueTile e slot (reduceIns kind w) (fun k _ => basFault k (max td ta) 1) (fun k _ => [k.cpy ta (bitB w 1)])
    (fun k _ => [k.cpy td (bitB w 2)]) fun kn t => Block.reduceTile kn kind w t

def execAccMax (e : Fin 16) (slot : Fin 128) (w : BitVec 56) (s : State) : Host.Outcome State Fault Refusal := .next (s.accReduce e slot 0 w)
def execAccMin (e : Fin 16) (slot : Fin 128) (w : BitVec 56) (s : State) : Host.Outcome State Fault Refusal := .next (s.accReduce e slot 1 w)
def execAccTopk (e : Fin 16) (slot : Fin 128) (w : BitVec 56) (s : State) : Host.Outcome State Fault Refusal := .next (s.accReduce e slot 2 w)

/-! ## tma.wait (R143) -/

def execTmaWait (e : Fin 16) (slot : Fin 128) (w : BitVec 56) (s : State) : Host.Outcome State Fault Refusal :=
  let w := word56 0xD9 w
  .next (s.issue e slot { w, bad := badIf (!iF w) 1 ++ badIf (iD w ≠ 0 || iA w ≠ 0 || bitsOf w 8 24 ≠ 0) 2 } noFault fun s b _ act pc =>
    let coh := act.map (·.1)
    if ((s.em e).ops b).any fun o => coh.contains o.coh && bitB w o.grp then none
    else some (s.nextPc e slot pc 1))

end Sys2Proof.Machine
end

