-- ==== Sys2Proof/Machine/Coll.lean ====
section
/-!
DEFINITION. Collectives of the founding cohort (R48 to R50, R94 to R98) and the cooperative fragment mode (R126 to R129,
R137): arrival at the founding barrier, and the one execution when every participant waits.
-/

namespace Sys2Proof.Machine

/-! ## Fields of the COL format (R75, R94) -/

/-- Member mask of a thread: a u register, all lanes, or the thread's sr_pathmask. -/
def collMask (w : Nat) (k : Block) (t : Thr) : Nat :=
  match bitsOf w 14 9 with
  | 0x1FF => 2 ^ 32 - 1
  | 0x1FE => (k.coh t.1).pathmask t.2
  | m => k.rd t m

def colBad (w : Nat) : List Nat :=
  let m := bitsOf w 14 9
  badIf (bitB w 50) 2 ++ badIf (!(selIsU m || m = 0x1FF || m = 0x1FE)) 3

/-! ## Values of class 0x8 (R96 to R98) -/

/-- Source lane of shfl; none: the thread's own operand. -/
def shflSrc (w l b : Nat) : Option Nat :=
  let seg := bitsOf w 9 3
  let width := if seg = 0 then 32 else 2 ^ seg
  let base := l - l % width
  let src : Int := match bitsOf w 12 2 with
    | 0 => ((base + b % width : Nat) : Int)
    | 1 => (l : Int) - b
    | 2 => ((l + b : Nat) : Int)
    | _ => ((l ^^^ b : Nat) : Int)
  if (base : Int) ≤ src && src < ((base + width : Nat) : Int) then some src.toNat else none

/-- OP and TYPE of red and scan. -/
def redOp (w : Nat) : Nat := bitsOf w 11 3
def redType (w : Nat) : Nat := bitsOf w 9 2

/-- One step of a reduction. -/
def redStep (op ty a b : Nat) : Nat :=
  if ty = 2 then (match op with
    | 0 => fAdd a b
    | _ => toF ((fromF a).minMax (op == 2) (fromF b)))
  else match op with
    | 0 => (a + b) % 2 ^ 32
    | 1 => if ival (ty == 1) a ≤ ival (ty == 1) b then a else b
    | 2 => if ival (ty == 1) b ≤ ival (ty == 1) a then a else b
    | 3 => a &&& b
    | 4 => a ||| b
    | _ => a ^^^ b

/-- The operation's identity: what a non-participant contributes. -/
def redIdent (op ty : Nat) : Nat :=
  if ty = 2 then (match op with | 0 => 0x80000000 | 1 => 0x7F800000 | _ => 0xFF800000)
  else match op with
    | 1 => if ty = 1 then 0x7FFFFFFF else 0xFFFFFFFF
    | 2 => if ty = 1 then 0x80000000 else 0
    | 3 => 0xFFFFFFFF
    | _ => 0

/-- One level of the reduction tree: pairs of neighbours. -/
def redLevel (op ty : Nat) : List Nat → List Nat
  | a :: b :: l => redStep op ty a b :: redLevel op ty l
  | l => l

/-- red: the fixed tree over 32 lanes. -/
def redTree (op ty : Nat) (l : List Nat) : Nat :=
  ((List.range 5).foldl (fun l _ => redLevel op ty l) l).getD 0 0

/-- scan over the participants in ascending order: what each receives. -/
def scanList (op ty : Nat) (excl : Bool) : Option Nat → List (Nat × Nat) → List (Nat × Nat)
  | _, [] => []
  | acc, (l, a) :: r =>
    let x := match acc with | none => a | some y => redStep op ty y a
    (l, if excl then acc.getD (redIdent op ty) else x) :: scanList op ty excl (some x) r

/-- Predicate operand of vote and ballot. -/
def votePred (w : Nat) (c : Cohort) (l : Nat) : Bool := c.pred l (iA w % 8) != bitB w 35

/-- Register results of a class 0x8 collective: (lane, value) for each participant. -/
def collVals (w : Nat) (c : Cohort) (parts : List Nat) : List (Nat × Nat) :=
  let a := fun l => c.rd l (iA w)
  match iOp w with
  | 0x80 => parts.map fun l => (l, match shflSrc w l (c.rd l (iB w)) with
    | some q => if parts.contains q then a q else a l
    | none => a l)
  | 0x82 => let m := maskOf (parts.filter (votePred w c)); parts.map fun l => (l, m)
  | 0x83 =>
    let v := redTree (redOp w) (redType w) ((List.range 32).map fun l =>
      if parts.contains l then a l else redIdent (redOp w) (redType w))
    parts.map fun l => (l, v)
  | 0x84 => scanList (redOp w) (redType w) (bitB w 8) none (parts.map fun l => (l, a l))
  | _ => parts.map fun l => (l, maskOf (parts.filter fun q => a q == a l))

/-- vote's result. -/
def voteVal (w : Nat) (c : Cohort) (parts : List Nat) : Bool :=
  match bitsOf w 12 2 with
  | 0 => parts.all (votePred w c)
  | 1 => parts.any (votePred w c)
  | _ => parts.all (votePred w c) || parts.all fun l => !votePred w c l

/-! ## Fragments (R126, R127) -/

/-- Depth of a fragment. -/
def fragDepth (f : Nat) : Nat := match tphClass f with | 0 => 64 | 1 => 32 | 2 => 16 | _ => if f = 10 then 16 else 8

/-- Element k of row (or column) r held in a group of four registers by the lanes of a cohort. -/
def Cohort.fragElem (c : Cohort) (parts : List Nat) (sel f r k : Nat) : Nat :=
  let h := fragDepth f / 2
  let l := 2 * r + k / h
  if parts.contains l then bitsOf (c.rdGroup l sel 4) (k % h * tphBits f) (tphBits f) else 0

/-- A group of registers of a lane's half fragment, read from Caldera. -/
def Block.fragGroup (k : Block) (a pitch f l : Nat) (byRow : Bool) : Nat :=
  let h := fragDepth f / 2
  ((List.range h).map fun i =>
    let d := l % 2 * h + i
    if byRow then k.calElem a pitch (tphBits f) (l / 2) d else k.calElem a pitch (tphBits f) d (l / 2)).foldr
    (fun x m => x + 2 ^ tphBits f * m) 0

/-- Operands of frag.ld are stored by row: 16 rows of the fragment's depth. -/
def fragByRow (w : Nat) : Bool := bitB w 9 == bitB w 8

/-- Registers of a frag.st result. -/
def fragStRegs (o : Nat) : Nat := outBits o / 4

/-- Execution-time fault of a fragment collective, from the registers of its lowest participant. -/
def fragFault (w : Nat) (k : Block) (t : Thr) : Option XFault :=
  match iOp w with
  | 0xDA =>
    let f := bitsOf w 10 4
    let n := fragDepth f
    let a := k.rd t (iA w)
    let p := k.rd t (iB w)
    if fragByRow w then calFault k.calSize a p 16 (n * tphBits f / 8) else calFault k.calSize a p n (2 * tphBits f)
  | 0xD0 => basFault k (iD w % 16) (if tphClass (bitsOf w 10 4) = 3 then 5 else 1)
  | 0xDB => basFault k (iA w % 16) 1
  | _ => none

/-- Cost of tma.mmf (R129). -/
def mmfCost (f : Nat) : Nat := match tphClass f with | 0 | 1 => 8 | 2 => 16 | _ => if f = 10 then 64 else 32

/-! ## Execution of an instance (R49, R95) -/

/-- The effect of a collective of cohort c once its participants wait; `on` are the participants whose guard held. None: the
Ember cannot take it yet (R120, R141). -/
def State.collEffect (s : State) (e b c w : Nat) (parts on : List Nat) : Option State :=
  match s.blk? e b with
  | none => none
  | some k =>
    let q := k.coh c
    let wr := fun (s : State) (l : List (Nat × Nat)) (sel n : Nat) => s.blkMod e b fun k =>
      (l.filter fun p => on.contains p.1).foldl (fun (k : Block) p => k.wrGroup (c, p.1) sel p.2 n) k
    if on.isEmpty then some s
    else match iOp w with
      | 0x81 =>
        let v := voteVal w q parts
        some (s.blkMod e b fun k => on.foldl (fun (k : Block) l => k.setPred (c, l) (iD w % 8) v) k)
      | 0xD0 =>
        let af := bitsOf w 10 4
        let bf := bitsOf w 6 4
        let rows := fun (sel f : Nat) => (List.range 16).map fun r => (List.range (fragDepth f)).map fun i =>
          q.fragElem parts sel f r i
        let op : TOp := {
          id := 0, blk := b, coh := c, lane := parts.headD 0, grp := 0, charge := mmfCost af + 24,
          k := .mmf (k.dstTiles (iD w % 16) (tphClass af = 3)) (bitB w 5) af bf (rows (iA w) af) (rows (iB w) bf) }
        ((s.em e).accept false op).map fun x => s.emPut e x
      | 0xDA =>
        let f := bitsOf w 10 4
        let t : Thr := (c, parts.headD 0)
        some (wr s (parts.map fun l => (l, k.fragGroup (k.rd t (iA w)) (k.rd t (iB w)) f l (fragByRow w))) (iD w) 4)
      | 0xDB =>
        let o := bitsOf w 10 4
        let tile := k.cpy (iA w % 16) (bitB w 7)
        if (s.em e).basWait b [tile] [] then none
        else
          let words := fun (l : Nat) => (List.range 8).map fun j => 16 * (l / 2) + 8 * (l % 2) + j
          let r := parts.foldl (fun (r : State × List (Nat × Nat)) l =>
            let vs := (words l).map fun x => geyserVal ((k.accGet [tile] x).val (accUnit false)) 0 (.fin false 1 0) (bitB w 6)
            let (s, es) := r.1.geyserElems e o (bitsOf w 8 2) vs
            (s, r.2 ++ [(l, ofBytes (packElems (outBits o) es))])) (s, [])
          some (wr r.1 r.2 (iD w) (fragStRegs o))
      | _ => some (wr s (collVals w q parts) (iD w) 1)

/-- Execute the instance of lanes waiting at an address with a mask, if every participant waits there (R49). -/
def State.collTry (s : State) (e b c pc mask : Nat) : State :=
  match s.blk? e b with
  | none => s
  | some k =>
    let q := k.coh c
    let here := fun (l : Nat) => q.pc l == pc && (match q.lane l with | .coll _ m _ => m == mask | _ => false)
    let wait := (List.range 32).filter here
    let parts := lanesOf (mask &&& q.live)
    match wait with
    | [] => s
    | l0 :: _ =>
      if k.term.isSome || k.stopped.contains c || !parts.all here then s
      else match q.lane l0 with
        | .coll w _ _ =>
          let on := parts.filter fun l => match q.lane l with | .coll _ _ o => o | _ => false
          match (if on.isEmpty then none else fragFault w k (c, on.headD 0)) with
          | some f => s.terminate e b { cause := f.cause, sub := f.sub, aux := f.aux, pc, coh := c, lane := on.headD 0 }
          | none => match s.collEffect e b c w parts on with
            | none => s
            | some s => s.emPut e ((s.em e).start b c (maskOf wait) ((pc + 8) % 2 ^ 64))
        | _ => s

/-- Execute every instance of a cohort that is complete. -/
def State.collScan (s : State) (e b c : Nat) : State :=
  match s.blk? e b with
  | none => s
  | some k =>
    let q := k.coh c
    let inst := ((List.range 32).filterMap fun l => match q.lane l with
      | .coll _ m _ => some (q.pc l, m)
      | _ => none).eraseDups
    inst.foldl (fun (s : State) p => s.collTry e b c p.1 p.2) s

/-- Every cohort of an Ember tries again: an operation completed. -/
def State.collRetry (s : State) (e : Nat) : State :=
  ((s.em e).blocks.flatMap fun p => p.2.cohorts.map fun q => (p.1, q.1)).foldl
    (fun (s : State) (p : Nat × Nat) => s.collScan e p.1 p.2) s

/-- Issue a collective: every thread of the entry waits at the founding barrier of its cohort (R47, R49). -/
def State.collIssue (s : State) (e slot : Nat) (i : Ins) : State :=
  s.issue e slot i noFault fun s b en act pc =>
    match s.blk? e b with
    | none => none
    | some k =>
      let st := fun (k' : Block) (t : Thr) => k'.cohMod t.1 fun q =>
        (q.setLane t.2 (.coll i.w (collMask i.w k t) (act.contains t))).setPc t.2 pc
      let k' := en.threads.foldl st k
      let x := en.parts.foldl (fun (x : Ember) p => x.leave slot p.1 p.2) ((s.em e).blkPut b k')
      let s := (s.emPut e x).embEvt e 7 en.threads.length
      some (en.parts.foldl (fun (s : State) p => s.collScan e b p.1) s)

/-! ## The collectives -/

/-- Findings of shfl. -/
def shflIns (w : Nat) : Ins :=
  let ops : List Opnd := [{ sel := iD w }, { sel := iA w }, { sel := iB w }]
  {
    w, ops, bad := colBad w ++ badIf (bitsOf w 0 9 ≠ 0) 2 ++ badIf (bitsOf w 9 3 > 5) 8 ++ badIf (selIsU (iD w)) 5 ++ ops.flatMap Opnd.bad }

def execShfl (e : Fin 16) (slot : Fin 128) (w : BitVec 56) (s : State) : Host.Outcome State Fault Refusal :=
  .next (s.collIssue e slot (shflIns (word56 0x80 w)))

/-- Findings of vote. -/
def voteIns (w : Nat) : Ins :=
  {
    w, bad := colBad w ++ badIf (iD w ≥ 8 || iA w ≥ 16 || iB w ≠ 0 || bitsOf w 0 12 ≠ 0) 2 ++ badIf (bitsOf w 12 2 = 3) 8 }

def execVote (e : Fin 16) (slot : Fin 128) (w : BitVec 56) (s : State) : Host.Outcome State Fault Refusal :=
  .next (s.collIssue e slot (voteIns (word56 0x81 w)))

/-- Findings of ballot. -/
def ballotIns (w : Nat) : Ins :=
  let ops : List Opnd := [{ sel := iD w }]
  {
    w, ops, bad := colBad w ++ badIf (iA w ≥ 16 || iB w ≠ 0 || iMod w ≠ 0) 2 ++ badIf (selIsU (iD w)) 5 ++ ops.flatMap Opnd.bad }

def execBallot (e : Fin 16) (slot : Fin 128) (w : BitVec 56) (s : State) : Host.Outcome State Fault Refusal :=
  .next (s.collIssue e slot (ballotIns (word56 0x82 w)))

/-- Findings of red and scan. -/
def redIns (w : Nat) : Ins :=
  let ops : List Opnd := [{ sel := iD w }, { sel := iA w }]
  {
    w, ops
    bad := colBad w ++ badIf (iB w ≠ 0 || bitsOf w 0 8 ≠ 0 || (iOp w = 0x83 && bitB w 8)) 2 ++
      badIf (redOp w > 5 || redType w = 3 || (redType w = 2 && redOp w ≥ 3)) 8 ++ badIf (selIsU (iD w)) 5 ++ ops.flatMap Opnd.bad }

def execRed (e : Fin 16) (slot : Fin 128) (w : BitVec 56) (s : State) : Host.Outcome State Fault Refusal :=
  .next (s.collIssue e slot (redIns (word56 0x83 w)))

def execScan (e : Fin 16) (slot : Fin 128) (w : BitVec 56) (s : State) : Host.Outcome State Fault Refusal :=
  .next (s.collIssue e slot (redIns (word56 0x84 w)))

/-- Findings of match. -/
def matchIns (w : Nat) : Ins :=
  let ops : List Opnd := [{ sel := iD w }, { sel := iA w }]
  {
    w, ops, bad := colBad w ++ badIf (iB w ≠ 0 || iMod w ≠ 0) 2 ++ badIf (selIsU (iD w)) 5 ++ ops.flatMap Opnd.bad }

def execMatch (e : Fin 16) (slot : Fin 128) (w : BitVec 56) (s : State) : Host.Outcome State Fault Refusal :=
  .next (s.collIssue e slot (matchIns (word56 0x85 w)))

/-- Findings of tma.mmf. -/
def mmfIns (s : State) (w : Nat) : Ins :=
  let af := bitsOf w 10 4
  let bf := bitsOf w 6 4
  let ops : List Opnd := [{ sel := iA w, n := 4 }, { sel := iB w, n := 4 }]
  {
    w, ops
    bad := colBad w ++ tileField (iD w) ++ badIf (bitsOf w 0 5 ≠ 0) 2 ++ badIf (!selIsV (iA w) || !selIsV (iB w)) 3 ++
      s.fmtBad af bf ++ badIf (tphClass af ≥ 2 && af ≠ bf) 8 ++ ops.flatMap Opnd.bad }

def execTmaMmf (e : Fin 16) (slot : Fin 128) (w : BitVec 56) (s : State) : Host.Outcome State Fault Refusal :=
  .next (s.collIssue e slot (mmfIns s (word56 0xD0 w)))

/-- Findings of frag.ld. -/
def fragLdIns (s : State) (w : Nat) : Ins :=
  let ops : List Opnd := [{ sel := iD w, n := 4 }]
  {
    w, ops, mem := true
    bad := colBad w ++ badIf (bitsOf w 0 8 ≠ 0) 2 ++ badIf (!selIsV (iD w) || !selIsU (iA w) || !selIsU (iB w)) 3 ++
      s.fmtBad (bitsOf w 10 4) (bitsOf w 10 4) ++ ops.flatMap Opnd.bad }

def execFragLd (e : Fin 16) (slot : Fin 128) (w : BitVec 56) (s : State) : Host.Outcome State Fault Refusal :=
  .next (s.collIssue e slot (fragLdIns s (word56 0xDA w)))

/-- Findings of frag.st. -/
def fragStIns (w : Nat) : Ins :=
  let n := fragStRegs (bitsOf w 10 4)
  let ops : List Opnd := [{ sel := iD w, n }]
  {
    w, ops
    bad := colBad w ++ tileField (iA w) ++ badIf (iB w ≠ 0 || bitsOf w 0 6 ≠ 0) 2 ++
      badIf (bitsOf w 10 4 > 12 || bitsOf w 8 2 = 3) 8 ++ badIf (!selIsV (iD w)) 3 ++ badIf (iD w % 4 ≠ 0) 4 }

def execFragSt (e : Fin 16) (slot : Fin 128) (w : BitVec 56) (s : State) : Host.Outcome State Fault Refusal :=
  .next (s.collIssue e slot (fragStIns (word56 0xDB w)))

/-! ## Completion of queued operations (R141, R142) -/

/-- The head of a queue completes, once started: its charge is released and what waited may go on. -/
def execTephraOpComplete (e : Fin 16) (s : State) : Host.Outcome State Fault Refusal :=
  let x := s.em e
  .next (match x.tq with
    | o :: l => if o.started && s.embOn e then (s.emPut e { x with tq := l }).collRetry e else s
    | [] => s)

def execGeyserOpComplete (e : Fin 16) (s : State) : Host.Outcome State Fault Refusal :=
  let x := s.em e
  .next (match x.gq with
    | o :: l => if o.started && s.embOn e then (s.emPut e { x with gq := l }).collRetry e else s
    | [] => s)

/-- A write of TPH_SEED by a master (R148). -/
def execTphSeedWrite (m : Master) (e : Fin 16) (v : DWord) (s : State) : Host.Outcome State Fault Refusal :=
  .next (s.ownerWrite m (0x100010C + 0x10000 * e) v.toNat true fun s => s.tphSeed e v.toNat)

end Sys2Proof.Machine
end

