-- ==== Sys2Proof/Machine/EmbCtl.lean ====
section
/-!
DEFINITION. Control flow of an Ember (R38, R40 to R47, R51, R53, R91 to R93): branches, exits, barriers, traps, and what the
Ember's schedulers do by themselves.
-/

namespace Sys2Proof.Machine

/-- Signed field of w bits, in words of 8 bytes. -/
def wordOff (w v : Nat) : Int := 8 * sgn w v

/-- An address moved by a signed offset. -/
def addrPlus (a : Nat) (o : Int) : Nat := unsgn 64 ((a : Int) + o)

/-- Send the threads of an entry to their targets: one side goes on, several split (R40, R91, R92). -/
def State.branch (s : State) (e slot : Nat) (sides : List (Nat × List Thr)) (rc : Option Nat) : State :=
  match sides.filter fun q => !q.2.isEmpty with
  | [] => s
  | [q] => s.emPut e ((s.em e).goto slot q.1)
  | qs => (s.emPut e ((s.em e).split slot qs rc)).embEvt e 4 1

/-- Reconvergence address of an offset in words; 0 records no level (R91). -/
def reconv (pc : Nat) (off : Int) : Option Nat := if off = 0 then none else some (addrPlus (pc + 8) off)

/-! ## bra, brx, call, ret (R91, R92) -/

def execBra (e : Fin 16) (slot : Fin 128) (w : BitVec 56) (s : State) : Host.Outcome State Fault Refusal :=
  let w := word56 0x70 w
  let tgt := bitsOf w 27 23 + 2 ^ 23 * bitsOf w 50 1
  .next (s.issue e slot { w, bad := badIf (bitsOf w 0 3 ≠ 0) 2 } noFault fun s _ en act pc =>
    let rest := en.threads.filter fun t => !act.contains t
    some (s.branch e slot [(addrPlus (pc + 8) (wordOff 24 tgt), act), ((pc + 8) % 2 ^ 64, rest)]
      (reconv pc (wordOff 24 (bitsOf w 3 24)))))

/-- Sides of an indirect branch, one for each distinct target, in ascending order. -/
def brxSides (k : Block) (w pc : Nat) (en : Entry) (act : List Thr) : List (Nat × List Thr) :=
  let tgt := fun (t : Thr) => if act.contains t then k.rdGroup t (iA w) 2 else (pc + 8) % 2 ^ 64
  let ts := sortBy (· ≤ ·) (en.threads.map tgt).eraseDups
  ts.map fun a => (a, en.threads.filter fun t => tgt t == a)

/-- brx and ret. -/
def State.indirect (s : State) (e slot op : Nat) (w : BitVec 56) : State :=
  let w := word56 op w
  let ops : List Opnd := [{ sel := iA w, n := 2 }]
  s.issue e slot { w, ops, bad := badIf (!iF w) 1 ++ badIf (iD w ≠ 0) 2 ++ ops.flatMap Opnd.bad }
    (fun k t => if k.rdGroup t (iA w) 2 % 8 ≠ 0 then some (xIll 0xC) else none)
    fun s b en act pc => match s.blk? e b with
      | none => none
      | some k => some (s.branch e slot (brxSides k w pc en act) (reconv pc (wordOff 32 (iImm w))))

def execBrx (e : Fin 16) (slot : Fin 128) (w : BitVec 56) (s : State) : Host.Outcome State Fault Refusal := .next (s.indirect e slot 0x71 w)
def execRet (e : Fin 16) (slot : Fin 128) (w : BitVec 56) (s : State) : Host.Outcome State Fault Refusal := .next (s.indirect e slot 0x73 w)

def execCall (e : Fin 16) (slot : Fin 128) (w : BitVec 56) (s : State) : Host.Outcome State Fault Refusal :=
  let w := word56 0x72 w
  let ops : List Opnd := [{ sel := iD w, n := 2 }]
  .next (s.issue e slot
    { w, ops, bad := badIf (!iF w) 1 ++ badIf (iA w ≠ 0) 2 ++ badIf (selIsU (iD w)) 5 ++ ops.flatMap Opnd.bad } noFault
    fun s b en act pc =>
      let s := s.blkMod e b fun k => act.foldl (fun (k : Block) t => k.wrGroup t (iD w) ((pc + 8) % 2 ^ 64) 2) k
      let rest := en.threads.filter fun t => !act.contains t
      some (s.branch e slot [(addrPlus (pc + 8) (wordOff 32 (iImm w)), act), ((pc + 8) % 2 ^ 64, rest)] none))

/-! ## Barriers (R53) -/

/-- Threads that have arrived at a barrier of a block. -/
def Block.arrived (k : Block) (n : Nat) : List (Nat × Nat) := (k.bars.filter fun g => g.1 == n).map (·.2)

/-- A barrier is complete: every live thread of the block waits at it. -/
def Block.barDone (k : Block) (n : Nat) : Bool :=
  k.cohorts.all fun c => (lanesOf c.2.live).all fun l => c.2.lane l == .bar n

/-- Complete a barrier of a block that every live thread has reached; the groups go on as they arrived. -/
def State.barScan (s : State) (e b : Nat) : State :=
  match s.blk? e b with
  | none => s
  | some k => match k.bars with
    | [] => s
    | (n, _, _) :: _ =>
      if k.term.isSome || !k.stopped.isEmpty || !k.barDone n then s
      else
        let gs := k.arrived n
        let s := s.blkPut e b { k with bars := k.bars.filter fun g => g.1 != n }
        s.emPut e (gs.foldl (fun (x : Ember) (g : Nat × Nat) =>
          x.start b g.1 g.2 (((x.blocks.lookup b).map fun k => (k.coh g.1).pc ((lanesOf g.2).headD 0)).getD 0)) (s.em e))

/-- bar.block: the threads leave their entry and wait; as a release it follows the thread's earlier accesses (R53, R161). -/
def execBarBlock (e : Fin 16) (slot : Fin 128) (w : BitVec 56) (s : State) : Host.Outcome State Fault Refusal :=
  let w := word56 0x75 w
  let n := bitsOf w 0 4
  .next (s.issue e slot { w, bad := badIf (!iF w) 1 ++ badIf (iD w ≠ 0 || iA w ≠ 0 || bitsOf w 4 28 ≠ 0) 2 } noFault
    fun s b en act pc => match s.blk? e b with
      | none => none
      | some k =>
        if act.any fun t => k.pend.any fun p => p.coh == t.1 && p.lane == t.2 then none
        else
          let parts := (en.parts.map fun p => (p.1, maskOf ((act.filter fun t => t.1 == p.1).map (·.2)))).filter fun p => p.2 != 0
          let k := parts.foldl (fun (k : Block) p => k.cohMod p.1 fun q => (q.setLanes p.2 (.bar n)).setPcs p.2 ((pc + 8) % 2 ^ 64))
            { k with bars := k.bars ++ parts.map fun p => (n, p.1, p.2) }
          let x := parts.foldl (fun (x : Ember) p => x.leave slot p.1 p.2) ((s.em e).blkPut b k)
          -- threads whose guard is false go on
          let x := if act.length = en.threads.length then x else x.goto slot ((pc + 8) % 2 ^ 64)
          some ((s.emPut e x).barScan e b))

/-! ## exit and trap (R93, R106) -/

/-- The depth and stencil a fragment thread writes at its end (R339). -/
def Block.lateWrite (k : Block) (t : Thr) : Block :=
  match (k.coh t.1).frag with
  | some f => match f.quads[t.2 / 4]? with
    | some q => (q.late.getD (t.2 % 4) []).foldl (fun (k : Block) w => k.calPut w.1 [w.2]) k
    | none => k
  | none => k

/-- Threads of an entry end: held sides start, and what waited for them only goes on (R41, R49, R53). -/
def State.exitThreads (s : State) (e b slot : Nat) (en : Entry) (act : List Thr) (pc : Nat) : State :=
  match s.blk? e b with
  | none => s
  | some k =>
    let parts := (en.parts.map fun p => (p.1, maskOf ((act.filter fun t => t.1 == p.1).map (·.2)))).filter fun p => p.2 != 0
    let k := act.foldl Block.lateWrite k
    let k := parts.foldl (fun (k : Block) p => k.cohMod p.1 fun q => q.setLanes p.2 .dead) k
    -- arrivals of dead threads do not exist; those waiting at a barrier are live
    let x := parts.foldl (fun (x : Ember) p => x.leave slot p.1 p.2) ((s.em e).blkPut b k)
    let x := if act.length = en.threads.length then x else x.goto slot ((pc + 8) % 2 ^ 64)
    let x := parts.foldl (fun (x : Ember) p => x.resolve b p.1 true) x
    let s := parts.foldl (fun (s : State) p => s.collScan e b p.1) (s.emPut e x)
    s.barScan e b

def execExit (e : Fin 16) (slot : Fin 128) (w : BitVec 56) (s : State) : Host.Outcome State Fault Refusal :=
  let w := word56 0x74 w
  .next (s.issue e slot { w, bad := badIf (iF w) 1 ++ badIf (bitsOf w 0 50 ≠ 0) 2 } noFault fun s b en act pc =>
    some (s.exitThreads e b slot en act pc))

def execTrap (e : Fin 16) (slot : Fin 128) (w : BitVec 56) (s : State) : Host.Outcome State Fault Refusal :=
  let w := word56 0x77 w
  .next (s.issuePlain e slot { w, bad := badIf (!iF w) 1 ++ badIf (iD w ≠ 0 || iA w ≠ 0 || bitsOf w 16 16 ≠ 0) 2 }
    (fun _ _ => some { cause := 5, sub := 0xD, aux := bitsOf w 0 16 }) fun k _ _ => k)

/-! ## What the schedulers do (R38, R40, R41, R45, R51) -/

/-- The waiting threads of a founding cohort's innermost level continue as one entry, or a held side starts. -/
def execReconvergence (e : Fin 16) (b : Fin 32) (c : Fin 32) (s : State) : Host.Outcome State Fault Refusal :=
  .next (match s.blk? e b with
    | none => s
    | some k => if k.term.isSome || k.stopped.contains c.val || !s.embOn e then s
      else s.emPut e ((s.em e).resolve b c false))

/-- Eligible issue entries of a scheduler, oldest first (R44). -/
def Ember.repackable (x : Ember) (sched : Nat) : List (Nat × Entry × Nat) :=
  sortBy (fun a b => a.2.1.stamp ≤ b.2.1.stamp) (x.entries.filterMap fun (i, en) =>
    if i / 32 ≠ sched || !en.done.isEmpty then none
    else match x.blocks.lookup en.blk, en.threads with
      | some k, t :: _ => if k.info.norepack || k.term.isSome || en.parts.any (fun p => k.stopped.contains p.1) then none
        else some (i, en, k.pcOf t)
      | _, _ => none)

/-- Threads of an entry. -/
def Entry.count (en : Entry) : Nat := en.parts.foldl (fun n p => n + popc 32 p.2) 0

/-- Sources of a pack from candidates of one block and address: at most 4 sources and 32 threads, of different founding
cohorts (R45). -/
def packOf (l : List (Nat × Entry × Nat)) : List (Nat × Entry) :=
  let apart := fun (p : List (Nat × Entry)) (en : Entry) => p.all fun q => q.2.parts.all fun a => en.parts.all fun b => a.1 != b.1
  l.foldl (fun p s => if p.length < 4 && apart p s.2.1 && (p.foldl (fun n q => n + q.2.count) 0) + s.2.1.count ≤ 32 then p ++ [(s.1, s.2.1)] else p) []

/-- Parts of an entry merged by founding cohort, in ascending order. -/
def mergeParts (l : List (Nat × Nat)) : List (Nat × Nat) :=
  let cs := sortBy (· ≤ ·) (l.map (·.1)).eraseDups
  cs.map fun c => (c, (l.filter fun p => p.1 == c).foldl (fun m p => m ||| p.2) 0)

/-- The re-packer of a scheduler forms one packed cohort (R45). -/
def execRepack (e : Fin 16) (sched : Fin 4) (s : State) : Host.Outcome State Fault Refusal :=
  let x := s.em e
  let cands := x.repackable sched
  -- sub-cohorts of different founding cohorts at the address whose oldest eligible one is oldest
  let group := fun (c : Nat × Entry × Nat) => cands.filter fun d => d.2.2 == c.2.2 && d.2.1.blk == c.2.1.blk
  let min := max 2 (min 32 (s.get R.EMB_CTL_REPACK_MIN e))
  .next (
    if !s.embOn e || !s.flag R.EMB_CTL_REPACK_EN e then s
    else match cands with
      | [] => s
      | c :: _ =>
        let pack := packOf (group c)
        match pack with
        | (i, en) :: rest =>
          let parts := mergeParts (pack.flatMap fun p => p.2.parts)
          if rest.isEmpty || parts.foldl (fun n p => n + popc 32 p.2) 0 < min then s
          else
            let x := { x with entries := Cells.put x.entries i { en with parts } }
            (s.emPut e (rest.foldl (fun (x : Ember) p => x.freeEntry p.1) x)).embEvt e 5 1
        | [] => s)

/-- An entry that has waited ready for EMB_CTL.AGE_LIM clocks is issued next by its scheduler (R38). -/
def execIssueAgeLimit (e : Fin 16) (slot : Fin 128) (s : State) : Host.Outcome State Fault Refusal :=
  let x := s.em e
  .next (if s.embOn e && (x.entries.lookup slot.val).isSome then
    s.emPut e { x with first := Cells.put x.first (slot.val / 32) slot.val } else s)

/-- A founding cohort is deadlocked: the lane that waits at a founding barrier of such an instance (R51). -/
def Cohort.deadlock (c : Cohort) : Option Nat :=
  (List.range 32).find? fun l => match c.lane l with
    | .coll _ m _ =>
      let parts := lanesOf (m &&& c.live)
      let blocked := fun (q : Nat) => match c.lane q with | .coll .. => true | .recon => true | .bar _ => true | _ => false
      let here := fun (q : Nat) => match c.lane q with | .coll .. => c.pc q == c.pc l | _ => false
      parts.all blocked && !parts.all here
    | _ => false

/-- The Ember finds a deadlocked founding cohort and terminates its block. -/
def execCohortDeadlock (e : Fin 16) (b : Fin 32) (c : Fin 32) (s : State) : Host.Outcome State Fault Refusal :=
  .next (match s.blk? e b with
    | none => s
    | some k => if k.term.isSome || k.stopped.contains c.val then s
      else match (k.coh c).deadlock with
        | none => s
        | some l => s.terminate e b { cause := 2, pc := (k.coh c).pc l, coh := c, lane := l })

end Sys2Proof.Machine
end

