-- ==== Sys2Proof/Machine/Launch.lean ====
section
/-!
DEFINITION. Blocks on Embers: placement, retirement, termination, preemption, save and restore (R30 to R36, R54 to R60,
R303 to R307, R315 to R320).
-/

namespace Sys2Proof.Machine

/-! ## Resources of an Ember (R29, R32, R35, R337) -/

/-- Resident founding cohorts of an Ember: scheduler and vector registers per thread. -/
def Ember.residents (x : Ember) : List (Nat × Nat) :=
  x.blocks.flatMap fun b => (b.2.cohorts.filter fun c => c.2.live != 0).map fun c => (c.2.sched, (b.2.infoOf c.1).n)

def Ember.schedCount (x : Ember) (s : Nat) : Nat := (x.residents.filter fun r => r.1 == s).length
def Ember.schedRegs (x : Ember) (s : Nat) : Nat := (x.residents.filter fun r => r.1 == s).foldl (fun n r => n + 32 * r.2) 0

/-- The scheduler with the fewest resident founding cohorts, the lower winning a tie (R33). -/
def Ember.firstSched (x : Ember) : Nat :=
  (List.range 4).foldl (fun b s => if x.schedCount s < x.schedCount b then s else b) 0

/-- Caldera reserved for tile work on every Ember (R337, R354). -/
def State.calRes (s : State) : Nat := 16384 * min 12 (s.get R.GFX_CALRES_RES)

/-- Caldera that an Ember's blocks hold of the compute part, and of the tile part. -/
def Ember.calUsed (x : Ember) : Nat := x.blocks.foldl (fun n b => n + (b.2.info.cal - b.2.info.res)) 0
def Ember.tileUsed (x : Ember) : Nat := x.blocks.foldl (fun n b => n + (if b.2.info.kind == .fragment then b.2.info.res else 0)) 0
def Ember.basinUsed (x : Ember) : Nat := x.blocks.foldl (fun n b => n + b.2.info.tiles) 0

/-- The lowest free resident-block slot. -/
def Ember.freeBlock (x : Ember) : Option Nat := (List.range 32).find? fun i => (x.blocks.lookup i).isNone

/-- Threads and founding cohorts of a block (R31). -/
def LInfo.threads (i : LInfo) : Nat := i.dx * i.dy * i.dz
def LInfo.cohorts (i : LInfo) : Nat := (i.threads + 31) / 32

/-- m more founding cohorts of n registers fit, the first on scheduler s0 (R33, R35). -/
def Ember.cohFit (x : Ember) (s0 m n : Nat) : Bool :=
  (List.range 4).all fun i =>
    let k := (m + 3 - i) / 4
    let s := (s0 + i) % 4
    k = 0 || (x.schedCount s + k ≤ 16 && x.schedRegs s + 32 * n * k ≤ 16384)

/-- The Ember takes work: on, not draining, in placement (R317); none does while T ≥ CRIT (R545). -/
def State.embTakes (s : State) (e : Nat) : Bool :=
  s.embOn e && !s.pwr.crit && !s.pwr.drains.contains (16 + e) && !s.wsp.outOf.contains e && !s.engRuns (16 + e)

/-- A block fits on an Ember (R32). -/
def State.fits (s : State) (e : Nat) (x : Ember) (i : LInfo) : Bool :=
  s.embTakes e && x.freeBlock.isSome && x.cohFit x.firstSched i.cohorts i.n &&
  x.calUsed + (i.cal - i.res) ≤ 262144 - s.calRes && x.basinUsed + i.tiles ≤ 16

/-- The Ember a block goes to (R305): of those with room, the one with the fewest founding cohorts, the lower first. -/
def State.chooseEmb (s : State) (es : List Nat) (i : LInfo) : Option Nat :=
  (es.filter fun e => s.fits e (s.em e) i).foldl (fun b e => match b with
    | none => some e
    | some c => if (s.em e).residents.length < (s.em c).residents.length then some e else some c) none

/-! ## Placement (R32 to R34, R303) -/

/-- A founding cohort at placement: registers and predicates zero but for the uniform words loaded. -/
def freshCohort (sched : Nat) (u : List (Nat × Nat)) : Cohort :=
  u.foldl (fun (c : Cohort) (p : Nat × Nat) => c.uSet p.1 p.2) { sched }

/-- Place a block in a free slot: all its resources at once, its cohorts at the entry address. -/
def State.placeBlock (s : State) (e : Nat) (i : LInfo) (bx by_ bz : Nat) (cal : List (Nat × BitVec 8)) (tile : Option TileSt) :
    State :=
  let x := s.em e
  match x.freeBlock with
  | none => s
  | some b =>
    let m := i.cohorts
    let s0 := x.firstSched
    let k : Block := {
      info := i, bx, by_, bz, cal, tile, placed := x.stamp
      cohorts := (List.range m).map fun c => (c, freshCohort ((s0 + c) % 4) i.udata) }
    let x := { x.blkPut b k with stamp := x.stamp + 1 }
    let x := (List.range m).foldl (fun (x : Ember) c => x.start b c (2 ^ min 32 (i.threads - 32 * c) - 1) i.entry) x
    let s := s.emPut e x
    -- the unit acquires before its work (R172)
    let s := s.embAcquire e 3
    { s with wsp := { s.wsp with idle := s.wsp.idle.filter fun p => p.1 != e } }

/-- A block leaves its Ember; an Ember with none left is idle from now on (R316). -/
def State.dropBlock (s : State) (e b : Nat) : State :=
  let x := s.em e
  let x := { x.clearBlock b with blocks := x.blocks.filter fun p => p.1 != b }
  let s := s.emPut e x
  if x.blocks.isEmpty then { s with wsp := { s.wsp with idle := Cells.put s.wsp.idle e s.tb } } else s

/-! ## Launches (R303, R305, R315 to R317) -/

/-- What a DISPATCH gives each of its blocks. -/
def dispInfo (p : Pkt) (stream prio : Nat) : LInfo :=
  let b := p.bytes
  let w := fieldOf b 0x24 4
  let (dx, dy, dz) := dispDim b
  { kind := .compute, pk := p.id, stream, prio, entry := fieldOf b 0x10 8, cbuf := fieldOf b 0x18 8, csize := fieldOf b 0x20 4,
    n := dispN b, cal := 1024 * bitsOf w 8 9, tiles := bitsOf w 17 5, norepack := bitB w 22, text := fieldOf b 0x28 8,
    samt := fieldOf b 0x30 8, ntex := fieldOf b 0x38 2, nsamp := fieldOf b 0x3A 2, dx, dy, dz,
    gx := fieldOf b 0x54 4, gy := fieldOf b 0x58 2, gz := fieldOf b 0x5A 2,
    udata := (List.range (bitsOf w 24 5)).map fun i => (i, fieldOf b (0x60 + 4 * i) 4) }

/-- Blocks of a DISPATCH. -/
def dispTotal (b : List Nat) : Nat := fieldOf b 0x44 4 * fieldOf b 0x48 2 * fieldOf b 0x4A 2

/-- sr_bid of the i-th block in linear order, x fastest. -/
def dispBid (b : List Nat) (i : Nat) : Nat × Nat × Nat :=
  let cx := fieldOf b 0x44 4
  let cy := fieldOf b 0x48 2
  (fieldOf b 0x4C 4 + i % cx, fieldOf b 0x50 2 + i / cx % cy, fieldOf b 0x52 2 + i / cx / cy)

/-- Embers of a mask that are still in placement (R317). -/
def State.inPlace (s : State) (m : Nat) : List Nat :=
  (s.emask m).filter fun e => !s.locked (16 + e) && !s.wsp.outOf.contains e

/-- A launch, or a pass, fails with NO_EMBER: record, code 10 (R317). -/
def State.noEmber (s : State) (p : Pkt) : State := s.pkRecord p 8

/-- A launch that has nothing more to place or to wait for is done. -/
def State.launchDone (s : State) (id : Nat) : State :=
  match s.pk? id with
  | none => s
  | some p => match p.launch with
    | some l => if p.stage == .running && l.live = 0 && l.saved = 0 && (l.stop || l.next ≥ dispTotal p.bytes)
        then s.pkPut { p with stage := .done } else s
    | none => s

/-- No Ember is left to a launch: no more of its blocks are placed. -/
def State.launchLost (s : State) (p : Pkt) : State :=
  let s := s.noEmber p
  (s.pkPut { p.fail 10 with launch := p.launch.map fun l => { l with stop := true } }).launchDone p.id

/-- DISPATCH runs (R303): its blocks are placed by BLOCK_PLACEMENT. Instruction words are inputs of the model, so ICINV has
nothing to invalidate (log entry 27). -/
def execDispatch (id : BitVec 32) (s : State) : Host.Outcome State Fault Refusal :=
  .next (s.pkRun id.toNat 1 fun s p =>
    let p := { p with stage := .running, launch := some {} }
    if (s.inPlace (fieldOf p.bytes 0x3C 2)).isEmpty then s.launchLost p else s.pkPut p)

/-- Launches that have a block to place, by priority, and within one by rotation after the queue served last (R315). -/
def State.claims (s : State) : List (Pkt × WspQ) :=
  let l := s.wsp.win.filterMap fun p => match p.launch, s.q? p.q with
    | some l, some x => if p.stage == .running && !l.stop && l.next < dispTotal p.bytes && x.slot.isSome && !x.evict
        then some (p, x) else none
    | _, _ => none
  let rot := fun (x : Pkt × WspQ) => match s.wsp.turn.lookup x.2.prio with
    | some q => (x.1.q + 2 ^ 20 - q - 1) % 2 ^ 20
    | none => x.1.q
  sortBy (fun a b => a.2.prio < b.2.prio || (a.2.prio == b.2.prio && rot a ≤ rot b)) l

/-- Request power-on of an Ember (R316, R517): its ramp begins, or follows the drain that runs. -/
def State.embPowerOn (s : State) (e : Nat) : State :=
  let s := if s.wsp.wantOn.contains e then s else { s with wsp := { s.wsp with wantOn := s.wsp.wantOn ++ [e] } }
  if s.domOn (16 + e) || s.pwr.ramps.contains (16 + e) then s
  else { s with pwr := { s.pwr with ramps := s.pwr.ramps ++ [16 + e] } }

/-- Embers of a list that could be powered on. -/
def State.offEmbers (s : State) (es : List Nat) : List Nat :=
  es.filter fun e => !s.domOn (16 + e) || s.pwr.drains.contains (16 + e)

/-- Place the next block of the highest-priority launch that can (R305, R315). One that cannot asks for an Ember's power, or
fails when no Ember is left to it (R316, R317). -/
def State.placeNext (s : State) : List (Pkt × WspQ) → State
  | [] => s
  | (p, x) :: rest =>
    let mask := fieldOf p.bytes 0x3C 2
    let i := dispInfo p (x.slot.getD 0xFF) x.prio
    match s.chooseEmb (s.emask mask) i, p.launch with
    | some e, some l =>
      let (bx, by_, bz) := dispBid p.bytes l.next
      let s := s.placeBlock e i bx by_ bz [] none
      let s := s.pkPut { p with launch := some { l with next := l.next + 1, live := l.live + 1 } }
      { s with wsp := { s.wsp with turn := Cells.put s.wsp.turn x.prio p.q } }
    | _, _ =>
      let es := s.inPlace mask
      let s := if es.isEmpty then s.launchLost p
        else match s.offEmbers es with
          | e :: _ => s.embPowerOn e
          | [] => s
      s.placeNext rest

def execBlockPlacement (s : State) : Host.Outcome State Fault Refusal := .next (s.placeNext s.claims)

/-! ## Retirement and termination (R60, R93) -/

/-! ## Render passes (R326, R336, R338) -/

def State.passPut (s : State) (p : Pass) : State :=
  { s with gfx := { s.gfx with passes := s.gfx.passes.map fun x => if x.id == p.id then p else x } }
def State.pass? (s : State) (id : Nat) : Option Pass := s.gfx.passes.find? fun p => p.id == id

/-- Tiles of a pass over its views. -/
def Pass.total (p : Pass) : Nat := rpTiles p.body * (rpViews p.body).length

/-- A pass is over: its RP_END is done with the code of its first failure. -/
def State.passEnd (s : State) (p : Pass) (r : Nat) : State :=
  let s := match s.pk? r with
    | some k => s.pkPut { (if p.err = 0 then k else k.fail p.err) with stage := .done }
    | none => s
  { s with gfx := { s.gfx with passes := s.gfx.passes.filter fun x => x.id != p.id } }

/-- A block of a pass is resident or saved. -/
def State.passBlocks (s : State) (id : Nat) : Bool :=
  s.emb.any (fun e => e.2.blocks.any fun b => b.2.info.kind != .compute && b.2.info.pk == id) ||
  s.saved.any fun v => v.blk.info.kind != .compute && v.blk.info.pk == id

/-- A spill whose tiles are done goes back to binning with empty buffers; a final tile phase, or an abandoned pass without
blocks, ends the pass (R336). -/
def State.passCheck (s : State) (id : Nat) : State :=
  match s.pass? id with
  | none => s
  | some p =>
    if p.stop then (match p.endPk with | some r => if s.passBlocks id then s else s.passEnd p r | none => s)
    else if p.done < p.total then s
    else match p.phase, p.endPk with
      | .spill, _ => s.passPut { p with phase := .bin, prims := [], offs := [], primEnd := 0, bins := [] }
      | .final, some r => s.passEnd p r
      | _, _ => s

/-- Ember, slot and block of the tile that a kernel block works on. -/
def State.tileOf (s : State) (k : Block) : Option (Nat × Nat × Block) :=
  s.emb.findSome? fun x => (x.2.blocks.find? fun q => q.2.info.kind == .fragment && q.2.info.pk == k.info.pk &&
    q.2.tile.map (·.idx) == k.tile.map (·.idx)).map fun q => (x.1, q.1, q.2)

/-- What a block's end means to its work; `ok`: it retired. A vertex block reports to its batch, a kernel block gives the tile
memory back, a tile that lost a block is not resolved. -/
def State.blockEnd (s : State) (k : Block) (ok : Bool) : State :=
  let pass := fun (f : Pass → Pass) =>
    ({ s with gfx := { s.gfx with passes := s.gfx.passes.map fun (p : Pass) => if p.id == k.info.pk then f p else p } }).passCheck k.info.pk
  match k.info.kind with
  | .compute => match s.pk? k.info.pk with
    | none => s
    | some p => (s.pkPut { p with launch := p.launch.map fun l => { l with live := l.live - 1 } }).launchDone p.id
  | .vertex =>
    pass fun p => { p with batch := p.batch.map fun b => { b with
      live := b.live - 1, failed := b.failed || !ok } }
  | .fragment => pass fun p => { p with done := p.done + 1 }
  | .kernel =>
    match s.tileOf k with
    | none => s
    | some (e, b, t) =>
      if ok then s.blkPut e b { t with cal := k.cal.filter (fun c => c.1 < k.info.res), tile := t.tile.map fun x => { x with kern := 2 } }
      else ((pass fun p => { p with done := p.done + 1 }).dropBlock e b).passCheck k.info.pk

/-- A block retires (R93). -/
def execBlockRetire (e : Fin 16) (b : Fin 32) (s : State) : Host.Outcome State Fault Refusal :=
  .next (match s.blk? e b with
    | none => s
    | some k =>
      let load := fun (a : PendAcc) => match a.k with | .load .. => true | _ => false
      if k.info.kind == .fragment || k.term.isSome || !k.liveThreads.isEmpty || !k.copies.isEmpty || !((s.em e).ops b).isEmpty ||
        !k.pend.all load then s
      else
        let s := s.accCancel e k.pend
        (s.dropBlock e b).blockEnd k true)

/-- Opcodes of the map (R76). -/
def opDefined (op : Nat) : Bool :=
  let f := op % 16
  match op / 16 with
  | 0 => true
  | 1 => f ≤ 6 | 2 => f ≤ 6 | 3 => f = 0 | 4 => f ≤ 7 | 5 => f ≤ 2 | 6 => f ≤ 9 | 7 => f ≤ 7 | 8 => f ≤ 5 | 9 => f ≤ 2
  | 10 => f ≤ 4 | 11 => f ≤ 5 | 12 => f ≤ 2 | 13 => f ≤ 11
  | _ => false

/-- EMB_ERR bit of a cause (R67). -/
def State.embErr (s : State) (e cause : Nat) : State :=
  match cause with
  | 1 => s.set R.EMB_ERR_REG_RANGE 1 e
  | 2 => s.set R.EMB_ERR_COLL_DIVERGED 1 e
  | 3 => s.set R.EMB_ERR_CAL_RANGE 1 e
  | 4 => s.set R.EMB_ERR_BASIN_RANGE 1 e
  | 5 => s.set R.EMB_ERR_ILLEGAL 1 e
  | 6 => s.set R.EMB_ERR_SAVE_ERR 1 e
  | _ => s

/-- The EXEC record of a terminated block (R60, R644). -/
def State.execRecord (s : State) (e : Nat) (k : Block) (t : Term) : State :=
  s.fault {
    cls := 1, cause := t.cause, sub := t.sub, src := e, aux := t.aux,
    d0 := bitsOf t.pc 3 54 + t.coh * 2 ^ 54 + t.lane * 2 ^ 59,
    d1 := k.bx % 2 ^ 32 + k.by_ % 2 ^ 16 * 2 ^ 32 + k.bz % 2 ^ 16 * 2 ^ 48 }

/-- A block's resources are released, its cause bit set, its record written. -/
def State.release (s : State) (e b : Nat) (k : Block) (t : Term) : State :=
  let s := (s.dropBlock e b).embErr e t.cause
  (if t.quiet then s else s.execRecord e k t).blockEnd k false

/-- A block that an instruction faulted is released once its atomics and queued operations are over (R60). With `fetched`, the
entry's instruction is a word of no row: an undefined opcode, or a continuation word (R106); its block is terminated. -/
def execBlockTermination (e : Fin 16) (b : Fin 32) (fetched : Option (Fin 128 × DWord)) (s : State) :
    Host.Outcome State Fault Refusal :=
  .next (match fetched with
    | some (slot, w) =>
      let op := iOp w.toNat
      if opDefined op then s
      else s.issuePlain e slot { w := w.toNat, bad := [if op = 0xFF then 6 else 1] } noFault fun k _ _ => k
    | none => match s.blk? e b with
      | none => s
      | some k => match k.term with
        | none => s
        | some t => if !k.pend.isEmpty || !((s.em e).ops b).isEmpty then s else s.release e b k t)

/-! ## Preemption (R54 to R57, R318 to R320) -/

/-- A save slot of a context is in use: by saved blocks or by a preemption in progress. -/
def State.segUsed (s : State) (ctx seg : Nat) : Bool :=
  s.saved.any (fun v => v.ctx == ctx && v.seg == seg) ||
  s.emb.any fun e => e.2.pre.any fun p => p.blks.any fun b => b.2.1 == ctx && b.2.2 == seg

/-- The lowest free save slot, 1 to 15. -/
def State.freeSeg (s : State) (ctx : Nat) : Option Nat := ((List.range 15).map (· + 1)).find? fun g => !s.segUsed ctx g

/-- Queue whose work a block is: that of its packet, or of its pass. -/
def State.blockQ (s : State) (k : Block) : Option Nat :=
  match s.gfx.passes.find? fun p => p.id == k.info.pk with
  | some p => some p.q
  | none => (s.pk? k.info.pk).map fun (p : Pkt) => p.q

/-- Context of a block. -/
def State.blockCtx (s : State) (k : Block) : Option Nat :=
  ((s.blockQ k).bind s.q?).map fun (x : WspQ) => x.ctx

/-- Blocks with the save slots that take their records: one slot for each context; none when a context has none left. -/
def State.seats (s : State) (bs : List (Nat × Block)) : Option (List (Nat × Nat × Nat)) :=
  bs.foldl (fun r p => match r, s.blockCtx p.2 with
    | some l, some c => match l.find? fun x => x.2.1 == c with
      | some x => some (l ++ [(p.1, c, x.2.2)])
      | none => (s.freeSeg c).map fun g => l ++ [(p.1, c, g)]
    | _, _ => none) (some [])

/-- Blocks an Ember could give up for priority p, lowest priority first, then most recently placed, then enough of them for a
block to fit. -/
def State.victims (s : State) (e p : Nat) (i : LInfo) : Option (List (Nat × Block)) :=
  let x := s.em e
  let elig := fun (b : Nat × Block) => b.2.info.prio > p && b.2.term.isNone && !(b.2.tile.any fun t => t.kern == 1) && ((s.blockCtx b.2).bind s.freeSeg).isSome
  let l := sortBy (fun a b => a.2.info.prio > b.2.info.prio || (a.2.info.prio == b.2.info.prio && a.2.placed ≥ b.2.placed))
    (x.blocks.filter elig)
  let without := fun (n : Nat) => { x with blocks := x.blocks.filter fun b => !((l.take n).any fun v => v.1 == b.1) }
  (((List.range l.length).map (· + 1)).find? fun n => s.fits e (without n) i).map fun n => l.take n

/-- Wellspring asks an Ember to preempt blocks. -/
def State.askPreempt (s : State) (e : Nat) (bs : List (Nat × Block)) : State :=
  match s.seats bs with
  | none => s
  | some l => s.emPut e { s.em e with pre := some { blks := l } }

/-- Stop a block: packed cohorts are unpacked, its threads hold no entries; a thread that has already queued the operation at
its program counter is past that instruction (R54, R141). -/
def Ember.stopBlock (x : Ember) (b : Nat) : Ember :=
  match x.blocks.lookup b with
  | none => x
  | some k =>
    let past := (x.entries.filter fun e => e.2.blk == b).flatMap fun e => e.2.done
    let k := past.foldl (fun (k : Block) t => k.cohMod t.1 fun q => q.setPc t.2 ((q.pc t.2 + 16) % 2 ^ 64)) k
    (x.blkPut b { k with stopped := k.cohorts.map (·.1) }).clearBlock b

/-- The request reaches the Ember: issue stops and loads are cancelled (R54 steps 1 and 2). -/
def execPreemptRequest (e : Fin 16) (s : State) : Host.Outcome State Fault Refusal :=
  let x := s.em e
  .next (match x.pre with
    | some p =>
      if p.got then s
      else
        let bs := p.blks.filter fun b => match x.blocks.lookup b.1 with | some k => k.term.isNone | none => false
        let s := bs.foldl (fun (s : State) b => match s.blk? e b.1 with
          | some k => (s.accCancel e (k.pend.filter fun a => !a.issued)).texCancel e b.1
          | none => s) s
        let x := bs.foldl (fun (x : Ember) b => x.stopBlock b.1) (s.em e)
        s.emPut e { x with pre := some { blks := bs, got := true } }
    | none => s)

/-- Next multiple of 256. -/
def up256 (n : Nat) : Nat := (n + 255) / 256 * 256

/-- State code of a lane (R56): a thread at a founding barrier is runnable and performs the collective again. -/
def LaneSt.code : LaneSt → Nat
  | .dead => 0
  | .bar b => 2 + 4 * b
  | .recon => 3
  | _ => 1

/-- Founding-cohort record (R56); the layout of its reconvergence table is not fixed, so those bytes are free. -/
def Cohort.record (c : Cohort) (n tab : Nat) : List Nat :=
  ((List.range 32).flatMap fun l => toBytes 8 (c.pc l)) ++
  ((List.range 32).flatMap fun l => toBytes 4 (c.lane l).code) ++
  toBytes 128 tab ++
  ((List.range 64).flatMap fun r => toBytes 4 (c.uGet r)) ++
  ((List.range 32).map fun l => c.preds l % 256) ++ List.replicate 224 0 ++
  ((List.range n).flatMap fun r => (List.range 32).flatMap fun l => toBytes 4 (c.vGet r l))

/-- Block record (R56); the layout of its first 256 bytes is not fixed. -/
def Block.record (k : Block) (head : Nat) : List Nat :=
  toBytes 256 head ++ k.calGet 0 k.info.cal ++
  ([false, true].flatMap fun sh => (List.range k.info.tiles).flatMap fun t => (List.range 256).flatMap fun w =>
    toBytes 16 (k.basGet (k.cpy t sh) w))

/-- Bytes of a founding cohort's record, and where the record of the i-th begins (R56). -/
def Block.cohSize (k : Block) (c : Nat) : Nat := up256 (1024 + 128 * (k.infoOf c).n)
def Block.cohAt (k : Block) (i : Nat) : Nat := (k.cohorts.take i).foldl (fun n c => n + k.cohSize c.1) 0

/-- Bytes that a block's records take. -/
def Block.saveSize (k : Block) : Nat :=
  k.cohAt k.cohorts.length + up256 (256 + k.info.cal + 8192 * k.info.tiles)

/-- Address of a save slot (R320). -/
def State.segAddr (s : State) (ctx seg : Nat) : Nat :=
  ((s.ctx? ctx).map (·.save)).getD 0 + s.die * 0xC00000 + seg * 0xC0000

/-- Write a block's records from an address up. -/
def State.saveBlock (s : State) (k : Block) (addr : Nat) : State :=
  let s := k.cohorts.zipIdx.foldl (fun (s : State) c =>
    let (f, s) := s.free 1024
    s.sinStore .ember (s.dpaLoc (addr + k.cohAt c.2)) (c.1.2.record (k.infoOf c.1.1).n f)) s
  let (f, s) := s.free 2048
  s.sinStore .ember (s.dpaLoc (addr + k.cohAt k.cohorts.length)) (k.record f)

/-- The save area of every block takes writes. -/
def State.saveOk (s : State) (l : List (Block × Nat)) : Bool :=
  l.all fun p => s.locStatus (s.dpaLoc p.2) == .ok && s.locStatus (s.dpaLoc (p.2 + p.1.saveSize - 1)) == .ok

/-- A block's launch sees it saved, or restored. -/
def State.savedCount (s : State) (pk : Nat) (f : PkLaunch → PkLaunch) : State :=
  match s.pk? pk with
  | some p => s.pkPut { p with launch := p.launch.map f }
  | none => s

/-- Once nothing of the stopped blocks is in flight, the Ember writes their records and frees their slots (R54 steps 3 to 5).
A save area that does not take the records terminates the blocks (R67). -/
def execPreemptSave (e : Fin 16) (s : State) : Host.Outcome State Fault Refusal :=
  let x := s.em e
  .next (match x.pre with
    | none => s
    | some p =>
      let bs := p.blks.filterMap fun b => match x.blocks.lookup b.1 with
        | some k => if k.term.isNone then some (b.1, k, b.2.1, b.2.2) else none
        | none => none
      if !p.got || bs.any fun b => b.2.1.pend.any (·.issued) || !(x.ops b.1).isEmpty then s
      else
        -- each context's records follow one another in its slot
        let at_ := fun (i : Nat) => match bs[i]? with
          | some b => s.segAddr b.2.2.1 b.2.2.2 + ((bs.take i).filter fun c => c.2.2.1 == b.2.2.1).foldl (fun n c => n + c.2.1.saveSize) 0
          | none => 0
        let l := bs.zipIdx.map fun b => (b.1, at_ b.2)
        let s := s.emPut e { x with pre := none }
        if !s.saveOk (l.map fun q => (q.1.2.1, q.2)) then
          bs.foldl (fun (s : State) b => s.terminate e b.1 { cause := 6 }) s
        else l.foldl (fun (s : State) q =>
          let k := q.1.2.1
          let s := (s.saveBlock k q.2).embEvt e 8 k.cohorts.length
          let bare := fun (c : Cohort) => { c with pcs := [], v := [], u := [], p := [] }
          let v : Saved := {
            addr := q.2, ctx := q.1.2.2.1, seg := q.1.2.2.2
            blk := { k with cal := [], basin := [], sw := 0, stopped := [], cohorts := k.cohorts.map fun c => (c.1, bare c.2) } }
          let s := { s.dropBlock e q.1.1 with saved := s.saved ++ [v] }
          (s.savedCount k.info.pk fun l => { l with live := l.live - 1, saved := l.saved + 1 }).incSat R.WSP_PREEMPTS_COUNT) s)

/-- Read a founding cohort back from its record; tables and sides held come from what the record does not spell out. -/
def Cohort.fromRecord (c : Cohort) (n : Nat) (b : List Nat) : Cohort :=
  let lane := fun (l : Nat) => match bitsOf (fieldOf b (0x100 + 4 * l) 4) 0 2 with
    | 0 => LaneSt.dead
    | 1 => if c.lane l == .held then .held else .want
    | 2 => .bar (bitsOf (fieldOf b (0x100 + 4 * l) 4) 2 4)
    | _ => .recon
  let c := (List.range 32).foldl (fun (c : Cohort) l =>
    (((c.setLane l (lane l)).setPc l (fieldOf b (8 * l) 8)).setPred l 0 false)) c
  let c := { c with p := (List.range 32).foldl (fun p l => Cells.set 0 p l (fieldOf b (0x300 + l) 1)) [] }
  let c := (List.range 64).foldl (fun (c : Cohort) r => c.uSet r (fieldOf b (0x200 + 4 * r) 4)) c
  (List.range n).foldl (fun (c : Cohort) r => (List.range 32).foldl (fun (c : Cohort) l =>
    c.vSet r l (fieldOf b (0x400 + 128 * r + 4 * l) 4)) c) c

/-- Read a block's Caldera and Basin back from its record. -/
def Block.fromRecord (k : Block) (b : List Nat) : Block :=
  let k := k.calPut 0 ((b.drop 256).take k.info.cal)
  [false, true].foldl (fun (k : Block) sh => (List.range k.info.tiles).foldl (fun (k : Block) t => (List.range 256).foldl (fun (k : Block) w =>
    k.basPut (k.cpy t sh) w (fieldOf b (256 + k.info.cal + (if sh then 4096 * k.info.tiles else 0) + 4096 * t + 16 * w) 16)) k) k) k

/-- The runnable threads of a restored cohort become entries, one for each address and path. -/
def Ember.resume (x : Ember) (b c : Nat) : Ember :=
  match x.blocks.lookup b with
  | none => x
  | some k =>
    let q := k.coh c
    let lanes := (List.range 32).filter fun l => q.lane l == .want
    let groups := (lanes.map fun l => (q.pc l, q.pathmask l)).eraseDups
    groups.foldl (fun (x : Ember) g =>
      x.start b c (maskOf (lanes.filter fun l => q.pc l == g.1 && q.pathmask l == g.2)) g.1) x

/-- Arrivals at block barriers, from the states of the threads. -/
def Block.rebuildBars (k : Block) : Block :=
  { k with bars := (List.range 16).flatMap fun n => k.cohorts.filterMap fun c =>
      let m := maskOf ((List.range 32).filter fun l => c.2.lane l == .bar n)
      if m = 0 then none else some (n, c.1, m) }

/-- Read a saved block's records; `ext` holds, by DPA, bytes of other dies' memory. -/
def State.readSaved (s : State) (v : Saved) (ext : List Host.Cell) : State × Block × Bool :=
  let get := fun (r : State × Bool) (a n : Nat) =>
    let x := r.1.sinLoad .ember (r.1.dpaLoc a) n 0 (bytesAt 0 ext a n)
    (((x.1, r.2 && x.2.2 == .ok) : State × Bool), x.2.1)
  let r := v.blk.cohorts.zipIdx.foldl (fun (r : (State × Bool) × List (Nat × Cohort)) c =>
    let n := (v.blk.infoOf c.1.1).n
    let y := get r.1 (v.addr + v.blk.cohAt c.2) (1024 + 128 * n)
    (y.1, r.2 ++ [(c.1.1, c.1.2.fromRecord n y.2)])) ((s, true), [])
  let y := get r.1 (v.addr + v.blk.cohAt v.blk.cohorts.length) (256 + v.blk.info.cal + 8192 * v.blk.info.tiles)
  (y.1.1, ({ v.blk with cohorts := r.2 }.fromRecord y.2).rebuildBars, y.1.2)

/-- Room for a saved block, whose tile memory if any lies in the reserved part. -/
def State.savedFits (s : State) (e : Nat) (k : Block) : Bool :=
  let x := s.em e
  let cs := k.cohorts.filter fun c => c.2.live != 0
  let n := cs.foldl (fun n c => max n (k.infoOf c.1).n) 8
  s.embTakes e && x.freeBlock.isSome && x.cohFit x.firstSched cs.length n &&
  x.calUsed + (k.info.cal - k.info.res) ≤ 262144 - s.calRes && x.basinUsed + k.info.tiles ≤ 16 &&
  (k.info.kind != .fragment || x.tileUsed + k.info.res ≤ s.calRes)

/-- Restore a saved block on an Ember that has room, when no launch of higher priority could place there (R55, R318). -/
def State.restore (s : State) (e n : Nat) (ext : List Host.Cell) : State :=
  match s.saved[n]?, (s.em e).freeBlock with
  | some v, some b =>
    match (s.blockQ v.blk).bind s.q? with
    | none => s
    | some w =>
      let higher := s.claims.any fun c => c.2.prio < w.prio && s.fits e (s.em e) (dispInfo c.1 0 0) &&
        (s.emask (fieldOf c.1.bytes 0x3C 2)).contains e
      if w.slot.isNone || w.evict || higher || !s.savedFits e v.blk || (v.blk.info.kind == .kernel && (s.tileOf v.blk).isNone) then s
      else
        let (s, k, ok) := s.readSaved v ext
        let s := { s with saved := s.saved.eraseIdx n }
        let s := s.savedCount k.info.pk fun l => { l with live := l.live + 1, saved := l.saved - 1 }
        let x := s.em e
        let s0 := x.firstSched
        let k := { k with
          info := { k.info with stream := w.slot.getD 0xFF, prio := w.prio }, placed := x.stamp, term := none
          cohorts := k.cohorts.zipIdx.map fun c => (c.1.1, { c.1.2 with sched := (s0 + c.2) % 4 })
          pend := k.pend.zipIdx.map fun a => { a.1 with id := x.nextId + a.2 } }
        let x := { x.blkPut b k with stamp := x.stamp + 1, nextId := x.nextId + k.pend.length }
        let s := { s with wsp := { s.wsp with idle := s.wsp.idle.filter fun p => p.1 != e } }
        if !ok then (s.emPut e x).terminate e b { cause := 6 }
        else
          let x := k.cohorts.foldl (fun (x : Ember) c => x.resume b c.1) x
          (s.emPut e x).barScan e b
  | _, _ => s

def execBlockRestore (e : Fin 16) (n : BitVec 16) (ext : List Host.Cell) (s : State) : Host.Outcome State Fault Refusal :=
  .next (s.restore e n.toNat ext)

/-! ## Occupancy gating (R316) -/

/-- Embers whose domain is on. -/
def State.embsOn (s : State) : List Nat := (List.range s.embCount).filter fun e => s.domOn (16 + e) && !s.pwr.drains.contains (16 + e) && !s.engRuns (16 + e)

/-- An Ember idle for WSP_GATE.IDLE_US is asked to power off, the highest number first, while more than MINON are on. -/
def execEmberIdlePowerOff (e : Fin 16) (s : State) : Host.Outcome State Fault Refusal :=
  let us := s.get R.WSP_GATE_IDLE_US
  let due := fun (n : Nat) => s.embsOn.contains n && (s.em n).blocks.isEmpty &&
    (match s.wsp.idle.lookup n with | some t => s.tb ≥ t + us * usC | none => false)
  .next (
    if us = 0 || s.embsOn.length ≤ min (s.get R.WSP_GATE_MINON) s.embCount || !due e ||
      (List.range s.embCount).any (fun n => n > e.val && due n) then s
    else { s with
      pwr := { s.pwr with drains := s.pwr.drains ++ [16 + e.val] }
      wsp := { s.wsp with wantOn := s.wsp.wantOn.filter fun n => n != e.val } })

end Sys2Proof.Machine
end

