-- ==== Sys2Proof/Machine/Chl.lean ====
section
/-!
DEFINITION. The chain link (R420 to R454): training, credits, replay, authentication's timers, and what a link's loss does.
-/

namespace Sys2Proof.Machine

/-! ## Requests that end (R177, R448, R450) -/

/-- Fills on their way for a read of n lines are given up. -/
def State.fillsDrop (s : State) (dpa n : Nat) : State :=
  { s with sin := { s.sin with fills := s.sin.fills.filter fun f => !(f.remote && dpa ≤ f.line && f.line < dpa + 128 * n) } }

/-- The MEMORY record of a read or atomic that its die does not answer (R177). -/
def State.reqFault (s : State) (m : ChlMsg) : State := s.fault { cls := 3, cause := 4, d0 := m.dpa, d1 := 0xFF * 2 ^ 32 }

/-- An outstanding request ends with a status (R430 codes): `old` is an atomic's old value, `data` a read's bytes. -/
def State.chlFinish (s : State) (r : ChlReq) (st old : Nat) (data : List Nat) (poison : Bool := false) : State :=
  let s := { s with chl := { s.chl with req := s.chl.req.filter fun x => x.msg.tag != r.msg.tag } }
  let m := r.msg
  let lost := st ≥ 4
  let s := match m.op, r.acc with
    | 2, some (16, id) => s.emit (.reply (st = 0 && !poison)
        (if st = 0 && !poison then ofBytes ((data.drop (id / 8192)).take (id % 8192)) else 2 ^ (8 * (id % 8192)) - 1))
    | 5, some (16, _) => s.emit (.reply (st = 0) old)
    | _, _ => s
  match m.op with
  | 1 | 2 =>
    if st = 0 && !poison then (List.range r.lines).foldl (fun (s : State) i => match s.sin.fills.find? fun f => f.line == m.dpa + 128 * i && f.remote with
      | some f =>
        let s := { s with sin := { s.sin with fills := s.sin.fills.erase f } }
        if f.keep && !s.sinByp f.line then s.sinInsert {
          line := f.line, remote := true, age := f.age, ins3 := f.age == 3, data := ((data.drop (128 * i)) ++ List.replicate 128 0).take 128 }
        else s
      | none => s) s
    else
      let s := s.fillsDrop m.dpa r.lines
      if lost then s.reqFault m else if poison || st = 2 then s.poisonFault m.dpa false 0xFF else s
  | 5 =>
    let s := if lost then s.reqFault m else s
    match r.acc with
    | some (e, id) => if e = 16 then s else s.atomDone e id old (st = 0)
    | none => s
  | _ => if st = 0 then s else r.who.foldl (fun s pk => s.workFail pk (if lost then 4 else 3) false) s

/-- The answer to a request (R430): RDR for a read, RSP for the others, echoing its tag. -/
def State.chlAnswer (s : State) (p dst tag op st old : Nat) (data : List Nat) (poison : Bool := false) : State :=
  s.chlPost p { op := if op < 3 then 8 else 9, src := s.die, dst, tag, poison, st, arg := if op = 5 then old else 0, data }

/-! ## Going down (R445, R448, R450) -/

/-- The port by which the rest of a ring is still reached. -/
def State.otherWay (s : State) (p : Nat) : Option Nat :=
  let q := 1 - p
  if s.chl.ring && (s.get R.CHLP_STAT_STATE q = 5 || s.get R.CHLP_STAT_STATE q = 6) then some q else none

/-- Routes after the loss of a port (R445): the other way round a ring, otherwise none. -/
def State.reroute (s : State) (p : Nat) : State :=
  let n := s.get R.CHL_ROLL_COUNT + 1
  (List.range 8).foldl (fun s d =>
    if !s.routedBy p d then s
    else match s.otherWay p with
      | some q => s.setRoute d (q + 4 * b2n (s.get R.CHLP_STAT_STATE q == 6)) (n - s.hops d)
      | none => s.setRoute d 3 (s.hops d)) s

/-- Handle checks asked of dies that are out of reach end with NODIE (R250). -/
def State.chkLost (s : State) (lost : Nat → Bool) : State :=
  { s with wsp := { s.wsp with win := s.wsp.win.map fun p =>
    { p with chk := p.chk.map fun c => if c.2.isNone && lost (hDie c.1) then (c.1, some 3) else c } } }

/-- The dies in `crossed` were routed over a link that is lost; those no longer reached are lost (R450). -/
def State.linkLost (s old : State) (p : Nat) : State :=
  let crossed := fun d => old.routedBy p d
  let gone := fun d => crossed d && !s.memReach d
  let s := s.sinLinkLost crossed
  let mine := s.chl.req.filter fun r => crossed r.msg.dst
  let s := mine.foldl (fun s r => s.chlFinish r 4 0 []) s
  let fw := s.chl.fwd.filter fun f => f.port == p
  let s := { s with chl := { s.chl with fwd := s.chl.fwd.filter fun f => f.port != p } }
  let s := fw.foldl (fun s f => s.chlAnswer (s.portTo f.src) f.src f.tag f.op 4 0 []) s
  if (List.range 8).any gone then ((s.synLinkLost gone).dtuLinkLost gone).chkLost gone else s

/-- A port goes DOWN (R448): reason, the LINK record, its queues, routes and requests. -/
def State.chlDown (s : State) (p reason : Nat) (held : Bool) : State :=
  let was := s.get R.CHLP_STAT_STATE p
  let x := s.chlPort p
  let t := (s.chlState p 8).set R.CHLP_STAT_DREASON reason p
  let t := (t.set R.CHLP_STAT_ENCON 0 p).set R.CHLP_STAT_QREASON 0 p
  let t := t.chlPut p { ({} : ChlPort) with uid := x.uid, tries := x.tries, retr := x.retr, viol := [], since := s.tb, held }
  let t := if was = 0 || was = 1 || was = 8 then t
    else t.fault { cls := 7, cause := reason, src := p, d0 := x.uid % 2 ^ 64 }
  (t.reroute p).linkLost s p

/-! ## Training (R423 to R427) -/

/-- Lane groups by width code (R423). -/
def laneGroups (w : Nat) : List Nat := match w with | 0 => [0xFF] | 1 => [0x0F, 0xF0] | _ => [0x03, 0x0C, 0x30, 0xC0]

/-- Width and rate codes as they act: 3 acts as 2. -/
def code2 (c : Nat) : Nat := min c 2

/-- The first group of a width that passed. -/
def groupOf (pass w : Nat) : Option Nat := (laneGroups w).find? fun g => g &&& pass == g

/-- The widest group, from a width code on, that passed: width and lanes. -/
def widest (pass cap : Nat) : Option (Nat × Nat) :=
  ((List.range 3).filter (cap ≤ ·)).findSome? fun w => (groupOf pass w).map fun g => (w, g)

/-- Of two combinations (rate, width, lanes): highest body rate, then more lanes, then the higher rate (R426). -/
def betterLane (a b : Nat × Nat × Nat) : Nat × Nat × Nat :=
  let va := a.1 + a.2.1
  let vb := b.1 + b.2.1
  if vb < va then b else if va < vb then a else if b.2.1 < a.2.1 then b else a

/-- The best combination of what was tried. -/
def bestLanes (tried : List (Nat × Nat)) (cap : Nat) : Option (Nat × Nat × Nat) :=
  (tried.filterMap fun t => (widest t.2 cap).map fun w => (t.1, w.1, w.2)).foldl
    (fun b c => match b with | none => some c | some x => some (betterLane x c)) none

/-- DETECT finds enough terminated lanes of a permitted group (R425). -/
def detected (term cap : Nat) : Bool := ((List.range 3).filter (cap ≤ ·)).any fun w => (laneGroups w).any fun g => popc 8 (g &&& term) ≥ 2

/-- Every 1 ms a port in DETECT looks for termination. -/
def execChlDetectPoll (p : Fin 2) (term : BitVec 8) (s : State) : Host.Outcome State Fault Refusal :=
  .next (if s.get R.CHLP_STAT_STATE p ≠ 1 then s
    else if detected term.toNat (code2 (s.get R.CHLP_CTL_MAXWIDTH p)) then
      (s.chlUpd p fun x => { x with tried := [] }).chlState p 2
    else s.set R.CHLP_STAT_DREASON 1 p)

/-- Flits flow again after a retrain: replay from the oldest unacknowledged flit, and what was held goes (R427). -/
def State.chlResume (s : State) (p : Nat) : State :=
  let x := s.chlPort p
  let s := s.addSat R.CHLP_REPLAY_COUNT (x.replay.map ChlSent.flits).sum p
  let s := (s.chlPut p { x with tried := [], full := false, naked := false }).chlState p x.was
  (x.replay.foldl (fun s m => s.chlWire p m.msg) s).chlPump p

/-- A combination is selected: its registers; in a retrain the link resumes, otherwise FLITUP runs (R425, R435). -/
def State.chlSelect (s : State) (p : Nat) (c : Nat × Nat × Nat) (inv : Nat) (rev : Bool) (peer : Nat) : State :=
  let s := ((s.set R.CHLP_STAT_RATE c.1 p).set R.CHLP_STAT_WIDTH c.2.1 p).set R.CHLP_STAT_PEERPORT peer p
  let s := ((s.set R.CHLP_LANES_ACTIVE c.2.2 p).set R.CHLP_LANES_INV inv p).setB R.CHLP_LANES_REV rev p
  if s.get R.CHLP_STAT_STATE p = 9 then s.chlResume p
  else
    let s := s.chlUpd p fun x => { x with flitup := true, seq := 0, rx := 0, replay := [], cred := [128, 384, 32, 64], since := s.tb }
    [(0, 128), (1, 384), (2, 32), (3, 64)].foldl (fun s v => s.chlCtl p 0xF3 (v.1 + v.2 * 2 ^ 16)) s

/-- Training tries one rate (R426, R427): the lanes that passed its check, and what the alignment sets say of the partner: its
highest rate and width, its UID hash, its port; and the polarity and order of the lanes. -/
def State.chlTrain (s : State) (p rate pass maxRate maxWidth hash peer inv : Nat) (rev : Bool) : State :=
  let st := s.get R.CHLP_STAT_STATE p
  let x := s.chlPort p
  let cap := max (code2 (s.get R.CHLP_CTL_MAXRATE p)) (code2 maxRate)
  let wcap := max (code2 (s.get R.CHLP_CTL_MAXWIDTH p)) (code2 maxWidth)
  if !(st = 2 && !x.flitup || st = 9 || st = 7) then s
  else if st = 9 && hash ≠ x.hash then s.chlDown p 7 false
  else if st = 9 && !x.full && rate = s.get R.CHLP_STAT_RATE p then
    let act := s.get R.CHLP_LANES_ACTIVE p
    if act &&& pass = act then s.chlResume p else s.chlUpd p fun x => { x with full := true, tried := [] }
  else if rate ≠ (match x.tried.getLast? with | some t => t.1 + 1 | none => cap) then s
  else
    let s := if st = 7 then s.chlState p 2 else s
    let tried := x.tried ++ [(rate, pass)]
    let s := s.chlUpd p fun x => { x with tried, maxRate, maxWidth, hash }
    if (groupOf pass wcap).isNone && rate < 2 then s
    else match bestLanes tried wcap with
      | some c => s.chlSelect p c inv rev peer
      | none => s.chlDown p 2 false

def execChlTrainRate (p : Fin 2) (rate : Fin 3) (pass : BitVec 8) (maxRate maxWidth : BitVec 2) (hash : Word) (peer : BitVec 1)
    (inv : BitVec 8) (rev : Bool) (s : State) : Host.Outcome State Fault Refusal :=
  .next (s.chlTrain p rate pass.toNat maxRate.toNat maxWidth.toNat hash.toNat peer.toNat inv.toNat rev)

/-- FLITUP is not complete within 20 µs (R425). -/
def execFlitupTimeout (p : Fin 2) (s : State) : Host.Outcome State Fault Refusal :=
  .next (if (s.chlPort p).flitup then s.chlDown p 2 false else s)

/-- A retrain starts (R427, R438): more than RTLIM within 1 s is UNSTABLE. -/
def State.chlRetrain (s : State) (p : Nat) : State :=
  let st := s.get R.CHLP_STAT_STATE p
  if !(3 ≤ st && st ≤ 6) then s
  else
    let x := s.chlPort p
    let retr := s.tb :: x.retr.filter fun t => s.tb - t < 1000 * msC
    let s := (s.chlPut p { x with was := st, retr, tried := [], full := false }).incSat R.CHLP_RETRAIN_COUNT p
    if retr.length > max 1 (s.get R.CHL_TMO_RTLIM) then s.chlDown p 5 true else s.chlState p 9

/-- Offset of CHLp_CTL, and its word. -/
def chlCtlOff (p : Nat) : Nat := 0x901000 + 0x1000 * p
def chlCtlWord (en enc retrain : Bool) (maxRate maxWidth : Nat) : Nat :=
  b2n en * 2 ^ 31 + b2n enc * 2 ^ 30 + b2n retrain * 2 ^ 29 + maxRate * 16 + maxWidth

/-- CHLp_CTL, live (R425, R427, R451, R454). -/
def State.chlCtlWrite (s : State) (p val : Nat) : State :=
  let was := s.flag R.CHLP_CTL_EN p
  let s := s.putReg R.CHLP_CTL p 0 val
  let en := s.flag R.CHLP_CTL_EN p
  if en && !was then s.chlPortOn p
  else if was && !en then (s.chlDown p 9 false).chlUpd p fun x => { x with held := false, tries := 0 }
  else if bitB val 29 && (s.get R.CHLP_STAT_STATE p = 5 || s.get R.CHLP_STAT_STATE p = 6) then s.chlRetrain p
  else s

def execChlPortEnable (m : Master) (p : Fin 2) (enc : Bool) (maxRate maxWidth : BitVec 2) (s : State) : Host.Outcome State Fault Refusal :=
  let v := chlCtlWord true enc false maxRate.toNat maxWidth.toNat
  .next (s.ownerWrite m (chlCtlOff p) v false fun s => s.chlCtlWrite p v)

def execChlPortDisable (m : Master) (p : Fin 2) (enc : Bool) (maxRate maxWidth : BitVec 2) (s : State) : Host.Outcome State Fault Refusal :=
  let v := chlCtlWord false enc false maxRate.toNat maxWidth.toNat
  .next (s.ownerWrite m (chlCtlOff p) v false fun s => s.chlCtlWrite p v)

/-- A write of RETRAIN, the other fields as they stand. -/
def execChlRetrain (m : Master) (p : Fin 2) (s : State) : Host.Outcome State Fault Refusal :=
  let v := chlCtlWord (s.flag R.CHLP_CTL_EN p) (s.flag R.CHLP_CTL_ENC p) true (s.get R.CHLP_CTL_MAXRATE p) (s.get R.CHLP_CTL_MAXWIDTH p)
  .next (s.ownerWrite m (chlCtlOff p) v false fun s => s.chlCtlWrite p v)

/-- Loss of signal on every active lane (R448). -/
def execLossOfSignal (p : Fin 2) (s : State) : Host.Outcome State Fault Refusal := .next (s.chlRetrain p)

/-- A retrain has not brought flits back within HOLD (R427). -/
def execChlHoldExpiry (p : Fin 2) (s : State) : Host.Outcome State Fault Refusal :=
  .next (if s.get R.CHLP_STAT_STATE p = 9 then s.chlDown p 7 false else s)

/-! ## Timers (R425, R448) -/

/-- A message waits on a virtual channel for want of credit. -/
def ChlPort.starved (x : ChlPort) : Bool := (List.range 4).any fun v =>
  match x.q.find? fun m => chlVc m.op == v with
  | some m => decide (x.cred.getD v 0 < m.cost)
  | none => false

def execCreditTimeout (p : Fin 2) (s : State) : Host.Outcome State Fault Refusal :=
  .next (if s.chlOpen p && (s.chlPort p).starved then s.chlDown p 4 false else s)

/-- A VC0 request is unanswered for CHL_TMO.REQ (R448): its record, and TIMEOUT. -/
def execRequestTimeout (tag : BitVec 16) (s : State) : Host.Outcome State Fault Refusal :=
  .next (match s.chl.req.find? fun r => r.msg.tag == tag.toNat with
    | none => s
    | some r =>
      let p := s.portTo r.msg.dst
      let s := s.fault { cls := 7, cause := 0x11, src := p, d0 := (s.chlPort p).uid % 2 ^ 64, d1 := r.msg.dpa }
      -- one that still waits to be sent leaves its queue
      let s := if p < 2 then s.chlUpd p fun x => { x with q := x.q.filter fun m => !(m.op < 8 && m.src == s.die && m.tag == tag.toNat) } else s
      s.chlFinish r 5 0 [])

/-- Authentication fails (R448): the fourth failure is held. -/
def State.authFail (s : State) (p : Nat) : State :=
  let n := (s.chlPort p).tries + 1
  (s.chlUpd p fun x => { x with tries := n }).chlDown p 3 (n > 3)

/-- A port is not through AUTH within 3 ms. -/
def execAuthTimeout (p : Fin 2) (s : State) : Host.Outcome State Fault Refusal :=
  .next (if s.get R.CHLP_STAT_STATE p = 3 then s.authFail p else s)

/-- DETECT starts again on an enabled port. -/
def State.chlRedetect (s : State) (p : Nat) (reasons : List Nat) : State :=
  if s.get R.CHLP_STAT_STATE p = 8 && !(s.chlPort p).held && s.flag R.CHLP_CTL_EN p && reasons.contains (s.get R.CHLP_STAT_DREASON p) then
    s.chlState p 1
  else s

/-- 100 ms after an authentication failure. -/
def execAuthRetry (p : Fin 2) (s : State) : Host.Outcome State Fault Refusal := .next (s.chlRedetect p [3])

/-- 10 ms after TRAIN, CREDIT or LOS. -/
def execRedetectTimer (p : Fin 2) (s : State) : Host.Outcome State Fault Refusal := .next (s.chlRedetect p [2, 4, 7])

/-! ## Acknowledgements and replay (R436 to R438) -/

/-- a comes before b among sequence numbers. -/
def seqLe (a b : Nat) : Bool := (b + 4096 - a) % 4096 < 2048

/-- The last sequence number of a message sent. -/
def ChlSent.last (m : ChlSent) : Nat := (m.seq + m.flits - 1) % 4096

/-- ACK: what it covers leaves the replay buffer, and what waited may go. -/
def State.chlAck (s : State) (p seq : Nat) : State :=
  (s.chlUpd p fun x => { x with replay := x.replay.filter fun m => !seqLe m.last seq }).chlPump p

/-- Send again from a sequence number on; a fourth sending without acknowledgement starts a retrain. -/
def State.chlReplay (s : State) (p seq : Nat) : State :=
  let x := s.chlPort p
  let again := x.replay.filter fun m => seqLe seq m.last
  let n := (again.map fun m => if seqLe seq m.seq then m.flits else (m.last + 4096 - seq) % 4096 + 1).sum
  let s := s.addSat R.CHLP_REPLAY_COUNT n p
  let s := s.chlPut p { x with replay := x.replay.map fun m => if seqLe seq m.last then { m with sends := m.sends + 1 } else m }
  let s := again.foldl (fun s m => s.chlWire p m.msg) s
  if again.any fun m => m.sends + 1 ≥ 4 then s.chlRetrain p else s

/-- 10 µs pass with unacknowledged flits and no progress. -/
def execReplayTimeout (p : Fin 2) (s : State) : Host.Outcome State Fault Refusal :=
  .next (match (s.chlPort p).replay with
    | m :: _ => if s.chlOpen p then s.chlReplay p m.seq else s
    | [] => s)

/-- The NAK goes again when no replay has begun within 2 µs. -/
def execNakResendTimer (p : Fin 2) (s : State) : Host.Outcome State Fault Refusal :=
  .next (if (s.chlPort p).naked then s.chlCtl p 0xF2 (s.chlPort p).rx else s)

/-- CREDIT: flits returned on a virtual channel, up to its buffer (R435). -/
def State.chlCredit (s : State) (p v n : Nat) : State :=
  (s.chlUpd p fun x => { x with cred := x.cred.set v (min ([128, 384, 32, 64].getD v 0) (x.cred.getD v 0 + n)) }).chlPump p

end Sys2Proof.Machine
end

