-- ==== Sys2Proof/Machine/Boot.lean ====
section
/-!
DEFINITION. The bring-up (R549 to R583): the steps, the cold, warm and resume paths.
-/

namespace Sys2Proof.Machine

/-! ## The steps (R559), each from BEGIN to its end -/

/-- A step that does one thing and cannot fail. -/
def State.simpleStep (s : State) (step : Nat) (f : State → State) : State :=
  (s.stepBegin step 0 0).orHang fun s => (f s).stepOk step 0 0 0

/-- A step with nothing to do: its breadcrumbs (R559), the variant as stored. -/
def State.idleStep (s : State) (step : Nat) : State :=
  (s.stepBegin step (s.startVar step) 0).orHang fun s => s.stepOk step (s.startVar step) 0 0

/-- HIF_EARLY (0x02): the HIF domain and its link. -/
def State.stepHif (s : State) : State :=
  s.simpleStep 2 fun s =>
    let s := s.bootRamp 7
    match s.boot.env.link with
    | some (sp, w) => if s.domOn 7 then ((s.set R.HIF_STAT_LINKUP 1).set R.HIF_STAT_SPEED sp).set R.HIF_STAT_WIDTH w else s
    | none => s

/-- The flash modes in turn until one answers. -/
def State.flashTry (s : State) : List Nat → State
  | [] => s.bootFatal 3 0x0600
  | v :: vs => (s.stepBegin 3 v 0).orHang fun s =>
      if s.boot.env.flash.any (· ≤ v) then s.stepOk 3 v 0 0 else (s.stepFail 3 v 0x0600).flashTry vs

/-- FLASH (0x03): the variants from the starting one, tried at once (R579). -/
def State.stepFlash (s : State) : State := s.flashTry ((List.range 3).drop (s.startVar 3))

/-- DIR (0x04): no good copy of the directory is fatal. -/
def State.stepDir (s : State) : State :=
  (s.stepBegin 4 0 0).orHang fun s =>
    if s.dirBase.isSome then s.stepOk 4 0 0 0 else (s.stepFail 4 0 0x0200).bootFatal 4 0x0200

/-- Start the Warden image of a slot type (1 A, 2 B): a trial slot is marked BAD first (R557). -/
def State.wardenStart (s : State) (ty : Nat) (e : DirEnt) : State :=
  let s := if e.trial && !e.bad then s.dirFlags ty (e.flags ||| 2) else s
  let s := { s with boot := { s.boot with warden := e.off } }
  (s.setB R.BOOT_STAT_SLOT (ty == 2)).setB R.BOOT_STAT_TRIAL (e.trial && !e.bad)

/-- The slots of an image with their variants, in the order of R557 and R579. -/
def State.slotTries (s : State) (ta : Nat) : List (Nat × Nat) := let o := s.slotOrder ta; (List.range o.length).zip o

/-- IMAGE's starting variant: the stored one returns to 0 when the first slot holds another image than the bring-up that stored it
ran (R577; log entry 103). -/
def State.imageVar (s : State) : Nat :=
  let first := ((s.slotOrder 1).head?.bind fun t => s.dirEnt t).map fun e => s.imageDigest e.off
  if first == s.boot.retained.map (·.warden) then s.startVar 5 else min (s.histOf 5).2.1 1

/-- The Warden slots in turn until one verifies. -/
def State.imageTry (s : State) : List (Nat × Nat) → State
  | [] => s.bootFatal 5 0x0200
  | (v, t) :: r => (s.stepBegin 5 v 0).orHang fun s =>
      match (s.dirEnt t).filter fun e => s.wardenOk e.off with
      | some e => (s.wardenStart t e).stepOk 5 v 0 (s.fl (e.off + 8) 4)
      | none => (s.stepFail 5 v (0x0200 + (t - 1))).imageTry r

/-- IMAGE (0x05): the slots from the starting variant, tried at once; with none left the die fails. -/
def State.stepImage (s : State) : State :=
  match (s.slotTries 1).drop s.imageVar with
  | [] => (s.stepBegin 5 s.imageVar 0).orHang fun s => (s.stepFail 5 (s.get R.BOOT_STAT_VARIANT) 0x0200).bootFatal 5 0x0200
  | l => s.imageTry l

/-- WARDEN (0x06). -/
def State.stepWarden (s : State) : State :=
  (s.simpleStep 6 fun s => s.set R.BOOT_STAT_PHASE 2).bootReport

/-- This die's valid journal entries, as flash offsets (R575). -/
def State.journalEnts (s : State) : List Nat :=
  match s.dirEnt 8 with
  | none => []
  | some e => ((List.range (e.len / 256)).map fun i => e.off + 256 * i).filter fun p =>
      s.fl p 4 == 0x4A524E4C && s.fl (p + 4) 16 == s.uid && s.fl (p + 0xFC) 4 == crc32 (s.flBytes p 0xFC)

/-- The newest of them. -/
def State.journalNewest (s : State) : Option Nat :=
  s.journalEnts.foldl (fun b p => match b with
    | none => some p
    | some q => if s.fl (p + 0x14) 4 > s.fl (q + 0x14) 4 then some p else b) none

/-- The Warden's step history (R576, R577). After POR and PIN the newest journal entry gives what the breadcrumbs do not, and a step
that it shows in progress counts as interrupted; otherwise the breadcrumbs tell the interrupted step, and stored variants go back to 0
when an image or the board configuration has changed. -/
def State.wardenHistory (s : State) : State :=
  if s.get R.BOOT_STAT_ENTRY < 2 then
    match s.journalNewest with
    | none => s
    | some p =>
      let steps := (List.range (min 27 (s.fl (p + 0x1C) 4))).map fun i => s.fl (p + 0x20 + 8 * i) 4
      let hist := steps.foldl (fun (h : List (Nat × (Nat × Nat × Nat))) (w : Nat) =>
        if (h.lookup (w % 256)).isSome then h else Cells.put h (w % 256) (bitsOf w 8 4, bitsOf w 12 4, bitsOf w 16 16)) s.boot.hist
      let s := { s with boot := { s.boot with hist, jseq := max s.boot.jseq (s.fl (p + 0x14) 4) } }
      let st : Nat := s.fl (p + 0x19) 1
      if s.fl (p + 0x18) 1 = 0 then s.failed st (s.startVar st) 0x0400 0 else s
  else
    let s := s.interrupted false
    match s.boot.retained with
    | some r =>
      if r.warden = s.imageDigest s.boot.warden && r.board = s.regionDigest 5 then s
      else { s with boot := { s.boot with hist := s.boot.hist.map fun h => (h.1, (0, h.2.2.1, h.2.2.2)) } }
    | none => s

/-- Configure a CHL port from its board byte and enable it (R454, R553). -/
def State.bootPort (s : State) (p byte : Nat) : State :=
  let s := (s.set R.CHLP_CTL_ENC (bitsOf byte 1 1) p).set R.CHLP_CTL_MAXRATE (bitsOf byte 2 2) p
  let s := (s.set R.CHLP_CTL_MAXWIDTH (bitsOf byte 4 2) p).set R.CHLP_CTL_EN (bitsOf byte 0 1) p
  if bitB byte 0 then
    let s := s.bootRamp (4 + p)
    if s.domOn (4 + p) then s.chlPortOn p else s
  else s

/-- The board values in force: the ROM defaults where BOARD ended with its variant 1. -/
def State.boardUsed (s : State) : Board := if (s.histOf 7).1 = 1 then s.romBoard else s.board

/-- BOARD takes its values; a FLASH die enables its ports (R553, R559). -/
def State.boardTake (s : State) (v : Nat) (b : Board) : State :=
  let s := if b.ok then s
    else (s.set R.BOOT_STAT_DEGRADED 1).fault { cls := 10, cause := 9 }
  let s := { s with boot := { s.boot with chainwait := b.chainwait, testconc := b.testconc, memtest := b.memtest } }
  let s := if s.isChainDie then s else (s.bootPort 0 b.ports.1).bootPort 1 b.ports.2
  s.stepOk 7 v 0 0

/-- BOARD (0x07): the configuration, or the ROM defaults (R579). -/
def State.stepBoard (s : State) : State :=
  let v := s.startVar 7
  (s.stepBegin 7 v 0).orHang fun s =>
    if v = 1 then s.boardTake 1 s.romBoard
    else if s.board.ok then s.boardTake 0 s.board
    else ((s.stepFail 7 0 0x0200).stepBegin 7 1 0).boardTake 1 s.romBoard

/-- LICENCE (0x08), cold (R592). -/
def State.stepLicence (s : State) : State :=
  s.simpleStep 8 fun s =>
    let a := s.licStore
    let s := (((s.set R.BOOT_LICSTAT_EN a.en).set R.BOOT_LICSTAT_BAD (min 255 a.bad)).set R.BOOT_LICSTAT_OTHER
      (min 255 a.other)).setB R.BOOT_LICSTAT_LIMIT (a.excess != 0)
    let s := (s.set R.BOOT_LICSTAT_STALE 0)
    let s := a.lic.foldl (fun s p => ((s.setB R.BOOT_LIC_VALID p.2.1 p.1).set R.BOOT_LIC_RESULT p.2.2.1 p.1).set
      R.BOOT_LIC_INDEX p.2.2.2 p.1) s
    let s := a.fails.foldl (fun s p => s.fault { cls := 10, cause := 4, d0 := p.1 + p.2 * 2 ^ 32 }) s
    let s := { s with boot := { s.boot with foreign := a.foreign } }
    if a.excess ≠ 0 then s.fault { cls := 10, cause := 6, d0 := a.excess } else s

/-- Listing masks of the supplement records (R597, R610). -/
def State.defectApply (s : State) (rs : List (Nat × Nat × Nat)) : State :=
  rs.foldl (fun s r => match r.1 with
    | 1 => s.set R.BOOT_DEF_EMBS_MASK (putBit (s.get R.BOOT_DEF_EMBS_MASK) r.2.1 true)
    | 2 => s.set R.BOOT_DEF_WAY_SUP (putBit (s.get R.BOOT_DEF_WAY_SUP r.2.1) r.2.2 true) r.2.1
    | 3 => s.set R.BOOT_DEF_CALS_SUP (putBit (s.get R.BOOT_DEF_CALS_SUP r.2.1) r.2.2 true) r.2.1
    | _ => s) s

/-- Banks of a physical Ember's Caldera slice that the fused map or the supplement lists. -/
def State.banksOut (s : State) (e : Nat) : List Nat :=
  (List.range 17).filter fun b => bitB (s.get R.BOOT_DEF_CALF_FUSED e ||| s.get R.BOOT_DEF_CALS_SUP e) b

/-- The spare stands for a slice's one listed bank (R564, R610); 0x1F: for none. -/
def State.calRepl (s : State) : State :=
  (List.range 18).foldl (fun s e => s.set R.BOOT_DEF_CALS_REPL ((s.banksOut e).head?.getD 0x1F) e) s

/-- DEFECT (0x09) (R596, R597). -/
def State.stepDefect (s : State) : State :=
  s.simpleStep 9 fun s =>
    let bad := s.supBad
    let s := bad.foldl (fun s o => (s.set R.BOOT_DEF_STAT_SUPERR 1).fault { cls := 10, cause := 8, d0 := o }) s
    let rs := s.supRecs
    ((s.set R.BOOT_DEF_STAT_SUPCNT (min 255 rs.length)).defectApply rs).calRepl

/-- POWER (0x0A). -/
def State.stepPower (s : State) : State :=
  s.simpleStep 10 fun s =>
    let b := s.boardUsed
    let s := ((s.setB R.PWR_VCFG_PGEN b.pgen).set R.PWR_VCFG_SETTLE b.settle).set R.PWR_DOM_REQ_REQ b.domReq
    let s := s.bootRamp 6
    [1, 2, 3].foldl (fun s d => if bitB b.domReq (d - 1) then s.bootRamp d else s) s

/-- Data rates of the DRAM variants (R579). -/
def dramRate (v : Nat) : Nat := [9600, 8533, 7500, 6400].getD v 6400

/-- DRAM (0x0B, J): trained at the variant's rate; a failure is fatal with the channel in SUB (R562, R579). -/
def State.stepDram (s : State) : State :=
  let b := s.boardUsed
  let v0 := s.startVar 11
  let v := match (List.range 4).find? (fun v => v0 ≤ v && dramRate v ≤ b.rate) with
    | some v => v
    | none => 3
  ((s.journalNote 0 11).stepBegin 11 v (dramRate v)).orHang fun s =>
    if s.boot.env.dram.getD v false && s.domOn 6 then
      ((s.set R.BOOT_DRAM_SIZE (b.gib * 1024 - 2)).set R.BOOT_DRAM_RATE (dramRate v)).stepOk 11 v 0 (dramRate v)
    else
      let code := 0x0300 + s.boot.env.dramChan
      (s.stepFail 11 v code).bootFatal 11 code

/-- Record a granule that the memory self-test finds wrong (R561). -/
def State.memFail (s : State) (g : Nat) : State :=
  let n := s.get R.BOOT_MEMFAIL_COUNT
  let s := if n < 16 then (s.set R.BOOT_MEMFAILG_VALID 1 n).set R.BOOT_MEMFAILG_GRAN g n else s.set R.BOOT_MEMFAIL_OVF 1
  (s.incSat R.BOOT_MEMFAIL_COUNT).fault { cls := 3, cause := 5, d0 := g * 65536, d1 := 0xFF * 2 ^ 32 }

/-- MEMTEST (0x0C, J): never fatal; after level 2 DRAM holds zeros. -/
def State.stepMemtest (s : State) : State :=
  let v := s.startVar 12
  ((s.journalNote 0 12).stepBegin 12 v 0).orHang fun s =>
    let level := if v = 1 then 2 else s.boot.memtest
    let s := if level = 0 then s else s.boot.env.memBad.foldl State.memFail s
    let s := if level ≠ 0 && s.boot.env.memBad ≠ [] then s.set R.BOOT_STAT_DEGRADED 1 else s
    let s := if level ≥ 2 then { s with mem := [] } else s
    s.stepOk 12 v 0 0

/-- A physical Ember is listed in the fused map or the supplement (R596). -/
def State.embListed (s : State) (e : Nat) : Bool :=
  bitB (s.get R.BOOT_DEF_EMBF_MASK) e || bitB (s.get R.BOOT_DEF_EMBS_MASK) e

/-- A ramp aborts in EMBTEST (R522, R563): the Ember has no logical number yet, so PWR_LOCKOUT and PWR_ABORTED have no bit for it and
the number that the log and the record show is open (log entry 103); the supplement keeps it off (R599). -/
def State.embRampAbort (s : State) (e : Nat) (cur : Bool) : State :=
  let l := (Config.fixedBits 4 [0x51, e]).toNat
  let cause := if cur then 2 else 1
  let s := (((s.set R.PWR_ABORTLOG_TB (s.tb % 2 ^ 32)).set R.PWR_ABORTLOG_CAUSE cause).set R.PWR_ABORTLOG_DOMAIN 8).set R.PWR_ABORTLOG_EMBER l
  let s := (s.set R.PWR_EVT_ABORT 1).vectorIf (s.flag R.PWR_CTL_IRQ) 15
  (s.fault { cls := 8, cause, src := 8, sub := l }).supAppend 1 e 0 2

/-- The resource under test when the step was interrupted, with variant 1 (R579). -/
def State.hungRes (s : State) (v kind : Nat) : List (Nat × Nat) :=
  match s.boot.hungAt with
  | some (k, i, j) => if v = 1 && k = kind then [(i, j)] else []
  | none => []

/-- EMBTEST (0x0D, J): Embers not listed are tested; a failing one is added to the supplement (R563). -/
def State.stepEmbtest (s : State) : State :=
  let v := s.startVar 13
  ((s.journalNote 0 13).stepBegin 13 v 0).orHang fun s =>
    let s := (List.range 18).foldl (fun s e =>
      if s.embListed e then s
      else if (s.hungRes v 1).any (·.1 == e) then s.supAppend 1 e 0 1
      else match s.boot.env.embAbort.lookup e with
        | some cur => s.embRampAbort e cur
        | none => if s.boot.env.embBad.contains e then s.supAppend 1 e 0 1 else s) s
    s.stepOk 13 v 0 0

/-- One failing Caldera bank (R564): the spare replaces the first, a second fails the slice's Ember. -/
def State.bankFail (s : State) (e b : Nat) : State :=
  if (s.banksOut e).contains b then s
  else if s.banksOut e = [] then
    ((s.set R.BOOT_DEF_CALS_SUP (putBit 0 b true) e).set R.BOOT_DEF_CALS_REPL b e).supAppend 3 e b 1
  else s.supAppend 1 e 0 1

/-- A Sinter way fails (R564). -/
def State.wayFail (s : State) (c w : Nat) : State :=
  (s.set R.BOOT_DEF_WAY_SUP (putBit (s.get R.BOOT_DEF_WAY_SUP c) w true) c).supAppend 2 c w 1

/-- ARRAYTEST (0x0E, J). -/
def State.stepArray (s : State) : State :=
  let v := s.startVar 14
  ((s.journalNote 0 14).stepBegin 14 v 0).orHang fun s =>
    let s := (s.hungRes v 3 ++ s.boot.env.bankBad).foldl (fun s p => s.bankFail p.1 p.2) s
    let s := (s.hungRes v 2 ++ s.boot.env.wayBad).foldl (fun s p => s.wayFail p.1 p.2) s
    let s := s.stepOk 14 v 0 0
    let s := { s with boot := { s.boot with hungAt := none } }
    -- the test window ends, and the slot goes back (R568)
    if s.boot.hasSlot then { s with boot := { s.boot with hasSlot := false } }.mgmtZero 0x0E (s.bootRep 3 s.die) else s

/-- Place logical Ember l on physical Ember p in BOOT_DEF_MAP (R610). -/
def State.mapPut (s : State) (l p : Nat) : State :=
  s.set R.BOOT_DEF_MAP_MAP (s.get R.BOOT_DEF_MAP_MAP (l / 4) + (0x80 + p) * 2 ^ (8 * (l % 4))) (l / 4)

/-- The logical numbers (R58, R59, R563, R600): healthy physical Embers in ascending order up to the allowed count. -/
def State.mapEmbers (s : State) : State :=
  let healthy := (List.range 18).filter fun e => !s.embListed e && (s.banksOut e).length < 2
  let want := min 16 (s.get R.BOOT_PROF_EMBMAX)
  let use_ := healthy.take want
  let s := (List.range 4).foldl (fun s k => s.set R.BOOT_DEF_MAP_MAP 0 k) s
  let s := ((List.range use_.length).zip use_).foldl (fun s p => s.mapPut p.1 p.2) s
  let s := (s.set R.BOOT_DEF_STAT_HEALTHY healthy.length).set R.BOOT_DEF_STAT_SPARES (healthy.length - use_.length)
  let s := if use_.length < want then s.set R.BOOT_STAT_DEGRADED 1 else s
  let s := (List.range 16).foldl (fun s n =>
    (s.set R.EMB_ID_LNUM n n).set R.EMB_ID_LCOUNT use_.length n) s
  s.set R.PWR_DOM_ON_ON_EMB ((2 ^ use_.length - 1) - ((2 ^ use_.length - 1) &&& s.get R.PWR_LOCKOUT_LOCK_EMB))

/-- MAP (0x0F). -/
def State.stepMap (s : State) : State := s.simpleStep 15 fun s => s.mapEmbers.sinWayInit

/-- The registers of the Fumarole image at an offset (R609); none: minimal mode without an image. -/
def State.fumRegs (s : State) (minimal : Bool) (img : Option Nat) : State :=
  let g := fun (o : Nat) => match img with | some a => s.fl (a + o) 4 | none => 0
  let s := ((s.set R.BOOT_FGEN_VALUE (g 0x10)).set R.BOOT_FGENMIN_VALUE (g 0x14)).set R.BOOT_FGENMAX_VALUE (g 0x18)
  let s := ((s.set R.BOOT_FVER_VERSION (g 8)).setB R.BOOT_COMPAT_PAIROK (!minimal)).setB R.BOOT_COMPAT_FMIN minimal
  s.setB R.BOOT_COMPAT_FSLOT (img.isSome && (s.dirEnt 4).any fun e => some e.off == img)

/-- The Fumarole slots in turn until one passes and pairs with the Warden, each failure recorded (R605, R608); then minimal mode. -/
def State.fumTry (s : State) : List (Nat × Nat) → State
  | [] => (s.stepBegin 16 2 0).orHang fun s =>
      let img := (s.slotOrder 3).findSome? fun t => (s.dirEnt t).bind fun e => if s.fumOk e.off then some e.off else none
      (({ s with boot := { s.boot with fumarole := img.getD 0 } }.fumRegs true img).fumBoot true img).stepOk 16 2 0 0
  | (v, t) :: r => (s.stepBegin 16 v 0).orHang fun s =>
      let a := ((s.dirEnt t).map (·.off)).getD 0
      if !s.fumOk a then
        ((s.fault { cls := 10, cause := 2, d0 := (t - 3) + (Config.fixedBits 32 [0x4F, s.fumFailed a]).toNat * 2 ^ 32 }).stepFail 16 v
          (0x0200 + (t - 3))).fumTry r
      else if !s.pairOk s.boot.warden a then
        ((s.fault {
          cls := 10, cause := 1, d0 := (t - 3) + s.fl (s.boot.warden + 0x10) 4 * 2 ^ 32,
          d1 := s.fl (a + 0x10) 4 }).stepFail 16 v (0x0200 + (t - 3))).fumTry r
      else (({ s with boot := { s.boot with fumarole := a } }.fumRegs false (some a)).fumBoot false (some a)).stepOk 16 v 0 0

/-- FUMAROLE (0x10): a slot, or minimal mode (R417, R579); the image registers (R609). -/
def State.stepFumarole (s : State) : State := s.fumTry ((s.slotTries 3).drop (s.startVar 16))

/-- A CHAIN die's port whose settings differ from its board's goes DOWN with DISABLED and trains again (R571). -/
def State.portRetune (s : State) (p byte : Nat) : State :=
  if !s.isChainDie || (s.get R.CHLP_CTL_ENC p = bitsOf byte 1 1 && s.get R.CHLP_CTL_MAXRATE p = bitsOf byte 2 2 &&
      s.get R.CHLP_CTL_MAXWIDTH p = bitsOf byte 4 2) then s
  else (s.chlDown p 9 false).bootPort p byte

/-- CHAIN (0x11): die 0 reports the licences of dies that are not on the chain (R593). -/
def State.stepChain (s : State) : State :=
  s.simpleStep 17 fun s =>
    let b := s.boardUsed
    let s := (s.portRetune 0 b.ports.1).portRetune 1 b.ports.2
    if s.isDie0 then
      (s.boot.foreign.filter fun p => !s.chainUids.contains p.2).foldl
        (fun s p => s.fault { cls := 10, cause := 5, d0 := p.1 + p.2 * 2 ^ 32 }) s
    else s

/-- TIMEBASE (0x12) (R509). -/
def State.stepTimebase (s : State) : State :=
  s.simpleStep 18 fun s => (s.set R.CRU_TB_ASYM_PS s.boardUsed.asym.1).set R.CRU_TB_ASYM_PS s.boardUsed.asym.2 1

/-- BLOCKS (0x14): the registers with Reset B, PROXY among them (R234, R571); a WDT entry's PREV_RESET record (R642). -/
def State.stepBlocks (s : State) : State :=
  s.simpleStep 20 fun s =>
    let w := s.boot.warden
    let s := s.setB R.DTU_CTL_PROXY (!s.isDie0)
    let s := ((s.set R.CHL_GEN_GEN (s.fl (w + 0x10) 4)).set R.BOOT_WGEN_VALUE (s.fl (w + 0x10) 4)).set
      R.BOOT_WGENMIN_VALUE (s.fl (w + 0x14) 4)
    let s := ((s.set R.BOOT_WGENMAX_VALUE (s.fl (w + 0x18) 4)).set R.BOOT_WDRVMIN_VALUE (s.fl (w + 0x24) 4)).set
      R.BOOT_WVER_VERSION (s.fl (w + 8) 4)
    let s := s.set R.BOOT_SVN_IMG (s.fl (w + 12) 4)
    if s.get R.BOOT_STAT_ENTRY = 3 then
      s.fault {
        cls := 11, cause := 2, src := s.get R.WDT_RINFO_KICKER, d0 := s.get R.WDT_RTB_TBASE,
        d1 := s.get R.WDT_RINFO_VALID * 2 ^ 31 + s.get R.WDT_RINFO_HW * 2 ^ 30 + s.get R.WDT_RINFO_KICKER * 2 ^ 29 +
          s.get R.WDT_RINFO_STEP * 2 ^ 16 + s.get R.WDT_RINFO_COUNT }
    else s

/-- READY (0x15): the journal, the host port, the election window (R560, R472), the watchdog's Reset values (R641). -/
def State.bootReady (s : State) : State :=
  let s := { s with boot := { s.boot with waitChain := false } }
  (s.stepBegin 21 0 0).orHang fun s =>
    let s := ((s.journalNote 1 21).stepOk 21 0 0 0).set R.BOOT_STAT_PHASE 3
    let s := (s.set R.BOOT_READY_TB_TBASE s.tb).ownElect
    (((s.set R.WDT_S1TMO_N 0x9000).set R.WDT_S2TMO_N 0x1000).wdtKick).bootReport

/-- Every numbered die has reported READY or FAILED (R570). -/
def State.chainReported (s : State) : Bool :=
  !s.flag R.CHL_ROLL_VALID ||
  (List.range 8).all fun d => d = 0 || !s.onChain d || bitB (s.get R.BOOT_CHAIN_READY ||| s.get R.BOOT_CHAIN_FAILED) d

/-- BOOT_CHAIN.WAIT: the numbered dies that have reported neither (R570). -/
def State.chainWait (s : State) : State :=
  let m := ((List.range 8).map fun d => b2n (d ≠ 0 && s.onChain d &&
    !bitB (s.get R.BOOT_CHAIN_READY ||| s.get R.BOOT_CHAIN_FAILED) d) * 2 ^ d).sum
  s.set R.BOOT_CHAIN_WAIT m

/-- After BLOCKS: die 0 waits for its chain (R570). -/
def State.bootFinish (s : State) : State :=
  if s.isDie0 && !s.chainReported then { s.chainWait with boot := { s.boot with waitChain := true } } else s.bootReady

/-- CHAINWAIT ms after BLOCKS die 0 is READY all the same (R570). -/
def execChainwaitExpiry (s : State) : Host.Outcome State Fault Refusal :=
  .next (if s.boot.waitChain then s.chainWait.bootReady else s)

/-- Retain what the warm path compares (R581, R594, R602); `lic` is the digest of the store that LICENCE has taken. -/
def State.bootRetain (s : State) (lic : Nat) : State :=
  { s with boot := { s.boot with retained := some {
      warden := s.imageDigest s.boot.warden, board := s.regionDigest 5, lic, sup := s.regionDigest 7, svn := s.get R.BOOT_SVN_FUSED } } }

/-- RECOVER (0x13): on WARM, WDT and CHN entries (R565). -/
def State.stepRecover (s : State) : State :=
  s.simpleStep 19 fun s => if 2 ≤ s.get R.BOOT_STAT_ENTRY && s.get R.BOOT_STAT_ENTRY ≤ 4 then s.synRestore else s

/-- The steps from EMBTEST to the end. -/
def State.bootFromEmbtest (s : State) (lic : Nat) : State :=
  let s := ((s.andThen State.stepEmbtest).andThen State.stepArray).andThen fun s => s.bootRetain lic
  ((((((s.andThen State.stepMap).andThen State.stepFumarole).andThen State.stepChain).andThen State.stepTimebase).andThen
    State.stepRecover).andThen State.stepBlocks).andThen State.bootFinish

/-- The test window begins (R568): MEMTEST and what follows. -/
def State.bootWindow (s : State) : State :=
  let s := { s with boot := { s.boot with waitSlot := false } }
  (s.andThen State.stepMemtest).bootFromEmbtest (s.regionDigest 6)

/-- Die 0 takes its own test window with a slot, and frees the slot. -/
def State.ownWindow (s : State) : State :=
  let s := { s with boot := { s.boot with slots := 0 :: s.boot.slots } }.bootWindow
  { s with boot := { s.boot with slots := s.boot.slots.filter (· != 0) } }

/-- Die 0 grants free slots in the order of the queue (R568). -/
def State.slotPump (s : State) : Nat → State
  | 0 => s
  | n + 1 =>
    match s.boot.slotQ with
    | [] => s
    | d :: q =>
      if s.boot.slots.length ≥ s.boot.testconc then s
      else
        let t := { s with boot := { s.boot with slotQ := q } }
        (if d = 0 then t.ownWindow
          else { t with boot := { t.boot with slots := d :: t.boot.slots } }.mgmt d 0x0E (t.bootRep 2 d)).slotPump n

/-- Ask for a test slot (R568, R569): die 0 takes its own when one is free; a die without a number waits. The watchdog is kicked
with 200 ms. -/
def State.bootSlot (s : State) : State :=
  if s.isDie0 then
    let s := { s with boot := { s.boot with slotQ := s.boot.slotQ ++ [0], waitSlot := true, waitFrom := s.tb } }
    s.slotPump 9
  else
    let s := s.crumb 12 5 0 0 0
    let s := s.mgmtZero 0x0E (s.bootRep 1 s.die)
    let s := (s.set R.WDT_S1TMO_N (wdtUnits 200)).wdtKick
    { s with boot := { s.boot with waitSlot := true, waitFrom := s.tb } }

/-- CHAINWAIT ms have passed without a grant: the window is taken without a slot (R569). -/
def execSlotWaitTimeout (s : State) : Host.Outcome State Fault Refusal :=
  .next (if s.boot.waitSlot then
      let s := s.crumb 12 5 0 0x0100 0
      { s with boot := { s.boot with slotTmo := true, slotQ := s.boot.slotQ.filter (· != 0) } }.bootWindow
    else s)

/-- From WARDEN to the wait for a test slot. -/
def State.bootWarden (s : State) : State :=
  (((((((s.andThen State.stepWarden).andThen State.wardenHistory).andThen State.stepBoard).andThen State.stepLicence).andThen State.stepDefect).andThen
    State.stepPower).andThen State.stepDram).andThen State.bootSlot

/-- A CHAIN die's ROM (R566): both ports at their defaults, ROLLINFO with image pending, RECEIVE. -/
def State.stepReceive (s : State) : State :=
  let byte := 1 + 2 * b2n (bitB s.boot.env.straps.toNat 3)
  ((s.set R.BOOT_STAT_PHASE 1).stepBegin 22 0 0).orHang fun s =>
    let s := { s with boot := { s.boot with blocks := [], recvPort := none, tries := 0 } }
    (s.bootPort 0 byte).bootPort 1 byte

/-- The cold path (R559) from ROM. -/
def State.coldPath (s : State) : State :=
  let s := s.interrupted true
  let s := s.simpleStep 1 fun s => s.set R.CRU_RPLL_STAT_LOCK 1
  if s.bootMode ≥ 2 then (s.andThen State.stepHif).andThen fun s => s.set R.BOOT_STAT_PHASE 5
  else if s.isChainDie then
    if bitB s.boot.env.straps.toNat 2 then s.bootFatal 1 0x0600 else s.andThen State.stepReceive
  else ((((s.andThen State.stepHif).andThen State.stepFlash).andThen State.stepDir).andThen State.stepImage).bootWarden

/-- The Warden slot that a warm entry runs: the first in the order that holds the retained image or passes the full check, when it is
the retained image (R557, R581, R582), with its variant. -/
def State.warmSlot (s : State) (w : Nat) : Option (Nat × (Nat × DirEnt)) :=
  let l := ((s.slotTries 1).drop s.imageVar).filterMap fun p => (s.dirEnt p.2).map fun e => (p.1, (p.2, e))
  (l.find? fun p => s.imageDigest p.2.2.off == w || s.wardenOk p.2.2.off).filter fun p => s.imageDigest p.2.2.off == w

/-- R581: the warm path is taken. -/
def State.warmOk (s : State) : Bool :=
  let tests := [11, 12, 13, 14]
  !s.flag R.BOOT_CTL_FORCECOLD && tests.all (fun st => (s.boot.okSteps.lookup st).isSome) &&
  !s.boot.inter.any (fun o => tests.contains o.1) &&
  s.boot.retained.any fun r => r.board == s.regionDigest 5 && r.svn == s.get R.BOOT_SVN_FUSED &&
    (if s.isChainDie then r.warden == s.imageDigest s.boot.warden else (s.warmSlot r.warden).isSome)

/-- Licences and supplement on the warm path (R594, R602): results kept, STALE when the store changed; an added Ember or
bank record reverts to the cold path from EMBTEST. -/
def State.warmRevert (s : State) : Bool :=
  s.boot.retained.any fun r => r.sup != s.regionDigest 7 && s.supRecs.any fun d =>
    (d.1 == 1 && !bitB (s.get R.BOOT_DEF_EMBS_MASK) d.2.1) || (d.1 == 3 && !bitB (s.get R.BOOT_DEF_CALS_SUP d.2.1) d.2.2)

/-- EMBTEST on the warm path: the quick check (R582). -/
def State.stepQuick (s : State) : State :=
  (s.stepBegin 13 (s.startVar 13) 0).orHang fun s =>
    if s.boot.env.quickBad = [] then s.stepOk 13 (s.startVar 13) 0 0
    else { s with boot := { s.boot with open_ := none } }

/-- FUMAROLE on the warm path: an image that runs with its generation unchanged is kept running (R582). -/
def State.warmFum (s : State) : State :=
  if s.flag R.FUM_MCU_CTL_RUN && s.fl (s.boot.fumarole + 0x10) 4 == s.fum.gen then
    (s.stepBegin 16 (s.startVar 16) 0).orHang fun s =>
      ((s.fumRegs s.fum.minimal (some s.boot.fumarole)).setB R.FUM_STAT_MINIMAL s.fum.minimal).stepOk 16 (s.histOf 16).1 0 0
  else s.stepFumarole

/-- Steps of the warm path from the quick check on (R582); a failure, or records added to the supplement, revert to the cold path from
EMBTEST on. -/
def State.warmTail (s : State) (revert : Bool) : State :=
  let lic := (s.boot.retained.map (·.lic)).getD 0
  let s := if revert then s else s.andThen State.stepQuick
  if s.booting && (revert || s.boot.env.quickBad ≠ []) then
    let s := if revert then s else s.boot.env.quickBad.foldl (fun s e => s.supAppend 1 e 0 4) s
    (s.set R.BOOT_STAT_WARMPATH 0).bootFromEmbtest lic
  else
    (((((((s.andThen fun s => s.crumb 14 4 0 0 0).andThen State.stepMap).andThen State.warmFum).andThen State.stepChain).andThen
      State.stepTimebase).andThen State.stepRecover).andThen State.stepBlocks).andThen State.bootFinish

/-- IMAGE on the warm path: the retained image is reloaded. -/
def State.warmImage (s : State) : State :=
  match (if s.isChainDie then none else s.boot.retained.bind fun r => s.warmSlot r.warden) with
  | some (v, t, e) => (s.stepBegin 5 v 0).orHang fun s => (s.wardenStart t e).stepOk 5 v 0 (s.fl (e.off + 8) 4)
  | none => s.idleStep 5

/-- BOARD on the warm path: as the cold bring-up left it; the ports train again. -/
def State.warmBoard (s : State) : State :=
  let v := (s.histOf 7).1
  (s.stepBegin 7 v 0).orHang fun s =>
    let rom := 1 + 2 * b2n (bitB s.boot.env.straps.toNat 3)
    let b := if s.isChainDie then (rom, rom) else s.boardUsed.ports
    ((s.bootPort 0 b.1).bootPort 1 b.2).stepOk 7 v 0 0

/-- LICENCE on the warm path: a store that has changed sets STALE (R594). -/
def State.warmLicence (s : State) : State :=
  s.simpleStep 8 fun s => if s.boot.retained.any fun r => r.lic ≠ s.regionDigest 6 then s.set R.BOOT_LICSTAT_STALE 1 else s

/-- DRAM on the warm path: out of self-refresh with the saved training. -/
def State.warmDram (s : State) : State :=
  let v := (s.histOf 11).1
  (s.stepBegin 11 v (s.get R.BOOT_DRAM_RATE)).orHang fun s => s.stepOk 11 v 0x0700 (s.get R.BOOT_DRAM_RATE)

/-- The warm path (R582). -/
def State.warmPath (s : State) : State :=
  let s := ((s.set R.BOOT_STAT_WARMPATH 1).interrupted true).simpleStep 1 id
  let s := if s.isChainDie then s else [2, 3, 4].foldl (fun s st => s.andThen fun s => s.idleStep st) s
  let s := ((s.andThen State.warmImage).andThen State.stepWarden).andThen fun s => s.interrupted false
  let s := (s.andThen State.warmBoard).andThen State.warmLicence
  let revert := s.warmRevert
  let s := s.andThen fun s => s.simpleStep 9 fun s => (s.defectApply s.supRecs).calRepl
  let s := ((s.andThen State.stepPower).andThen State.warmDram).andThen fun s => s.crumb 12 4 0 0 0
  s.warmTail revert

/-- The start of every bring-up (R573, R576): the NOTE record, the entry; FORCECOLD is consumed (R581). -/
def State.bootStart (s : State) (entry : Nat) (env : BootEnv) : State :=
  -- straps are sampled at POR and PIN only (R630)
  let s := { s with boot := { s.boot with env := if entry ≥ 2 then { env with straps := s.boot.env.straps } else env } }
  let s := (s.set R.BOOT_STAT_ENTRY entry).set R.BOOT_STAT_PHASE 0
  let s := { s with boot := { s.boot with inter := s.boot.open_, open_ := none } }
  let s := s.incWrap R.BOOT_BC_HEAD_BOOTSEQ
  let s := s.crumb 1 5 0 (s.get R.BOOT_BC_HEAD_BOOTSEQ % 256) entry
  if s.bootMode ≥ 2 then (if s.flag R.WDT_STAT_HW then s.wdtStage 1 else s)
  else ((s.set R.WDT_S1TMO_N (wdtUnits 40)).set R.WDT_S2TMO_N (wdtUnits 50)).wdtKick

/-- Results that the Warden writes back on the warm path from what it retained (R582, R594, R602). -/
def warmRetained : List Field :=
  [R.BOOT_STAT_SLOT, R.BOOT_STAT_TRIAL, R.BOOT_STAT_DEGRADED, R.BOOT_DRAM_RATE, R.BOOT_DRAM_SIZE, R.BOOT_LICSTAT_STALE,
    R.BOOT_LICSTAT_LIMIT, R.BOOT_LICSTAT_OTHER, R.BOOT_LICSTAT_BAD, R.BOOT_LICSTAT_EN, R.BOOT_LIC_VALID, R.BOOT_LIC_RESULT,
    R.BOOT_LIC_INDEX, R.BOOT_DEF_STAT_FULL, R.BOOT_DEF_STAT_SUPERR, R.BOOT_DEF_STAT_HEALTHY, R.BOOT_DEF_STAT_SPARES,
    R.BOOT_DEF_STAT_SUPCNT, R.BOOT_DEF_EMBS_MASK, R.BOOT_DEF_MAP_MAP, R.BOOT_DEF_WAY_SUP, R.BOOT_DEF_CALS_REPL,
    R.BOOT_DEF_CALS_SUP]

/-- A bring-up by its entry (R581): warm where its conditions hold, cold otherwise, and at an S3 exit that is abandoned (R583). -/
def State.bringUp (s : State) (entry : Nat) (env : BootEnv) : State :=
  let s := s.bootStart entry env
  let warm := 2 ≤ entry && entry ≤ 4 && s.warmOk
  let force := s.flag R.BOOT_CTL_FORCECOLD
  let s := if entry ≥ 2 then s.set R.BOOT_CTL_FORCECOLD 0 else s
  if warm then s.warmPath
  else
    let hist := if force then s.boot.hist.map (fun h => (h.1, (0, h.2.2.1, h.2.2.2))) else s.boot.hist
    { s.regsFilter fun _ f => !f.isIn warmRetained with boot := { s.boot with okSteps := [], hist } }.coldPath

end Sys2Proof.Machine
end

