-- ==== Sys2Proof/Machine/GfxVal.lean ====
section
/-!
DEFINITION. Values of elements (R101, R344, R345, R350, R352): components to and from FP32, exact rationals, and the FP32
results whose rounding the spec leaves open.
-/

namespace Sys2Proof.Machine

/-! ## Exact rationals -/

/-- 2 to a power. -/
def ratPow2 (e : Int) : Rat := if e ≥ 0 then (2 ^ e.toNat : Nat) else mkRat 1 (2 ^ (-e).toNat)

/-- A finite value as a rational; none for an infinity or a NaN. -/
def Fv.rat : Fv → Option Rat
  | .fin n m e => let r : Rat := (m : Rat) * ratPow2 e; some (if n then -r else r)
  | _ => none

/-- A rational as a value for one rounding to at most 64 significant bits. -/
def ratFv (r : Rat) : Fv := let (q, k) := ratio r.num.natAbs r.den; .fin (r < 0) q k

/-- Value of an FP32 code as a rational; 0 where it has none. -/
def f32Rat (c : Nat) : Rat := ((fromF c).rat).getD 0
def f32Finite (c : Nat) : Bool := ((fromF c).rat).isSome

/-- A rational computed in FP32: itself where FP32 holds it, otherwise one of its two neighbours, which the spec does not
choose (log entry 31). -/
def f32Open (key : List Nat) (r : Rat) : Nat :=
  let lo := f32.enc .rdn (ratFv r)
  let hi := f32.enc .rup (ratFv r)
  if lo = hi then lo else if Config.fixedBits 1 key = 1#1 then hi else lo

/-- Nearest integer, ties to even. -/
def ratRne (r : Rat) : Int :=
  let f := r.floor
  let d := r - (f : Rat)
  if 2 * d < 1 then f else if 1 < 2 * d then f + 1 else if f % 2 = 0 then f else f + 1

/-! ## Components -/

def fUnorm (w v : Nat) : Nat := fRat false v (2 ^ w - 1)

/-- The integer in a range that an FP32 value times a factor rounds to. -/
def fScaled (f : Nat) (lo hi : Int) (c : Nat) : Int := ((fromF c).mul (Fv.ofInt f 0)).toInt .rne lo hi

/-- Signed normalised value of w bits; the lowest code is −1 as well. -/
def fSnorm (w v : Nat) : Nat := let i := max (sgn w v) (-(2 ^ (w - 1) - 1)); fRat (i < 0) i.natAbs (2 ^ (w - 1) - 1)

/-- Bits of a component as FP32. -/
def CompKind.get (k : CompKind) (w v : Nat) : Nat :=
  match k with
  | .unorm => fUnorm w v
  | .srgb => (Config.srgbToLinear (BitVec.ofNat 8 v)).toNat
  | .uint => fOfInt v
  | .f16 => toF (Sys2Proof.Machine.f16.dec v)
  | .f32 => v
  | .uf m => toF ((⟨5, m, 0⟩ : Ffmt).dec v)
  | .snorm => fSnorm w v

/-- FP32 as the bits of a component. -/
def CompKind.put (k : CompKind) (w c : Nat) : Nat :=
  match k with
  | .unorm => (fScaled (2 ^ w - 1) 0 (2 ^ w - 1) c).toNat
  | .srgb => (Config.linearToSrgb (BitVec.ofNat 32 c)).toNat
  | .uint => (fScaled 1 0 (2 ^ w - 1) c).toNat
  | .f16 => Sys2Proof.Machine.f16.enc .rne (fromF c)
  | .f32 => c
  | .uf m => match fromF c with
    | .nan => (⟨5, m, 0⟩ : Ffmt).nanCode
    | v => if v.sign then 0 else (⟨5, m, 0⟩ : Ffmt).enc .rne v
  | .snorm => unsgn w (fScaled (2 ^ (w - 1) - 1) (-(2 ^ (w - 1) - 1)) (2 ^ (w - 1) - 1) c)

/-! ## Elements -/

/-- Replace w bits from bit lo. -/
def putField (x lo w v : Nat) : Nat := x - bitsOf x lo w * 2 ^ lo + v % 2 ^ w * 2 ^ lo

/-- Channel of an element as FP32; a channel the format lacks reads 0, or 1 for A (log entry 30). -/
def elemCh (fmt el ch : Nat) : Nat :=
  match ((fmtComps fmt).getD []).find? fun c => c.ch == ch with
  | some c => c.k.get c.w (bitsOf el c.lo c.w)
  | none => if ch = 3 then 0x3F800000 else 0

/-- An element with a channel replaced; a channel the format lacks is not stored. -/
def elemSet (fmt el ch c : Nat) : Nat :=
  match ((fmtComps fmt).getD []).find? fun x => x.ch == ch with
  | some x => putField el x.lo x.w (x.k.put x.w c)
  | none => el

/-- The format's components are unsigned integers. -/
def fmtUint (fmt : Nat) : Bool := ((fmtComps fmt).getD []).any fun c => c.k == .uint

/-- Bits of a channel of an element, unconverted. -/
def elemBits (fmt el ch : Nat) : Nat :=
  match ((fmtComps fmt).getD []).find? fun c => c.ch == ch with
  | some c => bitsOf el c.lo c.w
  | none => if ch = 3 then 1 else 0

/-- An element with the bits of a channel replaced. -/
def elemSetBits (fmt el ch v : Nat) : Nat :=
  match ((fmtComps fmt).getD []).find? fun x => x.ch == ch with
  | some x => putField el x.lo x.w (min v (2 ^ x.w - 1))
  | none => el

/-- Channels of a mask, ascending. -/
def chans (m : Nat) : List Nat := [0, 1, 2, 3].filter fun c => bitB m c

end Sys2Proof.Machine
end

