-- ==== Sys2Proof/Machine/EmbTile.lean ====
section
/-!
DEFINITION. Tile I/O, bulk copies, special registers (R101 to R104, R341).
-/

namespace Sys2Proof.Machine

/-! ## Tile attachments (R101, R337) -/

/-- Kind of launch, and the body of the render pass, of the block of an issue entry. -/
def State.slotBlock (s : State) (e slot : Nat) : Option Block :=
  ((s.em e).entries.lookup slot).bind fun en => s.blk? e en.blk
def State.passBody (s : State) (id : Nat) : List Nat :=
  ((s.gfx.passes.find? fun p => p.id == id).map (·.body)).getD []

/-- Fields of TMOD. -/
def tioAtt (w : Nat) : Nat := bitsOf w 0 4
def tioRaw (w : Nat) : Bool := bitB w 4
def tioSample (w : Nat) : Nat := bitsOf w 5 3
def tioMask (w : Nat) : Nat := bitsOf w 8 4

/-- Pixel that a thread reaches: its own in a fragment shader, otherwise A's (R101, R341). -/
def Block.tilePixel (k : Block) (w : Nat) (t : Thr) : Nat × Nat :=
  match (k.coh t.1).frag with
  | some f =>
    let q := f.quads.getD (t.2 / 4) { x := 0, y := 0, draw := 0, prim := 0, cov := [] }
    (q.x + t.2 % 2, q.y + t.2 / 2 % 2)
  | none => let a := k.rd t (iA w); (bitsOf a 0 16, bitsOf a 16 16)

/-- Samples that a fragment's lane covers. -/
def Block.tileCov (k : Block) (t : Thr) : Nat :=
  match (k.coh t.1).frag with
  | some f => (f.quads.getD (t.2 / 4) { x := 0, y := 0, draw := 0, prim := 0, cov := [] }).cov.getD (t.2 % 4) 0
  | none => 0

/-- Attachment that an instruction names with its offset in tile memory; none when it is not there or not accessible. -/
def tileAtt (body : List Nat) (kind : LKind) (w : Nat) : Option (Att × Nat) :=
  match (rpLayout body).1.find? fun a => a.1.num == tioAtt w with
  | some a => if a.1.scale2 && kind == .fragment then none else some a
  | none => none

/-- Address of a sample of a pixel. -/
def tileAddr (body : List Nat) (a : Att × Nat) (x y smp : Nat) : Nat :=
  let (w, _, n) := a.1.dims body
  a.2 + ((y * w + x) * n + smp) * fmtBytes a.1.fmt

/-- CAL_RANGE of a tile access (R101, R341). -/
def tileFault (body : List Nat) (w : Nat) (k : Block) (t : Thr) : Option XFault :=
  match tileAtt body k.info.kind w with
  | none => some xCal
  | some a =>
    let (x, y) := k.tilePixel w t
    let (tw, th, n) := a.1.dims body
    if x ≥ tw || y ≥ th || tioSample w ≥ n then some xCal else none

/-- Decode-time findings of tile.ld and tile.st. -/
def tileIns (w : Nat) (kind : LKind) : Ins :=
  let ld := iOp w == 0xA0
  let d : Opnd := { sel := iD w, n := (chans (tioMask w)).length }
  let a : Opnd := { sel := iA w }
  {
    w, ops := [a, d], mem := true,
    bad := badIf (bitB w 50 || bitsOf w 14 18 ≠ 0 || bitsOf w 12 2 ≠ 0) 2 ++ badIf (selIllegal (iD w)) 3 ++ a.bad ++
      badIf (ld && selIsU (iD w)) 5 ++ badIf (tioAtt w ≥ 10) 8 ++
      badIf (if iA w = 0x1FF then kind != .fragment else kind != .kernel) 9 }

/-- i-th register of a run; rz stays rz. -/
def regAt (sel i : Nat) : Nat := if sel < 0x140 then sel + i else sel

/-- Write values to consecutive registers. -/
def Block.wrRun (k : Block) (t : Thr) (sel : Nat) (vs : List Nat) : Block :=
  vs.zipIdx.foldl (fun (k : Block) v => k.wr t (regAt sel v.2) v.1) k

/-- Registers that tile.ld gives for an element. -/
def tileRead (w fmt el : Nat) : List Nat :=
  (chans (tioMask w)).map fun c => if tioRaw w then bitsOf el (32 * c) 32 else elemCh fmt el c

/-- An element as tile.st leaves it. -/
def tileWrite (w fmt el : Nat) (vs : List Nat) : Nat :=
  ((chans (tioMask w)).zip vs).foldl (fun el v => if tioRaw w then putField el (32 * v.1) 32 v.2 else elemSet fmt el v.1 v.2) el

def execTileLd (e : Fin 16) (slot : Fin 128) (w : BitVec 56) (s : State) : Host.Outcome State Fault Refusal :=
  let w := word56 0xA0 w
  .next (match s.slotBlock e slot with
    | none => s
    | some k =>
      let body := s.passBody k.info.pk
      s.issuePlain e slot (tileIns w k.info.kind) (tileFault body w) fun k _ act => act.foldl (fun (k' : Block) t =>
        match tileAtt body k.info.kind w with
        | none => k'
        | some a =>
          let (x, y) := k.tilePixel w t
          let el := ofBytes (k.calGet (tileAddr body a x y (tioSample w)) (fmtBytes a.1.fmt))
          k'.wrRun t (iD w) (tileRead w a.1.fmt el)) k)

/-- Store an element's bytes for a fragment's thread, remembering what they replace (R103). -/
def Block.tilePut (k : Block) (t : Thr) (addr : Nat) (bs : List Nat) : Block :=
  let old := k.calGet addr bs.length
  let k := k.calPut addr bs
  k.cohMod t.1 fun c => { c with frag := c.frag.map fun f => { f with undo := f.undo ++ old.zipIdx.map fun b => (t.2, addr + b.2, b.1) } }

def execTileSt (e : Fin 16) (slot : Fin 128) (w : BitVec 56) (s : State) : Host.Outcome State Fault Refusal :=
  let w := word56 0xA1 w
  .next (match s.slotBlock e slot with
    | none => s
    | some k =>
      let body := s.passBody k.info.pk
      s.issuePlain e slot (tileIns w k.info.kind) (tileFault body w) fun k _ act => act.foldl (fun (k : Block) t =>
        match tileAtt body k.info.kind w with
        | none => k
        | some a =>
          let (x, y) := k.tilePixel w t
          let n := fmtBytes a.1.fmt
          let vs := (List.range (chans (tioMask w)).length).map fun i => k.rd t (regAt (iD w) i)
          let smps := if k.info.kind == .fragment then (List.range 4).filter fun i => bitB (k.tileCov t) i else [tioSample w]
          smps.foldl (fun (k : Block) i =>
            let addr := tileAddr body a x y i
            k.tilePut t addr (toBytes n (tileWrite w a.1.fmt (ofBytes (k.calGet addr n)) vs))) k) k)

/-! ## frag.kill (R103, R340) -/

/-- Take back what a thread's fragment wrote. -/
def Block.fragUndo (k : Block) (t : Thr) : Block :=
  match (k.coh t.1).frag with
  | none => k
  | some f =>
    let mine := (f.undo.filter fun u => u.1 == t.2).reverse
    let k := mine.foldl (fun (k : Block) u => k.calPut u.2.1 [u.2.2]) k
    let quads := f.quads.modify (t.2 / 4) fun q => { q with late := q.late.set (t.2 % 4) [] }
    k.cohMod t.1 fun c => { c with frag := some { quads, undo := f.undo.filter fun u => u.1 != t.2 } }

def execFragKill (e : Fin 16) (slot : Fin 128) (w : BitVec 56) (s : State) : Host.Outcome State Fault Refusal :=
  let w := word56 0xA4 w
  .next (match s.slotBlock e slot with
    | none => s
    | some k =>
      s.issue e slot { w, bad := badIf (iF w) 1 ++ badIf (bitsOf w 0 50 ≠ 0) 2 ++ badIf (k.info.kind != .fragment) 9 } noFault
        fun s b en act pc =>
          let dead := act.filter fun t => !k.helper t
          let s := s.blkMod e b fun k => dead.foldl Block.fragUndo k
          if dead.isEmpty then some (s.nextPc e slot pc 1) else some (s.exitThreads e b slot en dead pc))

/-! ## xfer (R102) -/

def xferIns (w : Nat) : Ins :=
  let ops : List Opnd := [{ sel := iA w, n := 2 }, { sel := iB w }, { sel := iC w, n := 2 }]
  {
    w, ops, mem := true,
    bad := badIf (bitB w 50 || iD w ≠ 0 || bitsOf w 4 10 ≠ 0) 2 ++ badIf (ops.any fun o => !selIsU o.sel) 3 ++
      ops.flatMap Opnd.bad }

/-- The copy that a thread's founding cohort asks for. -/
def xferCopy (k : Block) (w : Nat) (t : Thr) : XCopy :=
  let c := k.rdGroup t (iC w) 2
  { id := 0, coh := t.1, lane := t.2, grp := bitsOf w 1 3, up := bitB w 0, va := k.rdGroup t (iA w) 2, cal := k.rd t (iB w),
    len := bitsOf c 0 16, rows := bitsOf c 16 16, pitch := bitsOf c 32 32 }

/-- A row length against R102 faults as a misaligned access does; rows beyond the Caldera allocation with CAL_RANGE. -/
def xferFault (w : Nat) (k : Block) (t : Thr) : Option XFault :=
  let c := xferCopy k w t
  if c.len % 16 ≠ 0 || c.len > 4096 then some (xIll 0xA)
  else if c.cal + c.len * c.rows > k.calSize then some xCal
  else none

def execXfer (e : Fin 16) (slot : Fin 128) (w : BitVec 56) (s : State) : Host.Outcome State Fault Refusal :=
  let w := word56 0xA2 w
  .next (s.issue e slot (xferIns w) (xferFault w) fun s b en act pc =>
    let one := en.parts.filterMap fun p => act.find? fun t => t.1 == p.1
    let x := s.em e
    let s := s.emPut e { x with nextId := x.nextId + one.length }
    let s := s.blkMod e b fun k =>
      { k with copies := k.copies ++ one.zipIdx.map fun t => { xferCopy k w t.1 with id := x.nextId + t.2 } }
    some (s.nextPc e slot pc 1))

/-- xfer.wait stalls while copies of its groups are outstanding. -/
def execXferWait (e : Fin 16) (slot : Fin 128) (w : BitVec 56) (s : State) : Host.Outcome State Fault Refusal :=
  let w := word56 0xA3 w
  .next (s.issue e slot { w, bad := badIf (!iF w) 1 ++ badIf (iD w ≠ 0 || iA w ≠ 0 || bitsOf w 8 24 ≠ 0) 2 } noFault
    fun s b _ act pc => match s.blk? e b with
      | none => none
      | some k =>
        if act.any fun t => k.copies.any fun c => c.coh == t.1 && bitB w c.grp then none else some (s.nextPc e slot pc 1))

/-- Name of a copy at the DTU. -/
def copyId (e id row : Nat) : List Nat := [11, e, id, row]

/-- One row of a copy; none while it waits. A row that cannot be translated or read arrives as ones (R229). -/
def State.copyRow (s : State) (e b : Nat) (c : XCopy) (ext : List Host.Cell) (i : Nat) : State × Bool :=
  match s.blk? e b with
  | none => (s, true)
  | some k =>
    let va := (c.va + i * c.pitch) % 2 ^ 64
    let cal := c.cal + i * c.len
    if c.up then
      match s.vaPlaces (copyId e c.id i) k.info.stream .store va c.len with
      | (s, .wait) => (s, false)
      | (s, .fail) => (s.workFail k.info.pk 2 false, true)
      | (s, .ok ps) =>
        let bs := k.calGet cal c.len
        (ps.foldl (fun (s : State) p => s.embWrite e k.info.pk .ember p.2.2 k.info.stream ((bs.drop (p.1 - va)).take p.2.1)) s, true)
    else
      match s.vaGet .ember (copyId e c.id i) k.info.stream .load va c.len ext with
      | (s, .wait) => (s, false)
      | (s, .fail) => ((s.workFail k.info.pk 2 false).blkMod e b fun k => k.calPut cal (List.replicate c.len 255), true)
      | (s, .ok bs) => (s.blkMod e b fun k => k.calPut cal bs, true)

/-- A copy waits for the thread's earlier accesses and copies to the same bytes (R154, R169). -/
def Block.copyWaits (k : Block) (c : XCopy) : Bool :=
  (List.range c.rows).any fun i =>
    let va := (c.va + i * c.pitch) % 2 ^ 64
    (k.pend.any fun p => p.id < c.id && p.coh == c.coh && p.lane == c.lane && p.hits va c.len) ||
      k.copies.any fun d => d.id < c.id && d.coh == c.coh && d.lane == c.lane && (d.up || c.up) && d.hits va c.len

/-- An outstanding copy of an Ember completes once all its rows can be moved. -/
def execXferCopyComplete (e : Fin 16) (id : BitVec 32) (ext : List Host.Cell) (s : State) : Host.Outcome State Fault Refusal :=
  .next (match (s.em e).blocks.findSome? fun (b, k) => (k.copies.find? fun c => c.id == id.toNat).map fun c => (b, k, c) with
    | none => s
    | some (b, k, c) =>
      if k.copyWaits c then s
      else
        let r := (List.range c.rows).foldl (fun (r : State × Bool) i =>
          let x := r.1.copyRow e b c ext i
          (x.1, r.2 && x.2)) (s, true)
        if r.2 then r.1.blkMod e b fun k => { k with copies := k.copies.filter fun d => d.id != c.id } else r.1)

/-! ## rdsr (R104) -/

/-- Registers of a special register; 0 for a code not listed. -/
def srRegs (c : Nat) : Nat :=
  if c ≤ 0xC || (0x10 ≤ c && c ≤ 0x18) || (0x24 ≤ c && c ≤ 0x26) then 1
  else if c = 0x20 || c = 0x22 then 2 else 0

/-- The spec leaves something of the special register's value open. -/
def srOpen (kind : LKind) (c : Nat) : Bool :=
  c == 0x20 || c == 0x22 || (c == 0x24 && kind == .vertex) || (c == 0x25 && (kind == .vertex || kind == .kernel))

/-- Value of a special register for a thread. `free` stands for what the spec leaves open. -/
def State.srVal (s : State) (e : Nat) (k : Block) (en : Entry) (t : Thr) (c free : Nat) : Nat :=
  let i := k.infoOf t.1
  let n := 32 * t.1 + t.2
  let q := k.coh t.1
  match c with
  | 0x00 => n
  | 0x01 => n % i.dx
  | 0x02 => n / i.dx % i.dy
  | 0x03 => n / i.dx / i.dy
  | 0x04 => k.bx
  | 0x05 => k.by_
  | 0x06 => k.bz
  | 0x07 => i.dx
  | 0x08 => i.dy
  | 0x09 => i.dz
  | 0x0A => i.gx
  | 0x0B => i.gy
  | 0x0C => i.gz
  | 0x10 => t.2
  | 0x11 => t.1
  | 0x12 => e
  | 0x13 => s.die
  | 0x14 => q.sched
  | 0x15 => q.pathmask t.2
  | 0x16 => (en.parts.lookup t.1).getD 0
  | 0x17 => q.live
  | 0x18 => i.n % 2 ^ 32
  | 0x20 => (s.tb + free % 3 + 2 ^ 64 - 1) % 2 ^ 64
  | 0x24 => match i.kind with
    | .compute => 0
    | .vertex => free % 2 ^ 32
    | _ => i.tx + i.ty * 2 ^ 16
  | 0x25 => match i.kind with
    | .compute => 0
    | .fragment => let p := k.tilePixel 0 t; p.1 + p.2 * 2 ^ 16
    | _ => free % 2 ^ 32
  | 0x26 => if i.kind == .compute then 0 else i.view
  | _ => free % 2 ^ 64

def execRdsr (e : Fin 16) (slot : Fin 128) (w : BitVec 56) (s : State) : Host.Outcome State Fault Refusal :=
  let w := word56 0xB1 w
  let c := bitsOf w 0 8
  let ops : List Opnd := [{ sel := iD w, n := max 1 (srRegs c) }]
  let bad := badIf (!iF w) 1 ++ badIf (iA w ≠ 0 || bitsOf w 8 24 ≠ 0) 2 ++ badIf (srRegs c = 0) 3 ++ badIf (selIsU (iD w)) 5 ++
    ops.flatMap Opnd.bad
  .next (s.issue e slot { w, ops, bad } noFault fun s b en act pc =>
    some ((act.foldl (fun (s : State) t => match s.blk? e b with
      | none => s
      | some k =>
        let (f, s) := if srOpen (k.infoOf t.1).kind c then s.free 64 else (0, s)
        s.blkPut e b (k.wrGroup t (iD w) (s.srVal e k en t c f) (srRegs c))) s).nextPc e slot pc 1))

end Sys2Proof.Machine
end

