-- ==== Sys2Proof/Machine/EmbTex.lean ====
section
/-!
DEFINITION. Texture instructions (R99, R100, R106, R345 to R352): descriptors, addressing, level of detail, filtering.
-/

namespace Sys2Proof.Machine

/-! ## Descriptors (R347, R348) -/

/-- A texture descriptor. -/
structure TexDesc where
  base : Nat
  fmt : Nat
  ty : Nat
  linear : Bool
  swz : List Nat
  w : Nat
  h : Nat
  d : Nat
  levels : Nat
  pitch : Nat
  deriving DecidableEq, Repr

def texDesc (b : List Nat) : TexDesc :=
  let w := fieldOf b 8 4
  { base := fieldOf b 0 8, fmt := bitsOf w 0 8, ty := bitsOf w 8 3, linear := bitB w 11,
    swz := [bitsOf w 16 3, bitsOf w 19 3, bitsOf w 22 3, bitsOf w 25 3], w := fieldOf b 0xC 2 + 1, h := fieldOf b 0xE 2 + 1,
    d := fieldOf b 0x10 2 + 1, levels := bitsOf (fieldOf b 0x12 2) 0 4 + 1, pitch := fieldOf b 0x14 4 }

/-- A sampler descriptor. -/
structure Sampler where
  mag : Bool
  min : Bool
  mip : Nat
  addr : List Nat
  cmp : Nat
  border : Nat
  unnorm : Bool
  bias : Int
  minlod : Nat
  maxlod : Nat
  deriving DecidableEq, Repr

def sampler (b : List Nat) : Sampler :=
  let w := fieldOf b 0 4
  { mag := bitB w 0, min := bitB w 1, mip := bitsOf w 2 2, addr := [bitsOf w 4 3, bitsOf w 7 3, bitsOf w 10 3],
    cmp := bitsOf w 13 3, border := bitsOf w 16 2, unnorm := bitB w 18, bias := sgn 16 (fieldOf b 4 2),
    minlod := fieldOf b 8 2, maxlod := fieldOf b 0xA 2 }

/-- Compressed format. -/
def TexDesc.packed (t : TexDesc) : Bool := (fmtComps t.fmt).isNone

/-- A descriptor that texture instructions can use (R349, R352). -/
def TexDesc.ok (t : TexDesc) : Bool :=
  t.ty != 7 && (fmtElem t.fmt).isSome && !(t.linear && (t.ty != 1 || t.levels != 1 || t.packed)) && !(t.packed && t.ty == 2)

/-- Coordinates of a sample that address texels, whether a layer follows, and whether the type is a cube. -/
def TexDesc.dims (t : TexDesc) : Nat := match t.ty with | 0 => 1 | 1 => 2 | 2 => 3 | 3 => 3 | 4 => 1 | 5 => 2 | _ => 3
def TexDesc.array (t : TexDesc) : Bool := t.ty == 4 || t.ty == 5 || t.ty == 6
def TexDesc.cube (t : TexDesc) : Bool := t.ty == 3 || t.ty == 6
def TexDesc.coords (t : TexDesc) : Nat := t.dims + b2n t.array

/-- Size of a level. -/
def TexDesc.lw (t : TexDesc) (l : Nat) : Nat := max 1 (t.w / 2 ^ l)
def TexDesc.lh (t : TexDesc) (l : Nat) : Nat := if t.ty == 0 || t.ty == 4 then 1 else max 1 (t.h / 2 ^ l)
/-- Slices of a level: 3-D slices, layers, faces. -/
def TexDesc.slices (t : TexDesc) (l : Nat) : Nat :=
  match t.ty with | 2 => max 1 (t.d / 2 ^ l) | 3 => 6 | 4 | 5 | 6 => t.d | _ => 1

/-! ## Layouts (R346) -/

/-- Page geometry for elements of b bytes. -/
def pageDim (b : Nat) : Nat × Nat :=
  match b with | 1 => (256, 256) | 2 => (256, 128) | 4 => (128, 128) | 8 => (128, 64) | _ => (64, 64)

/-- Bits of x on even places and of y on odd places, four of each. -/
def interleave (x y : Nat) : Nat :=
  (List.range 4).foldl (fun n i => n + (x / 2 ^ i % 2) * 4 ^ i + (y / 2 ^ i % 2) * 2 * 4 ^ i) 0

/-- Byte offset of element (x, y) in a level or layer w elements wide. -/
def blockLinear (b w x y : Nat) : Nat :=
  let (pw, ph) := pageDim b
  let page := (y / ph) * ((w + pw - 1) / pw) + x / pw
  let blk := ((y % ph) / 64) * (pw / 64) + (x % pw) / 64
  page * 65536 + blk * 4096 * b + interleave ((x % 64) / 4) ((y % 64) / 4) * 16 * b + ((y % 4) * 4 + x % 4) * b

/-- Bytes that a level or layer of w × h elements takes. -/
def blockPages (b w h : Nat) : Nat :=
  let (pw, ph) := pageDim b
  ((w + pw - 1) / pw) * ((h + ph - 1) / ph) * 65536

/-- Elements of a level in x and y. -/
def TexDesc.elems (t : TexDesc) (l : Nat) : Nat × Nat :=
  let (bw, bh, _) := (fmtElem t.fmt).getD (1, 1, 1)
  ((t.lw l + bw - 1) / bw, (t.lh l + bh - 1) / bh)

/-- Offset of a level from BASE. -/
def TexDesc.levelAt (t : TexDesc) (l : Nat) : Nat :=
  let b := ((fmtElem t.fmt).getD (1, 1, 1)).2.2
  (List.range l).foldl (fun n i => let (w, h) := t.elems i; n + t.slices i * blockPages b w h) 0

/-- VA of the element that holds texel (x, y) of a slice of a level. -/
def TexDesc.elemVa (t : TexDesc) (l x y z : Nat) : Nat :=
  let (bw, bh, b) := (fmtElem t.fmt).getD (1, 1, 1)
  let (w, h) := t.elems l
  let ex := x / bw
  let ey := y / bh
  (if t.linear then t.base + ey * t.pitch + ex * b
   else t.base + t.levelAt l + z * blockPages b w h + blockLinear b w ex ey) % 2 ^ 64

/-! ## Texels (R345, R347, R352) -/

/-- Channel of a texel of a compressed block as FP32, in the precision of its format. -/
def packedCh (fmt : Nat) (b : List Nat) (x y ch : Nat) : Nat :=
  let v := (Config.blockTexel fmt b x y ch).toNat
  if 0x60 ≤ fmt && fmt < 0x70 then toF (f16.dec v)
  else if fmt = 0x77 || fmt = 0x79 then fSnorm 16 v
  else fUnorm 16 v

/-- The four channels of a texel; `raw` keeps unsigned integers as they are. -/
def TexDesc.texel (t : TexDesc) (raw : Bool) (b : List Nat) (x y : Nat) : List Nat :=
  let (bw, bh, _) := (fmtElem t.fmt).getD (1, 1, 1)
  if t.packed then [0, 1, 2, 3].map fun c => packedCh t.fmt b (x % bw) (y % bh) c
  else [0, 1, 2, 3].map fun c => if raw && fmtUint t.fmt then elemBits t.fmt (ofBytes b) c else elemCh t.fmt (ofBytes b) c

/-- The swizzle of a descriptor. -/
def TexDesc.swizzle (t : TexDesc) (one : Nat) (v : List Nat) : List Nat :=
  t.swz.map fun i => if i < 4 then v.getD i 0 else if i = 5 then one else 0

/-! ## Taps -/

/-- Where a tap reads: a texel of a level and slice, the border, or a place the spec gives no texel for. -/
inductive TapAt where
  | tex (l x y z : Nat)
  | border
  | open_
  deriving DecidableEq, Repr

/-- A tap and its weight. -/
structure Tap where
  w : Rat
  p : TapAt
  deriving Repr

/-- An FP32 coordinate; one that is not finite stands for a value the spec does not give. -/
def coordRat (key : List Nat) (c : Nat) : Rat :=
  if f32Finite c then f32Rat c else ((Config.fixedBits 16 (0 :: c :: key)).toNat : Rat)

/-- A rational in units of 1/256, one of the two next to it where it is none (R350; log entry 31). -/
def fix8 (key : List Nat) (r : Rat) : Int :=
  let x := r * 256
  let f := x.floor
  if (f : Rat) = x then f else if Config.fixedBits 1 (1 :: key) = 1#1 then f + 1 else f

/-- An index under an address mode in a size; none: the border. -/
def addrMode (mode : Nat) (n : Nat) (i : Int) : Option Nat :=
  match mode with
  | 0 => some (i % n).toNat
  | 1 => let j := (i % (2 * n)).toNat; some (if j < n then j else 2 * n - 1 - j)
  | 3 => if i < 0 || i ≥ n then none else some i.toNat
  | _ => some (max 0 (min ((n : Int) - 1) i)).toNat

/-- Positions along one axis with their weights: two neighbours, or one. -/
def axisTaps (key : List Nat) (lin unnorm : Bool) (n : Nat) (u : Rat) : List (Int × Rat) :=
  let p := if unnorm then u else u * n
  if lin then
    let f := fix8 key (p - mkRat 1 2)
    let i := f / 256
    let x : Rat := mkRat (f % 256) 256
    [(i, 1 - x), (i + 1, x)]
  else [(p.floor, 1)]

/-- Taps of one level. `us` are the normalised coordinates of the axes; `z` is the slice where it is no axis. -/
def TexDesc.levelTaps (t : TexDesc) (m : Sampler) (key : List Nat) (lin : Bool) (l : Nat) (us : List Rat) (z : Nat) : List Tap :=
  let mode := fun (i : Nat) => if t.cube || (m.unnorm && m.addr.getD i 2 < 2) then 2 else m.addr.getD i 2
  let ax := fun (i n : Nat) => (axisTaps (l :: i :: key) lin m.unnorm n (us.getD i 0)).map fun p => (addrMode (mode i) n p.1, p.2)
  let one : List (Option Nat × Rat) := [(some 0, 1)]
  let xs := ax 0 (t.lw l)
  let ys := if t.dims ≥ 2 then ax 1 (t.lh l) else one
  let zs := if t.ty == 2 then ax 2 (t.slices l) else [(some z, 1)]
  zs.flatMap fun c => ys.flatMap fun b => xs.map fun a =>
    { w := a.2 * b.2 * c.2, p := match a.1, b.1, c.1 with | some x, some y, some z => .tex l x y z | _, _, _ => .border }

/-! ## Coordinates (R99, R350) -/

/-- Face of a cube and its coordinates in [0, 1]; a tie selects z before y before x. -/
def cubeFace (key : List Nat) (x y z : Rat) : Nat × Rat × Rat :=
  let a := fun (r : Rat) => if r < 0 then -r else r
  let n := fun (sc tc ma : Rat) => if ma = 0
    then (((Config.fixedBits 8 (2 :: key)).toNat : Rat) / 256, ((Config.fixedBits 8 (3 :: key)).toNat : Rat) / 256)
    else ((sc / a ma + 1) / 2, (tc / a ma + 1) / 2)
  if a z ≥ a x && a z ≥ a y then (if z ≥ 0 then (4, n x (-y) z) else (5, n (-x) (-y) z))
  else if a y ≥ a x then (if y ≥ 0 then (2, n x z y) else (3, n x (-z) y))
  else (if x ≥ 0 then (0, n (-z) (-y) x) else (1, n z (-y) x))

/-- Axes in texel space before scaling, and the slice, of a sample's coordinates. -/
def TexDesc.place (t : TexDesc) (key : List Nat) (cs : List Nat) : List Rat × Nat :=
  let r := fun (i : Nat) => coordRat (i :: key) (cs.getD i 0)
  let layer := fun (i n : Nat) => (max 0 (min ((n : Int) - 1) (ratRne (r i)))).toNat
  if t.cube then
    let (f, u, v) := cubeFace key (r 0) (r 1) (r 2)
    ([u, v], f + (if t.array then 6 * layer 3 (max 1 (t.d / 6)) else 0))
  else ((List.range t.dims).map r, if t.array then layer t.dims t.d else 0)

/-! ## Level of detail (R100, R350) -/

/-- Floor of log2 of a positive rational, and whether it is exact. -/
def ratLog2 (r : Rat) : Int × Bool :=
  let k : Int := (Nat.log2 r.num.natAbs : Int) - Nat.log2 r.den
  let k := if ratPow2 k ≤ r then k else k - 1
  (k, r == ratPow2 k)

/-- LOD in units of 1/256 of two derivatives in texels; none when both are zero. -/
def lodOf (key : List Nat) (dx dy : List Rat) : Option Int :=
  let q := fun (v : List Rat) => v.foldl (fun n x => n + x * x) (0 : Rat)
  let m := if q dx < q dy then q dy else q dx
  if m = 0 then none
  else
    let (k, exact) := ratLog2 (m ^ 128)
    some (if exact then k else if Config.fixedBits 1 (4 :: key) = 1#1 then k + 1 else k)

/-- A derivative scaled to texels of level 0. -/
def TexDesc.scale (t : TexDesc) (m : Sampler) (v : List Rat) : List Rat :=
  if m.unnorm then v
  else v.zipIdx.map fun x => x.1 * ((match x.2 with | 0 => t.w | 1 => t.h | _ => t.d : Nat) : Rat)

/-- The computed LOD and the clamped one; none: both derivatives are zero, and level 0 is sampled. The derivatives of a cube's
face coordinates are not given, so its LOD is open. -/
def TexDesc.lod (t : TexDesc) (m : Sampler) (key : List Nat) (dx dy : List Rat) (bias : Int) : Option (Int × Int) :=
  let zero := (dx ++ dy).all fun x => x == 0
  let l := if t.cube && !zero then some (sgn 16 (Config.fixedBits 16 (5 :: key)).toNat) else lodOf key (t.scale m dx) (t.scale m dy)
  l.map fun l => let l := l + m.bias + bias; (l, max m.minlod (min m.maxlod l))

/-- Levels to sample with their weights and filter, for an LOD in 1/256 (none: level 0). -/
def TexDesc.levelsOf (t : TexDesc) (m : Sampler) (lod : Option Int) : List (Nat × Rat × Bool) :=
  let top : Int := t.levels - 1
  match lod with
  | none => [(0, 1, m.mag)]
  | some l =>
    let lin := if l ≤ 0 then m.mag else m.min
    if m.mip = 0 || m.unnorm then [(0, 1, lin)]
    else if m.mip = 1 then [((max 0 (min top ((l + 128) / 256))).toNat, 1, lin)]
    else
      let c := max 0 (min (top * 256) l)
      let f : Rat := mkRat (c % 256) 256
      let i := (c / 256).toNat
      if f = 0 then [(i, 1, lin)] else [(i, 1 - f, lin), (i + 1, f, lin)]

/-! ## What a texture instruction reads -/

/-- The values it returns without reading, or for each result its taps (`gather`: one channel of each). -/
inductive TexPlan where
  | vals (l : List Nat)
  | taps (l : List (List Tap)) (gather : Bool)

def texVar (w : Nat) : Nat := bitsOf w 4 3
def texMask (w : Nat) : Nat := bitsOf w 0 4
def texCmp (w : Nat) : Bool := bitB w 50
def texTds (w : Nat) : Nat := bitsOf w 15 8
def texSds (w : Nat) : Nat := bitsOf w 7 8

/-- Integer coordinates of a fetch: in range, the texel; otherwise the spec gives none. -/
def TexDesc.fetchAt (t : TexDesc) (l : Nat) (cs : List Nat) : TapAt :=
  let x := cs.getD 0 0
  let y := if t.dims ≥ 2 then cs.getD 1 0 else 0
  let z := if t.ty == 6 then cs.getD 2 0 + 6 * cs.getD 3 0 else if t.ty == 2 || t.cube then cs.getD 2 0
    else if t.array then cs.getD t.dims 0 else 0
  if l < t.levels && x < t.lw l && y < t.lh l && z < t.slices l then .tex l x y z else .open_

/-- Plan of a tex instruction: coordinates, derivatives (implicit or given), and operand B. -/
def TexDesc.plan (t : TexDesc) (m : Sampler) (w : Nat) (cs : List Nat) (dx dy : List Rat) (b : Nat) : TexPlan :=
  let key := [t.base, t.fmt, t.ty, t.w, t.h, t.d, t.levels, b2n m.mag, b2n m.min, m.mip, b2n m.unnorm] ++ cs ++
    (dx ++ dy).flatMap fun r => [r.num.natAbs, b2n (r.num < 0), r.den]
  let (us, z) := t.place key cs
  let sample := fun (lod : Option Int) => TexPlan.taps [(t.levelsOf m lod).flatMap fun l =>
    (t.levelTaps m key l.2.2 l.1 us z).map fun p => { p with w := p.w * l.2.1 }] false
  let bfix := fix8 (6 :: b :: key) (coordRat (7 :: key) b)
  match texVar w with
  | 0 => sample ((t.lod m key dx dy 0).map (·.2))
  | 1 => sample (some (max m.minlod (min m.maxlod bfix)))
  | 2 => sample ((t.lod m key dx dy bfix).map (·.2))
  | 3 => sample ((t.lod m key dx dy 0).map (·.2))
  | 4 => .taps [[{ w := 1, p := t.fetchAt b cs }]] false
  | 5 =>
    let l := t.levelTaps m key true 0 us z
    .taps ([2, 3, 1, 0].map fun i => (l[i]?).toList.map fun p => { p with w := 1 }) true
  | 6 => .vals [t.lw b, t.lh b, if t.ty == 2 then t.slices b else t.d, t.levels]
  | _ => match t.lod m key dx dy 0 with
    | some (l, c) => .vals [toF (Fv.ofInt l (-8)), toF (Fv.ofInt c (-8)), 0, 0]
    | none => .vals [(Config.fixedBits 32 (8 :: key)).toNat, 0, 0, 0]

/-- The border colour. -/
def Sampler.borderCh (m : Sampler) (c : Nat) : Nat :=
  match m.border with | 1 => if c = 3 then 0x3F800000 else 0 | 2 => 0x3F800000 | _ => 0

/-- A depth comparison of the reference with a texel (R334, R350). -/
def depthPass (f : Nat) (a b : Fv) : Bool :=
  match f with
  | 0 => false
  | 7 => true
  | _ => match a.cmp b with
    | none => f == 5
    | some o => match f with
      | 1 => o == .lt | 2 => o == .eq | 3 => o != .gt | 4 => o == .gt | 5 => o != .eq | _ => o != .lt

/-- The value of each channel of a tap before weighting. -/
def TexDesc.tapVal (t : TexDesc) (m : Sampler) (raw : Bool) (cmp : Option Nat) (key : List Nat) (p : TapAt) (b : List Nat) :
    List Nat :=
  let v := match p with
    | .tex _ x y _ => t.texel raw b x y
    | .border => [0, 1, 2, 3].map m.borderCh
    | .open_ => [0, 1, 2, 3].map fun c => (Config.fixedBits 32 (9 :: c :: key)).toNat
  let v := match cmp with
    | none => v
    | some r => [if depthPass m.cmp (fromF r) (fromF (v.getD 0 0)) then 0x3F800000 else 0, 0, 0, 0x3F800000]
  t.swizzle (if raw && fmtUint t.fmt then 1 else 0x3F800000) v

/-- Weighted sum of the taps' values of a channel. One tap is its own value; a value that is not finite leaves the sum open. -/
def filterCh (key : List Nat) (l : List (Rat × Nat)) : Nat :=
  match l.filter fun p => p.1 != 0 with
  | [p] => p.2
  | ps =>
    let k := ps.flatMap fun p => [p.1.num.natAbs, p.1.den, p.2]
    if ps.all fun p => f32Finite p.2 then f32Open (10 :: k ++ key) (ps.foldl (fun n p => n + p.1 * f32Rat p.2) 0)
    else (Config.fixedBits 32 (11 :: k ++ key)).toNat

/-! ## Reads -/

/-- Read n bytes by VA for an issue entry, line by line through the L1; none: it waits. An untranslatable or failed read gives
ones and fails the work (R229, R177, R196). `ext` holds, by VA, the bytes of lines of other memory. -/
def State.texRead (s : State) (e slot stream pk va n : Nat) (ext : List Host.Cell) : State × Option (List Nat) :=
  let n1 := min n (128 - va % 128)
  let one := fun (s : State) (va n : Nat) =>
    if n = 0 then (s, some [])
    else match s.vaNow [12, e, slot, va / 4096] stream va .texture with
      | (s, none) => (s, none)
      | (s, some (.err _)) => (s.workFail pk 2 false, some (List.replicate n 255))
      | (s, some o) => match s.embRead e .texture (s.outLoc o) n 0 stream (bytesAt 0 ext (lineOf va) 128) with
        | (s, .wait) => (s, none)
        | (s, .got b c) => (if c = 0 then s else s.workFail pk c false, some b)
  match one s va n1 with
  | (s, none) => (s, none)
  | (s, some b1) => match one s ((va + n1) % 2 ^ 64) (n - n1) with
    | (s, none) => (s, none)
    | (s, some b2) => (s, some (b1 ++ b2))

/-- Bytes of an element. -/
def TexDesc.elemBytes (t : TexDesc) : Nat := ((fmtElem t.fmt).getD (1, 1, 1)).2.2

/-- Read the elements of a list of taps. -/
def State.texTaps (s : State) (e slot stream pk : Nat) (t : TexDesc) (l : List Tap) (ext : List Host.Cell) :
    State × Option (List (List Nat)) :=
  l.foldl (fun (r : State × Option (List (List Nat))) p => match p.p with
    | .tex lv x y z =>
      let a := r.1.texRead e slot stream pk (t.elemVa lv x y z) t.elemBytes ext
      (a.1, match r.2, a.2 with | some bs, some b => some (bs ++ [b]) | _, _ => none)
    | _ => (r.1, r.2.map (· ++ [[]]))) (s, some [])

/-! ## tex (R99, R100) -/

/-- Results that an instruction writes, and their channels in D. -/
def texOut (w : Nat) (op : Nat) : List Nat := if op = 0x90 && texVar w = 5 then [0, 1, 2, 3] else chans (texMask w)

def texIns (w : Nat) : Ins :=
  let op := iOp w
  let d : Opnd := { sel := iD w, n := (texOut w op).length }
  let b : Opnd := { sel := iB w, n := if texVar w = 3 then 2 else 1 }
  let a : Opnd := { sel := iA w }
  let useB := op == 0x90 && [1, 2, 3, 4, 6].contains (texVar w)
  {
    w, ops := [a, d] ++ (if useB then [b] else []), mem := true,
    bad := badIf (!useB && iB w ≠ 0) 2 ++
      badIf (op ≠ 0x90 && (texCmp w || texSds w ≠ 0 || texVar w ≠ 0)) 2 ++
      badIf (op = 0x90 && texCmp w && [4, 6, 7].contains (texVar w)) 2 ++
      badIf (selIllegal (iD w) || selIllegal (iA w) || (useB && selIllegal (iB w))) 3 ++
      badIf (op ≠ 0x92 && selIsU (iD w)) 5 ++
      badIf (op = 0x90 && texVar w = 5 && (chans (texMask w)).length ≠ 1) 8 }

/-- TDS or SDS beyond its table (R106). The operations that filter nothing use no sampler. -/
def texFault (w : Nat) (k : Block) (t : Thr) : Option XFault :=
  let i := k.infoOf t.1
  if texTds w ≥ i.ntex || (iOp w == 0x90 && texVar w ≠ 4 && texVar w ≠ 6 && texSds w ≥ i.nsamp) then some (xIll 0xB) else none

/-- Consecutive registers of a thread. -/
def Block.rdRun (k : Block) (t : Thr) (sel n : Nat) : List Nat := (List.range n).map fun i => k.rd t (regAt sel i)

/-- Difference of a coordinate between the two lanes of a quad that differ in a bit; zero when the neighbour is not in the entry
(R100). -/
def Block.deriv (k : Block) (act : List Thr) (w : Nat) (t : Thr) (bit i : Nat) : Rat :=
  let hi := if bitB t.2 bit then t.2 else t.2 + 2 ^ bit
  let lo := hi - 2 ^ bit
  if act.contains (t.1, hi) && act.contains (t.1, lo) then
    coordRat [i] (k.rd (t.1, hi) (regAt (iA w) i)) - coordRat [i] (k.rd (t.1, lo) (regAt (iA w) i))
  else 0

/-- Derivatives of a thread: the quad's, or those B names, x before y. -/
def Block.texGrads (k : Block) (act : List Thr) (w : Nat) (t : Thr) (n : Nat) : List Rat × List Rat :=
  if texVar w = 3 then
    ((List.range n).map fun i => coordRat [i, 12] (k.rd t (regAt (iB w) i)),
     (List.range n).map fun i => coordRat [i, 13] (k.rd t (regAt (iB w) (n + i))))
  else ((List.range n).map (k.deriv act w t 0), (List.range n).map (k.deriv act w t 1))

/-- A register run of an instruction passes the registers of the thread's cohort. -/
def Block.runOut (k : Block) (t : Thr) (sel n : Nat) : Bool := selIsV sel && n ≠ 0 && sel + n > (k.infoOf t.1).n

/-- What a texture instruction of one thread came to: it waits, it faults, or its results. -/
inductive TexRes where
  | wait
  | fault
  | vals (l : List Nat)

/-- tex or surf.ld of one thread. -/
def State.texThread (s : State) (e slot : Nat) (k : Block) (act : List Thr) (w : Nat) (ext : List Host.Cell) (t : Thr) :
    State × TexRes :=
  let i := k.infoOf t.1
  let surf := iOp w != 0x90
  let rd := fun (s : State) (va n : Nat) => s.texRead e slot k.info.stream k.info.pk (va % 2 ^ 64) n ext
  match rd s (i.text + 32 * texTds w) 32 with
  | (s, none) => (s, .wait)
  | (s, some db) =>
    match (if surf || texVar w = 4 || texVar w = 6 then (s, some (List.replicate 16 0)) else rd s (i.samt + 16 * texSds w) 16) with
    | (s, none) => (s, .wait)
    | (s, some sb) =>
      let d := texDesc db
      let m := sampler sb
      let n := d.coords
      let grads := if texVar w = 3 then 2 * (if d.cube then 3 else d.dims) else 0
      let coords := if !surf && texVar w = 6 then 0 else n + b2n (texCmp w)
      let out := texOut w (iOp w)
      let raw := surf || texVar w = 4
      if !d.ok || (!surf && texVar w = 5 && (d.ty = 0 || d.ty = 2 || d.ty = 4)) || (m.unnorm && d.ty ≠ 1) then (s, .vals (out.map fun _ => 0))
      else if k.runOut t (iA w) coords || (!surf && k.runOut t (iB w) grads) then (s, .fault)
      else
        let cs := k.rdRun t (iA w) n
        let (dx, dy) := k.texGrads act w t (if d.cube then 3 else d.dims)
        let cmp := if texCmp w then some (k.rd t (regAt (iA w) n)) else none
        let plan := if surf then .taps [[{ w := 1, p := d.fetchAt 0 cs }]] false else d.plan m w cs dx dy (k.rd t (iB w))
        match plan with
        | .vals l => (s, .vals (out.map fun c => l.getD c 0))
        | .taps ls gather =>
          let held := ls.flatten.any fun p => match p.p with
            | .tex lv x y z => k.readWait t (d.elemVa lv x y z) d.elemBytes
            | _ => false
          if held then (s, .wait)
          else match s.texTaps e slot k.info.stream k.info.pk d ls.flatten ext with
          | (s, none) => (s, .wait)
          | (s, some bs) =>
            let key := db ++ sb ++ cs
            let vals := (ls.flatten.zip bs).map fun p => (p.1.w, d.tapVal m raw cmp key p.1.p p.2)
            if gather then
              let c := ((chans (texMask w)).head?).getD 0
              (s, .vals ((List.range 4).map fun i => match vals[i]? with | some v => v.2.getD c 0 | none => 0))
            else (s, .vals (out.map fun c => filterCh (c :: key) (vals.map fun v => (v.1, v.2.getD c 0))))

/-- Issue tex or surf.ld: every thread's results are written once all are there. -/
def State.texIssue (s : State) (e slot : Nat) (w : Nat) (ext : List Host.Cell) : State :=
  s.issueWait e slot (texIns w) (texFault w) fun s b _ act pc => match s.blk? e b with
    | none => (s, false)
    | some k =>
      let r := act.foldl (fun (r : State × List (Thr × TexRes)) t =>
        let x := r.1.texThread e slot k act w ext t
        (x.1, r.2 ++ [(t, x.2)])) (s, [])
      match r.2.find? fun x => match x.2 with | .fault => true | _ => false with
      | some (t, _) => (r.1.terminate e b { cause := 1, pc, coh := t.1, lane := t.2 }, false)
      | none =>
        if r.2.any fun x => match x.2 with | .wait => true | _ => false then (r.1, false)
        else
          let s := r.1.blkMod e b fun k => r.2.foldl (fun (k : Block) x => match x.2 with
            | .vals l => k.wrRun x.1 (iD w) l
            | _ => k) k
          (s.nextPc e slot pc 1, true)

def execTex (e : Fin 16) (slot : Fin 128) (w : BitVec 56) (ext : List Host.Cell) (s : State) : Host.Outcome State Fault Refusal :=
  .next (s.texIssue e slot (word56 0x90 w) ext)

def execSurfLd (e : Fin 16) (slot : Fin 128) (w : BitVec 56) (ext : List Host.Cell) (s : State) : Host.Outcome State Fault Refusal :=
  .next (s.texIssue e slot (word56 0x91 w) ext)

/-! ## surf.st (R76, R349) -/

/-- What a thread's surf.st comes to: it waits, it faults, it stores nothing, or it replaces channels of an element: its VA,
bytes, what it held, the new element. -/
inductive SurfRes where
  | wait
  | fault
  | none_
  | put (va n : Nat) (old : List Nat) (f : Nat → Nat)

def State.surfThread (s : State) (e slot : Nat) (k : Block) (w : Nat) (ext : List Host.Cell) (t : Thr) : State × SurfRes :=
  let i := k.infoOf t.1
  match s.texRead e slot k.info.stream k.info.pk ((i.text + 32 * texTds w) % 2 ^ 64) 32 ext with
  | (s, none) => (s, .wait)
  | (s, some db) =>
    let d := texDesc db
    if !d.ok || d.packed then (s, .none_)
    else if k.runOut t (iA w) d.coords then (s, .fault)
    else match d.fetchAt 0 (k.rdRun t (iA w) d.coords) with
      | .tex l x y z =>
        let va := d.elemVa l x y z
        let cs := chans (texMask w)
        let vs := k.rdRun t (iD w) cs.length
        let all := ((fmtComps d.fmt).getD []).all fun c => cs.contains c.ch
        if k.helper t || cs.isEmpty then (s, .none_)
        else if k.mustWait t va d.elemBytes then (s, .wait)
        else match (if all then (s, some []) else s.texRead e slot k.info.stream k.info.pk va d.elemBytes ext) with
          | (s, none) => (s, .wait)
          | (s, some old) =>
            (s, .put va d.elemBytes old fun el => (cs.zip vs).foldl (fun el v =>
              if fmtUint d.fmt then elemSetBits d.fmt el v.1 v.2 else elemSet d.fmt el v.1 v.2) el)
      | _ => (s, .none_)

def execSurfSt (e : Fin 16) (slot : Fin 128) (w : BitVec 56) (ext : List Host.Cell) (s : State) : Host.Outcome State Fault Refusal :=
  let w := word56 0x92 w
  .next (s.issueWait e slot (texIns w) (texFault w) fun s b _ act pc => match s.blk? e b with
    | none => (s, false)
    | some k =>
      let r := act.foldl (fun (r : State × List (Thr × SurfRes)) t =>
        let x := r.1.surfThread e slot k w ext t
        (x.1, r.2 ++ [(t, x.2)])) (s, [])
      match r.2.find? fun x => match x.2 with | .fault => true | _ => false with
      | some (t, _) => (r.1.terminate e b { cause := 1, pc, coh := t.1, lane := t.2 }, false)
      | none =>
        if r.2.any fun x => match x.2 with | .wait => true | _ => false then (r.1, false)
        else
          -- threads that reach one element act on it in turn
          let y := r.2.foldl (fun (y : State × List (Nat × Nat)) x => match x.2 with
            | .put va n old f =>
              let el := f ((y.2.lookup va).getD (ofBytes old))
              (y.1.stGo e b x.1 va (toBytes n el), Cells.put y.2 va el)
            | _ => y) (r.1, [])
          (y.1.nextPc e slot pc 1, true))

end Sys2Proof.Machine
end

