-- ==== Sys2Proof/Machine/Graph.lean ====
section
/-!
DEFINITION. Commit and retirement of packets, stored graphs, and the residency of queues and contexts (R273 to R276, R298,
R310 to R314).
-/

namespace Sys2Proof.Machine

/-! ## Graph headers (R310) -/

def gNodes (h : List Nat) : Nat := fieldOf h 0 2
def gEdges (h : List Nat) : Nat := fieldOf h 2 2
def gCur (h : List Nat) : Nat := bitsOf (fieldOf h 4 4) 0 3
def gSlots (h : List Nat) : Nat := fieldOf h 0x20 2
def gLref (h : List Nat) (g : Nat) : Nat := fieldOf h (0x40 + 4 * g) 4

/-- VA of map g. -/
def gMap (h : List Nat) (g : Nat) : Nat := fieldOf h 0x28 8 + 2 * (g * gNodes h)

/-- VA of a pool slot, and of the SREF bytes. -/
def gPool (h : List Nat) (i : Nat) : Nat := fieldOf h 0x18 8 + 256 * i
def gSref (h : List Nat) : Nat := fieldOf h 0x30 8

/-- Read by VA for a packet, as the access `k`. -/
def State.gGet (s : State) (p : Pkt) (k : VaKind) (va n : Nat) (ext : List Host.Cell) : State × VaRes (List Nat) :=
  s.vaGet .wellspring [5, p.id] (s.pkSlot p) k va n ext

/-- Write by VA for a packet; a write whose page has just been read does not wait. -/
def State.gPut (s : State) (p : Pkt) (va : Nat) (bs : List Nat) : State :=
  s.chlAs p.id none fun s => (s.vaPut .wellspring [5, p.id] (s.pkSlot p) .atomic va bs).1

/-- Header and the SREF bytes and map of a generation (`g`: none for the current one). -/
def State.gRead (s : State) (p : Pkt) (g : Option Nat) (ext : List Host.Cell) :
    State × VaRes (List Nat × List Nat × List Nat) :=
  match s.gGet p .atomic (fieldOf p.bytes 16 8) 128 ext with
  | (s, .wait) => (s, .wait)
  | (s, .fail) => (s, .fail)
  | (s, .ok h) => match s.gGet p .atomic (gSref h) (gSlots h) ext with
    | (s, .wait) => (s, .wait)
    | (s, .fail) => (s, .fail)
    | (s, .ok r) => match s.gGet p .atomic (gMap h (g.getD (gCur h))) (2 * gNodes h) ext with
      | (s, .wait) => (s, .wait)
      | (s, .fail) => (s, .fail)
      | (s, .ok m) => (s, .ok (h, r, groupsOf (gNodes h) 2 m))

/-- SREF once a map no longer references its slots (R314). -/
def srefDrop (r m : List Nat) : List Nat := m.foldl (fun (r : List Nat) i => r.modify i (· - 1)) r

/-! ## GRAPH_LAUNCH (R311, R312) -/

/-- The fault of a node's packet, as a PACKET cause; 0 none. -/
def State.nodeFault (s : State) (b : List Nat) : Nat :=
  let f := s.pkFault (b.take (16 * pkLen b))
  if pkLen b = 0 || pkLen b > 16 then 3
  else if f ≠ 0 && f < 4 then f
  else if pkTag b ≠ 0 || !(pkDeps b).isEmpty || pkSerial b || pkPen b || pkType b = 5 || pkType b = 6 || pkType b ≥ 0x20 then 5
  else f

/-- Read the nodes of the generation a launch pins. -/
def State.gRows (s : State) (p : Pkt) (h m : List Nat) (ext : List Host.Cell) : State × VaRes (List (List Nat)) :=
  m.foldl (fun (r : State × VaRes (List (List Nat))) i =>
    match r.2 with
    | .ok l => match r.1.gGet p .wspRead (gPool h i) 256 ext with
      | (s, .ok b) => (s, .ok (l ++ [b]))
      | (s, .wait) => (s, .wait)
      | (s, .fail) => (s, .fail)
    | .wait => (r.1, .wait)
    | .fail => r) (s, .ok [])

/-- The graph cannot be run: the cause of the refusal, 0 none. -/
def State.graphFault (s : State) (h m edges : List Nat) (nodes : List (List Nat)) : Nat :=
  if gNodes h = 0 || gNodes h > 4096 || gSlots h < gNodes h + 8 || m.any (fun i => i ≥ gSlots h) then 5
  else if edges.any fun e => bitsOf e 0 12 ≥ bitsOf e 16 12 || bitsOf e 16 12 ≥ gNodes h then 5
  else ((nodes.map s.nodeFault).find? (· != 0)).getD 0

/-- The node packets of a launch, numbered from `base`; a node whose handle fails a check is refused. -/
def State.gNode (s : State) (p : Pkt) (base n : Nat) (edges : List Nat) (b : List Nat) : Pkt :=
  let b := b.take (16 * pkLen b)
  { id := base + n, q := p.q, sub := p.sub, off := p.off, bytes := b, stage := .committed, parent := some (p.id, n),
    deps := (edges.filter fun e => bitsOf e 16 12 == n).map fun e => base + bitsOf e 0 12
    awaits := pkAwaits b, sigs := pkSigs b, pred := some true, tc := s.tb }

/-- A node takes its place in the window. -/
def State.gNodeAdd (s : State) (p : Pkt) (n : Pkt) : State :=
  let bad := (pkHandles n).findSome? fun h => match s.pkHandle p h.1 h.2 with
    | some 0 => none
    | some e => some (h.1, e)
    | none => none
  match bad with
  | none => ({ s with wsp := { s.wsp with win := s.wsp.win ++ [n] } }).commitSync n
  | some (h, e) =>
    let sigs := n.sigs.map fun g => { g with ok := s.pkHandle p g.h true == some 0 }
    let s := s.fault { cls := 4, cause := 1, sub := e, src := s.pkSlot p, d0 := h, d1 := s.pkSubid p + p.off * 2 ^ 32 }
    let n := { n.fail 7 with sigs, stage := .done, awaits := [] }
    (sigs.filter (·.ok)).foldl (fun s g => s.synPend g.h g.n) { s with wsp := { s.wsp with win := s.wsp.win ++ [n] } }

/-- Commit a graph launch: pin the current generation and take its nodes into the window. -/
def State.commitGraph (s : State) (p : Pkt) (ext : List Host.Cell) : State :=
  let lost := fun (s : State) => match (s.commitOk p none).pk? p.id with
    | some p' => (s.commitOk p none).pkPut { p'.fail 2 with stage := .done }
    | none => s
  match s.gRead p none ext with
  | (s, .wait) => s
  | (s, .fail) => lost s
  | (s, .ok (h, _, m)) => match s.gGet p .wspRead (fieldOf h 0x10 8) (4 * gEdges h) ext with
    | (s, .wait) => s
    | (s, .fail) => lost s
    | (s, .ok eb) => match s.gRows p h m ext with
      | (s, .wait) => s
      | (s, .fail) => lost s
      | (s, .ok nodes) =>
        let edges := groupsOf (gEdges h) 4 eb
        let c := s.graphFault h m edges nodes
        if c ≠ 0 then s.commitRefuse { p with ref_ := c }
        else
          let base := s.wsp.nextId
          let ns := nodes.zipIdx.map fun b => s.gNode p base b.2 edges b.1
          let hs := ns.flatMap pkHandles
          if hs.any fun x => (s.pkHandle p x.1 x.2).isNone then s.pkAsk p hs
          else
            let g := gCur h
            let s := s.gPut p (fieldOf p.bytes 16 8 + 0x40 + 4 * g) (toBytes 4 (gLref h g + 1))
            let s := { s with wsp := { s.wsp with nextId := base + ns.length } }
            let s := s.commitOk p (some g)
            ns.foldl (fun s n => s.gNodeAdd p n) s

/-- A launch begins once its awaits are satisfied; its nodes follow. -/
def execGraphLaunch (id : BitVec 32) (s : State) : Host.Outcome State Fault Refusal :=
  .next (s.pkRun id.toNat 5 fun s p => s.pkPut { p with stage := .running })

/-! ## GRAPH_PATCH (R313, R314) -/

/-- Free pool slots. -/
def gFree (r : List Nat) : List Nat := (r.zipIdx.filter fun x => x.1 == 0).map (·.2)

/-- One entry of a patch: SREF, the new map, and the images with their slots. A node index past the map changes nothing. -/
def gEntry (x : List Nat × List Nat × List (Nat × List Nat)) (e : Nat × List Nat) : List Nat × List Nat × List (Nat × List Nat) :=
  match gFree x.1, x.2.1[e.1]? with
  | i :: _, some old => ((x.1.modify old (· - 1)).set i 1, x.2.1.set e.1 i, x.2.2 ++ [(i, e.2)])
  | _, _ => x

/-- The entries of a patch: node index, image (R313). -/
def patchEntries (b : List Nat) : List (Nat × List Nat) :=
  (List.range (fieldOf b 24 4)).map fun i => (fieldOf b (32 + 272 * i) 2, (b.drop (48 + 272 * i)).take 256)

/-- SREF, map and images after the entries: the new map starts as the old and references its slots (R314). -/
def patchPlan (r m : List Nat) (es : List (Nat × List Nat)) : List Nat × List Nat × List (Nat × List Nat) :=
  es.foldl gEntry (m.foldl (fun (r : List Nat) i => r.modify i (· + 1)) r, m, [])

/-- What a patch of generation `g` writes, in order (R313, R314): images, map, SREF, VERSION, the generation's number, and last the
header word that makes it current. The old generation is free at once when no launch pins it. -/
def patchWrites (va : Nat) (h m : List Nat) (g : Nat) (x : List Nat × List Nat × List (Nat × List Nat)) : List (Nat × List Nat) :=
  let c := gCur h
  let n := toBytes 4 ((fieldOf h 8 4 + 1) % 2 ^ 32)
  x.2.2.map (fun i => (gPool h i.1, i.2)) ++
  [(gMap h g, x.2.1.flatMap (toBytes 2)), (gSref h, if gLref h c = 0 then srefDrop x.1 m else x.1), (va + 8, n), (va + 0x60 + 4 * g, n),
    (va + 4, toBytes 4 (fieldOf h 4 4 - c + g))]

/-- A generation that neither is current nor is pinned (R314). -/
def patchGen (h : List Nat) : Option Nat := (List.range 8).find? fun g => gLref h g == 0 && g != gCur h

/-- The pages that a patch writes translate before anything changes. -/
def State.patchTouch (s : State) (p : Pkt) (l : List (Nat × Nat)) (ext : List Host.Cell) : State × VaRes Unit :=
  l.foldl (fun (x : State × VaRes Unit) i => match x.2 with
    | .ok () => match x.1.gGet p .atomic i.1 i.2 ext with
      | (s, .ok _) => (s, .ok ())
      | (s, .wait) => (s, .wait)
      | (s, .fail) => (s, .fail)
    | _ => x) (s, .ok ())

/-- Run a patch, or wait and change nothing. -/
def State.graphPatch (s : State) (p : Pkt) (ext : List Host.Cell) : State :=
  let done := fun (s : State) (c : Nat) => s.pkPut { (if c = 0 then p else p.fail c) with stage := .done }
  match s.gRead p none ext with
  | (s, .wait) => s
  | (s, .fail) => done s 2
  | (s, .ok (h, r, m)) =>
    match patchGen h with
    | none => s
    | some g =>
      if (gFree r).length < fieldOf p.bytes 24 4 then s
      else
        let x := patchPlan r m (patchEntries p.bytes)
        match s.patchTouch p ((gMap h g, 2 * gNodes h) :: x.2.2.map fun i => (gPool h i.1, 256)) ext with
        | (s, .wait) => s
        | (s, .fail) => done s 2
        | (s, .ok ()) => done ((patchWrites (fieldOf p.bytes 16 8) h m g x).foldl (fun (s : State) w => s.gPut p w.1 w.2) s) 0

def execGraphPatch (id : BitVec 32) (ext : List Host.Cell) (s : State) : Host.Outcome State Fault Refusal :=
  .next (s.pkRun id.toNat 6 fun s p => s.graphPatch p ext)

/-! ## Commit (R298) -/

/-- The oldest packet of a slot's queue that has not committed commits when its predicate is resolved and its handles have
been checked. A rendering packet waits while rendering is off, and is refused while GFX is locked out (R523). -/
def State.commit (s : State) (slot : Nat) (ext : List Host.Cell) : State :=
  match s.slotQ slot with
  | none => s
  | some (q, _) =>
    match (s.pkOf q).find? fun p => p.stage == .fetched || p.stage == .parsed with
    | none => s
    | some p =>
      let hs := if p.ref_ = 7 then [] else pkHandles p
      if p.stage != .parsed || !s.qRuns q then s
      else if pkType p.bytes ≥ 0x20 && p.ref_ = 0 && !s.flag R.GFX_CTL_EN && !s.locked 1 then s
      else if pkPen p.bytes && p.pred.isNone then s
      else if hs.any fun h => (s.pkHandle p h.1 h.2).isNone then s.pkAsk p hs
      else if p.ref_ ≠ 0 || (pkType p.bytes ≥ 0x20 && s.locked 1) || hs.any fun h => s.pkHandle p h.1 h.2 != some 0 then s.commitRefuse p
      else if pkType p.bytes = 5 && p.pred != some false then s.commitGraph p ext
      else s.commitOk p none

def execPacketCommit (slot : Fin 64) (ext : List Host.Cell) (s : State) : Host.Outcome State Fault Refusal :=
  .next (s.commit slot ext)

/-! ## Retire (R296, R312, R314) -/

/-- A launch gives up the generation it pinned. -/
def State.gUnpin (s : State) (p : Pkt) (g : Nat) (ext : List Host.Cell) : State × Bool :=
  match s.gRead p (some g) ext with
  | (s, .wait) => (s, false)
  | (s, .fail) => (s, true)
  | (s, .ok (h, r, m)) =>
    let s := s.gPut p (fieldOf p.bytes 16 8 + 0x40 + 4 * g) (toBytes 4 (gLref h g - 1))
    (if gLref h g ≤ 1 && g ≠ gCur h then s.gPut p (gSref h) (srefDrop r m) else s, true)

/-- A packet whose work has completed retires after the release of its stores at system scope (R165, R172, R176); a graph launch
first gives up its generation, an RP_END counts its pass. -/
def State.packetRetire (s : State) (id : Nat) (ext : List Host.Cell) : State :=
  match s.pk? id with
  | none => s
  | some p =>
    if p.stage != .done || !s.wtAcked || ((s.q? p.q).bind (·.slot)).isNone || s.wsp.win.any (fun x => x.parent.map (·.1) == some id) then s
    else match p.graph with
      | none =>
        let s := if !p.nop && [1, 4, 6, 0x23].contains (pkType p.bytes) then s.embRelease 3 else s
        let s := s.retire id
        if pkType p.bytes = 0x23 && !p.nop && p.err ≠ 7 then s.incSat R.GFX_PASSES_COUNT else s
      | some g => match s.gUnpin p g ext with
        | (s, false) => s
        | (s, true) => (s.pkPut { p with graph := none }).retire id

def execPacketRetire (id : BitVec 32) (ext : List Host.Cell) (s : State) : Host.Outcome State Fault Refusal :=
  .next (s.packetRetire id.toNat ext)

/-! ## Residency (R273, R274) -/

/-- Record of a queue's context: this die's own, or the bytes another die answers. -/
def State.ctxRec (s : State) (h : Nat) (ext : List Host.Cell) (off n : Nat) : Nat :=
  if hDie h = s.die then s.recNat 1 (hIdx h) off n else ofBytes (bytesAt 0 ext off n)

/-- The context a queue needs as its record shows it; none when it is not active. -/
def State.ctxLoad (s : State) (h : Nat) (ext : List Host.Cell) : Option WspCtx :=
  match s.ctx? h with
  | some c => some c
  | none =>
    let w := s.ctxRec h ext 0 4
    if bitsOf w 0 2 ≠ 1 || bitsOf w 16 5 ≠ hGen h then none
    else some {
      h, pasid := bitsOf (s.ctxRec h ext 4 4) 0 20, errpol := bitsOf w 2 2, priomax := bitsOf w 4 2,
      group := bitsOf (s.ctxRec h ext 8 4) 0 16, save := bitsOf (s.ctxRec h ext 0x10 8) 8 36 * 256 }

/-- Runnable queues in the order in which they get slots, with their context. -/
def State.runnable (s : State) (ext : List Host.Cell) : List (Nat × WspCtx × Nat) :=
  let l := s.wsp.runq.filterMap fun q =>
    let st := s.qState q
    if st = 0 || st = 3 || s.tdCovers q then none
    else (s.ctxLoad (s.recNat 2 q 4 4) ext).map fun c => (q, c, s.qPrio q c.priomax)
  sortBy (fun a b => a.2.2 ≤ b.2.2) l

def State.freeSlot (s : State) : Option Nat := (List.range 64).find? fun i => (s.slotQ i).isNone

/-- A context has a slot, or there is one for it. -/
def State.ctxRoom (s : State) (h : Nat) : Bool := (s.ctx? h).isSome || s.wsp.ctxs.length < 32

/-- Give a queue a slot. -/
def State.makeResident (s : State) (q slot : Nat) (c : WspCtx) (prio : Nat) : State :=
  let base := (s.q? q).getD {
    head := s.recNat 2 q 0x14 4, tail := s.recNat 2 q 0x18 4, cboff := s.recNat 2 q 0x20 4, dlmiss := s.recNat 2 q 0x24 4,
    tIdle := s.tb }
  let x := { base with
    slot := some slot, gen := bitsOf (s.recNat 2 q 0 4) 16 5, ctx := c.h, prio, rbase := s.recNat 2 q 8 8,
    lg := max 4 (min 16 (bitsOf (s.recNat 2 q 0x10 4) 0 5)), dlrel := s.recNat 2 q 0x1C 4, tRes := s.tb, evict := false }
  let s := { s.qPut q x with dtu := { s.dtu with pasid := Cells.put s.dtu.pasid slot c.pasid } }
  let s := { s with wsp := { s.wsp with
    runq := s.wsp.runq.filter (· != q)
    ctxs := if (s.ctx? c.h).isSome then s.wsp.ctxs else s.wsp.ctxs ++ [c] } }
  match s.watched q with
  | some u => if u.dl ≠ 0 && s.tb > u.dl && !u.missed then s.missRecord q u 1 else s
  | none => s

/-- The Warden gives the first runnable queue a free slot. `ext` holds, by offset, the record of a context of another die. -/
def execQueueMakeResident (ext : List Host.Cell) (s : State) : Host.Outcome State Fault Refusal :=
  .next (match s.runnable ext, s.freeSlot with
    | (q, c, prio) :: _, some slot => if s.ctxRoom c.h then s.makeResident q slot c prio else s
    | _, _ => s)

/-- Embers that hold blocks of a queue, with those blocks. -/
def State.queueBlocks (s : State) (q : Nat) : List (Nat × List (Nat × Block)) :=
  (s.emb.map fun e => (e.1, e.2.blocks.filter fun b => s.blockQ b.2 == some q)).filter fun e => !e.2.isEmpty

/-- A queue has nothing to do: an empty ring and no committed work. -/
def State.qIdle (s : State) (q : Nat) (x : WspQ) : Bool := x.head == x.tail && (s.pkOf q).isEmpty

/-- TBASE since which a queue's head packet has waited on awaits. -/
def State.qBlocked (s : State) (q : Nat) : Option Nat :=
  match (s.pkOf q).find? fun p => p.parent.isNone with
  | some p => if p.stage == .committed && (s.pkPoll p).2.awaits.any (fun a => a.out.isNone) then some p.tc else none
  | none => none

/-- The blocks of a queue can be saved: its context has a save slot for each Ember that holds some. -/
def State.canSave (s : State) (q : Nat) (x : WspQ) : Bool :=
  (s.queueBlocks q).length ≤ ((List.range 15).filter fun g => !s.segUsed x.ctx (g + 1)).length

/-- The first of a list by a measure, the least winning. -/
def leastBy (l : List (Nat × WspQ)) (f : Nat × WspQ → Nat) : Option Nat :=
  (l.foldl (fun (b : Option (Nat × WspQ)) x => match b with
    | none => some x
    | some y => if f x < f y then some x else b) none).map (·.1)

/-- The queue to evict for a waiting queue of a priority (R274). -/
def State.evictee (s : State) (prio : Nat) : Option Nat :=
  let res := s.wsp.qs.filter fun x => x.2.slot.isSome
  let idle := res.filter fun x => s.qIdle x.1 x.2
  let busy := res.filter fun x => s.canSave x.1 x.2
  let blocked := busy.filter fun x => match s.qBlocked x.1 with
    | some t => s.tb > t + s.get R.SYN_RESCFG_BLOCKED * 100 * usC
    | none => false
  let lower := busy.filter fun x => x.2.prio > prio
  let quantum := s.get R.SYN_RESCFG_QUANTUM * 100 * usC
  let same := busy.filter fun x => x.2.prio == prio && prio != 0 && quantum != 0 && s.tb ≥ x.2.tRes + quantum
  (leastBy idle (·.2.tIdle)).or
    ((leastBy blocked fun x => (s.qBlocked x.1).getD 0).or
      ((leastBy lower fun x => (3 - x.2.prio) * 2 ^ 64 + x.2.tRes).or (leastBy same (·.2.tRes))))

/-- A queue leaves its slot: its state goes to its record, and what its committed packets need is held; its context leaves
with its last queue. -/
def State.evictNow (s : State) (q : Nat) (x : WspQ) : State :=
  let slot := x.slot.getD 0
  let s := s.undo q
  let s := (s.pkOf q).foldl (fun (s : State) p => s.unpin p) s
  let x := (s.q? q).getD x
  let s := s.recSet 2 q 0x14 4 x.head
  let s := s.recSet 2 q 0x18 4 x.tail
  let s := s.recSet 2 q 0x20 4 x.cboff
  let s := s.recSet 2 q 0x24 4 x.dlmiss
  let ids := (s.pkOf q).map (·.id)
  let s := s.vaCancel fun id => match id with
    | 2 :: k :: _ => k == slot
    | 3 :: k :: _ => k == slot
    | 4 :: k :: _ => ids.contains k
    | 5 :: k :: _ => ids.contains k
    | _ => false
  let idle := s.qIdle q x
  let qs := if idle && x.recErr = 0 then Cells.del s.wsp.qs q else Cells.put s.wsp.qs q { x with slot := none, evict := false }
  let last := !(qs.any fun y => y.2.slot.isSome && y.2.ctx == x.ctx)
  { s with
    dtu := { s.dtu with pasid := s.dtu.pasid.filter fun y => y.1 != slot }
    wsp := { s.wsp with
      qs
      runq := if idle then s.wsp.runq else s.wsp.runq ++ [q]
      ctxs := if last then s.wsp.ctxs.filter (fun c => c.h != x.ctx) else s.wsp.ctxs } }

/-- The eviction of a queue goes on: its blocks are preempted first. -/
def State.evictStep (s : State) (q : Nat) (x : WspQ) : State :=
  match s.queueBlocks q with
  | [] => if s.emb.any (fun e => e.2.pre.any fun p => p.blks.any fun b => b.2.1 == x.ctx) then s else s.evictNow q x
  | l => l.foldl (fun (s : State) e => if (s.em e.1).pre.isSome then s else s.askPreempt e.1 (e.2.filter fun b => b.2.term.isNone)) s

/-- The Warden evicts a queue when a runnable one finds no slot. -/
def execQueueEvict (ext : List Host.Cell) (s : State) : Host.Outcome State Fault Refusal :=
  .next (match s.wsp.qs.find? fun x => x.2.slot.isSome && x.2.evict with
    | some (q, x) => s.evictStep q x
    | none => match s.runnable ext with
      | [] => s
      | (_, c, prio) :: _ =>
        if s.freeSlot.isSome && s.ctxRoom c.h then s
        else match s.evictee prio with
          | none => s
          | some q => match s.q? q with
            | none => s
            | some x => let x := { x with evict := true }
              ((s.qPut q x).undo q).evictStep q x)

end Sys2Proof.Machine
end

