-- ==== Sys2Proof/Machine/Dco.lean ====
section
/-!
DEFINITION. The display compositor (R356 to R386): channels, commits, the deadline monitor, the pose, composition, meshes and
panel commands.
-/

namespace Sys2Proof.Machine

/-! ## Channels -/

def State.dcoCh (s : State) (c : Nat) : DcoCh := Cells.get {} s.dco.ch c

/-- Put a channel back; its status bits follow (R386). -/
def State.dcoPut (s : State) (c : Nat) (x : DcoCh) : State :=
  let s := { s with dco := { s.dco with ch := Cells.set {} s.dco.ch c x } }
  let s := ((s.setB R.DCO_C_STAT_RUNNING x.on c).setB R.DCO_C_STAT_PEND x.pend.isSome c).setB R.DCO_C_STAT_CUR
    (x.cur.isSome || x.incoming.isSome) c
  let s := ((s.setB R.DCO_C_STAT_MESHBUSY x.load.isSome c).setB R.DCO_C_CSTAT_BUSY x.copy.isSome c).setB R.DCO_C_DCS_STAT_BUSY
    x.dcs.isSome c
  s.set R.DCO_STAT_ON (putBit (s.get R.DCO_STAT_ON) c x.on)

def State.dcoUpd (s : State) (c : Nat) (f : DcoCh → DcoCh) : State := s.dcoPut c (f (s.dcoCh c))

/-- The link of a channel goes to a state. -/
def State.dcoLink (s : State) (c l : Nat) : State :=
  if (s.dcoCh c).link = l then s else (s.dcoUpd c fun x => { x with link := l }).emit (.pin (if c = 0 then "DSI0" else "DSI1") l)

/-- The channel whose EPOCH, PERIOD and LEAD a channel follows (R363). -/
def State.dcoRef (s : State) (c : Nat) : Nat := if s.flag R.DCO_CTL_GENLOCK then 0 else c

def State.dcoPeriod (s : State) (c : Nat) : Nat :=
  s.get R.DCO_C_PERIOD_INT (s.dcoRef c) * 2 ^ 16 + s.get R.DCO_C_PERIOD_FRAC (s.dcoRef c)

/-- Epoch of frame n (R361). -/
def State.dcoEpoch (s : State) (c n : Nat) : Nat := s.get R.DCO_C_EPOCH_EPOCH (s.dcoRef c) + n * s.dcoPeriod c / 2 ^ 16

/-- Lowest frame whose epoch is at or after a TBASE (R362). -/
def State.dcoFrom (s : State) (c t : Nat) : Nat :=
  let e := s.get R.DCO_C_EPOCH_EPOCH (s.dcoRef c)
  if t ≤ e || s.dcoPeriod c = 0 then 0 else ((t - e) * 2 ^ 16 + s.dcoPeriod c - 1) / s.dcoPeriod c

def State.dcoLead (s : State) (c : Nat) : Nat := s.get R.DCO_C_LEAD_LEAD (s.dcoRef c)

/-- Sizes: pixels of a line, lines of a frame, DIV. -/
def State.dcoH (s : State) (c : Nat) : Nat :=
  s.get R.DCO_C_HTIM0_HSA c + s.get R.DCO_C_HTIM1_HBP c + s.get R.DCO_C_HTIM0_HACT c + s.get R.DCO_C_HTIM1_HFP c
def State.dcoV (s : State) (c : Nat) : Nat :=
  s.get R.DCO_C_VTIM0_VSA c + s.get R.DCO_C_VTIM1_VBP c + s.get R.DCO_C_VTIM0_VACT c + s.get R.DCO_C_VTIM1_VFPMIN c
def State.dcoHact (s : State) (c : Nat) : Nat := s.get R.DCO_C_HTIM0_HACT c
def State.dcoVact (s : State) (c : Nat) : Nat := s.get R.DCO_C_VTIM0_VACT c

/-! ## Enabling (R359, R364) -/

/-- Byte i of the PPS. -/
def State.pps (s : State) (c i : Nat) : Nat := bitsOf (s.get R.DCO_C_PPS_BYTES c (i / 4)) (i % 4 * 8) 8

/-- A big-endian 16-bit item of the PPS (log entry 34). -/
def State.pps16 (s : State) (c i : Nat) : Nat := s.pps c i * 256 + s.pps c (i + 1)

/-- PPS bits_per_pixel in sixteenths. -/
def State.ppsBpp (s : State) (c : Nat) : Nat := s.pps c 4 % 4 * 256 + s.pps c 5

/-- The PPS meets R358 and the picture size is the active area. -/
def State.dscOk (s : State) (c : Nat) : Bool :=
  let bpc := s.pps c 3 / 16
  let hs := s.dcoHact c
  let vs := s.dcoVact c
  let sh := s.pps16 c 10
  let sw := s.pps16 c 12
  s.pps16 c 6 == vs && s.pps16 c 8 == hs && s.pps c 88 % 4 == 0
    && (bpc == 8 && s.ppsBpp c ≤ 192 || bpc == 10 && s.ppsBpp c ≤ 240) && s.ppsBpp c ≥ 128
    && [1, 2, 4].any (fun k => sw * k == hs) && sh ≥ 8 && vs % sh == 0

/-- Bits of a pixel, in sixteenths. -/
def State.dcoBpp (s : State) (c : Nat) : Nat :=
  if s.flag R.DCO_C_OUT_DSC c then s.ppsBpp c else if s.get R.DCO_C_OUT_PIXFMT c = 0 then 384 else 480

/-- Raw link rate in units of 10 Mb/s, times 7. -/
def State.dcoRate7 (s : State) (c : Nat) : Nat :=
  let w := s.get R.DCO_C_PHY_WIDTH c
  if s.flag R.DCO_C_PHY_TYPE c then (w + 1) * s.get R.DCO_C_PHY_RATE c * 16 else 2 ^ w * s.get R.DCO_C_PHY_RATE c * 7

/-- The mesh that covers the channel's next frame. -/
def DcoCh.meshNext (x : DcoCh) : Option DcoMesh := x.meshNew <|> x.mesh

def DcoMesh.covers (m : DcoMesh) (hact vact : Nat) : Bool :=
  (m.gw - 1) * m.cell ≥ hact && (m.gh - 1) * m.cell ≥ vact && m.gw * m.gh ≤ 5461

/-- The first failing check of an enable, 0 when none fails (R364). The pixel clock is 4,800 MHz × 65,536 / DIV. -/
def State.dcoCheck (s : State) (c : Nat) : Nat :=
  let div := s.get R.DCO_C_PXDIV_DIV c
  let hs := s.dcoHact c
  let vs := s.dcoVact c
  let dsc := s.flag R.DCO_C_OUT_DSC c
  let int := s.get R.DCO_C_PERIOD_INT (s.dcoRef c)
  let lead := s.dcoLead c
  let porch := [R.DCO_C_HTIM0_HSA, R.DCO_C_HTIM1_HBP, R.DCO_C_HTIM1_HFP, R.DCO_C_VTIM0_VSA, R.DCO_C_VTIM1_VBP, R.DCO_C_VTIM1_VFPMIN]
  if !(64 ≤ hs && hs ≤ 2048 && 64 ≤ vs && vs ≤ 2048) || 4800 * 65536 > (if dsc then 700 else 400) * div
      || porch.any (fun f => s.get f c == 0) then 1
  else if 4800 * 65536 * s.dcoBpp c * 70 > 16 * 9 * 10 * s.dcoRate7 c * div
      || s.get R.DCO_C_PHY_WIDTH c = 3 || s.get R.DCO_C_PHY_RATE c < 8 || s.get R.DCO_C_PHY_RATE c > 250
      || s.get R.DCO_C_OUT_PIXFMT c ≥ 2 then 2
  else if int < 694444 || int > 3333333 then 3
  else if int < 833333 && !bitB (s.get R.BOOT_LICSTAT_EN) 2 then 4
  else if (s.dcoV c + 2) * s.dcoH c * div > s.dcoPeriod c * 48 then 5
  else if lead < 2000 || lead ≥ int then 6
  else if !((s.dcoCh c).meshNext.any fun m => m.covers hs vs) then 7
  else if dsc && !s.dscOk c then 8
  else if s.get R.DCO_C_PASID_PASID c = 0 then 9
  else 0

/-! ## Releases (R369) -/

/-- The release of a commit; a REL that fails R250 by then takes no signal. -/
def State.dcoRelease (s : State) (k : DcoCommit) (code : Nat) : State :=
  let s := s.satTake k.wait
  if k.relen && s.objCheck 0 k.rel = 0 then s.synPlain k.rel k.rval code else s

def State.dcoReleaseAll (s : State) (l : List (Option DcoCommit)) (code : Nat) : State :=
  l.foldl (fun s k => match k with | some k => s.dcoRelease k code | none => s) s

/-- The channel stops (R384): its commits are released and its link idles. -/
def State.dcoStop (s : State) (c : Nat) : State :=
  let x := s.dcoCh c
  let s := (s.dcoReleaseAll [x.pend] 0x8001).dcoReleaseAll [x.cur, x.incoming] 0
  let s := s.dcoPut c { x with
    on := false, stopping := false, pend := none, cur := none, incoming := none, run := none, before := 0, scan := [],
    tdown := false, off := false, next := if s.flag R.DCO_C_CTL_EN c then x.next else none }
  s.dcoLink c (if s.flag R.DCO_C_CTL_ULPS c then 2 else 0)

/-- EN goes from 0 to 1 (R362, R364). -/
def State.dcoEnable (s : State) (c : Nat) : State :=
  match s.dcoCheck c with
  | 0 =>
    let n := s.dcoFrom c (s.tb + 10000)
    let s := s.setB R.DCO_C_CTL_EN true c
    let s := { s with dtu := { s.dtu with pasid := Cells.put s.dtu.pasid (64 + c) (s.get R.DCO_C_PASID_PASID c) } }
    s.dcoUpd c fun x => { x with next := some n, latch := max n (s.dcoFrom c (s.tb + s.dcoLead c)), tdown := false, off := false }
  | e => s.set R.DCO_C_STAT_CFGERR e c

/-- EN goes from 1 to 0 (R384). -/
def State.dcoDisable (s : State) (c : Nat) : State :=
  let s := s.setB R.DCO_C_CTL_EN false c
  if (s.dcoCh c).on then s.dcoUpd c fun x => { x with stopping := true } else s.dcoStop c

/-- A write of DCO_Cc_CTL, live. -/
def State.dcoCtl (s : State) (c val : Nat) : State :=
  let s := ((s.set R.DCO_C_CTL_DLEN (bitsOf val 30 1) c).set R.DCO_C_CTL_ULPS (bitsOf val 29 1) c).set R.DCO_C_CTL_IRQ (bitsOf val 26 3) c
  match s.flag R.DCO_C_CTL_EN c, bitB val 31 with
  | false, true => s.dcoEnable c
  | true, false => s.dcoDisable c
  | _, _ => s

def State.dcoCtlWrite (s : State) (m : Master) (c : Nat) (en dlen ulps : Bool) (irq : Nat) : State :=
  let val := b2n en * 2 ^ 31 + b2n dlen * 2 ^ 30 + b2n ulps * 2 ^ 29 + irq * 2 ^ 26
  s.ownerWrite m (0xA01000 + 0x1000 * c) val false fun s => s.dcoCtl c val

def execDcoChannelEnable (m : Master) (c : Fin 2) (dlen ulps : Bool) (irq : BitVec 3) (s : State) : Host.Outcome State Fault Refusal :=
  .next (s.dcoCtlWrite m c true dlen ulps irq.toNat)

def execDcoChannelDisable (m : Master) (c : Fin 2) (dlen ulps : Bool) (irq : BitVec 3) (s : State) : Host.Outcome State Fault Refusal :=
  .next (s.dcoCtlWrite m c false dlen ulps irq.toNat)

/-- The last VFPMIN line of the frame ends. -/
def execDcoChannelStop (c : Fin 2) (s : State) : Host.Outcome State Fault Refusal :=
  .next (if (s.dcoCh c).on && (s.dcoCh c).stopping then s.dcoStop c else s)

/-! ## Commits (R365 to R368) -/

/-- A layer entry at an offset of a descriptor. -/
def dcoLayer (b : List Nat) (o : Nat) : DcoLayer :=
  let w := fieldOf b (o + 8) 4
  { base := fieldOf b o 8, fmt := bitsOf w 0 8, linear := bitB w 8, reproj := bitB w 9, straight := bitB w 10, opaque_ := bitB w 11,
    galpha := bitsOf w 16 8, pitch := fieldOf b (o + 0xC) 4, w := fieldOf b (o + 0x10) 2, h := fieldOf b (o + 0x12) 2,
    proj := (List.range 4).map fun i => fieldOf b (o + 0x14 + 4 * i) 4 }

/-- Layers present. -/
def dcoMask (b : List Nat) : List Nat := (List.range 4).filter fun i => bitB (fieldOf b 4 4) (4 + i)

/-- A layer entry meets R366. -/
def DcoLayer.ok (l : DcoLayer) : Bool :=
  l.base != 0 && [0x04, 0x05, 0x06, 0x07, 0x0B].contains l.fmt && (if l.linear then l.pitch % 128 == 0 else l.pitch == 0)
    && 1 ≤ l.w && l.w ≤ 8192 && 1 ≤ l.h && l.h ≤ 8192

/-- A reserved bit of a descriptor is set. -/
def dcoReserved (b : List Nat) : Bool :=
  fieldOf b 4 4 ≥ 256 || (List.range 4).any fun i =>
    let o := 0x40 + 64 * i
    let w := fieldOf b (o + 8) 4
    bitsOf w 12 4 != 0 || bitsOf w 24 8 != 0 || ((b.drop (o + 0x24)).take 0x1C).any (· != 0)

def dcoCommit (b : List Nat) : DcoCommit :=
  let w := fieldOf b 4 4
  { acqen := bitB w 0, relen := bitB w 1, fben := bitB w 2, tgten := bitB w 3, rel := fieldOf b 0x10 4, rval := fieldOf b 0x18 8,
    target := fieldOf b 0x20 4, fb := fieldOf b 0x28 8, rq := (List.range 4).map fun i => fieldOf b (0x30 + 4 * i) 4,
    layers := (dcoMask b).map fun i => (i, dcoLayer b (0x40 + 64 * i)) }

/-- A write of DCO_Cc_COMMIT, live (R367). -/
def State.dcoSubmit (s : State) (c dpa : Nat) : State :=
  let s := s.set R.DCO_C_COMMIT_DPA dpa c
  if (s.dcoCh c).copy.isSome then (s.set R.DCO_C_CSTAT_REJ 1 c).set R.DCO_C_CSTAT_REASON 4 c
  else s.dcoUpd c fun x => { x with copy := some (dpa * 64) }

def execDcoCommitSubmit (m : Master) (c : Fin 2) (dpa : BitVec 38) (s : State) : Host.Outcome State Fault Refusal :=
  .next (s.ownerWrite m (0xA01044 + 0x1000 * c.val) (dpa.toNat * 64) true fun s => s.dcoSubmit c dpa.toNat)

/-- A handle passes R250: here by its record, on another die by what that die answers (`far`). -/
def State.dcoHandle (s : State) (h : Nat) (far : Bool) : Bool := s.objCheck 0 h == 0 && (hDie h == s.die || far)

/-- The copied descriptor is checked (R367, R368). -/
def State.dcoAccept (s : State) (c : Nat) (b : List Nat) (acqFar relFar : Bool) : State :=
  let k := dcoCommit b
  let acq := fieldOf b 0 4
  let relOk := s.dcoHandle k.rel relFar
  let reason :=
    if k.acqen && !s.dcoHandle acq acqFar || k.relen && !relOk then 1
    else if !k.layers.all (fun l => l.2.ok) then 2
    else if dcoReserved b then 3 else 0
  if reason ≠ 0 then
    let s := (s.set R.DCO_C_CSTAT_REJ 1 c).set R.DCO_C_CSTAT_REASON reason c
    if k.relen && relOk then s.synPlain k.rel k.rval 7 else s
  else
    let s := match (s.dcoCh c).pend with
      | some old => (s.dcoRelease old 0x8001).incSat R.DCO_C_CSTAT_SUPCNT c
      | none => s
    let id := 2 ^ 62 + s.dco.seq
    let s := { s with dco := { s.dco with seq := s.dco.seq + 1 } }
    let s := s.dcoUpd c fun x => { x with pend := some { k with wait := id } }
    if k.acqen then s.synWait acq (fieldOf b 8 8) id else s

/-- The descriptor has been copied. `ext`: its bytes where it lies on another die. -/
def execDcoCommitCheck (c : Fin 2) (acqFar relFar : Bool) (ext : List Byte) (s : State) : Host.Outcome State Fault Refusal :=
  .next (match (s.dcoCh c).copy with
    | none => s
    | some dpa =>
      let r := s.vaRead .dco (s.dpaLoc dpa) 320 0 (64 + c.val) (ext.map BitVec.toNat)
      (r.1.dcoUpd c fun x => { x with copy := none }).dcoAccept c r.2.1 acqFar relFar)

/-! ## Records (R380, R381) -/

def State.dcoRecord (s : State) (c cause n aux d0hi d1 : Nat) : State :=
  s.fault { cls := 6, cause, src := 0x40 + c, aux, d0 := n % 2 ^ 32 + d0hi % 2 ^ 32 * 2 ^ 32, d1 }

/-- Frame n misses. -/
def State.dcoMiss (s : State) (c n cause aux : Nat) : State :=
  let x := s.dcoCh c
  let s := ((s.incSat R.DCO_C_MISS_COUNT c).set R.DCO_C_LASTMISS_FRAME n c).set R.DCO_C_STAT_LASTCAUSE cause c
  let s := if x.before = cause then s else s.dcoRecord c cause n aux 0 0
  let s := s.dcoPut c { x with before := cause, run := some (match x.run with | some (f, k) => (f, k + 1) | none => (n, 1)) }
  s.vectorIf (bitB (s.get R.DCO_C_CTL_IRQ c) 1) (9 + 3 * c)

/-- The frame being sent has a scan fault. -/
def State.dcoScan (s : State) (c n cause : Nat) : State :=
  let x := s.dcoCh c
  if x.scan.contains cause then s
  else
    let s := (s.incSat R.DCO_C_SCANF_COUNT c).dcoRecord c cause n 0 0 0
    let s := s.dcoPut c { x with scan := x.scan ++ [cause] }
    s.vectorIf (bitB (s.get R.DCO_C_CTL_IRQ c) 0) (10 + 3 * c)

/-- A frame latches a commit: it closes a run of misses. -/
def State.dcoRecover (s : State) (c n : Nat) : State :=
  let x := s.dcoCh c
  let s := match x.run with
    | some (f, k) => s.dcoRecord c 0x1F n 0 f k
    | none => s
  s.dcoPut c { x with run := none, before := 0 }

/-! ## The pose (R371, R372) -/

/-- What the reads of a latch gave: frame flags, quaternion as FP32 (none: the identity), timestamp. -/
structure PoseUse where
  flags : Nat
  q : Option (List Nat)
  ts : Nat
  deriving DecidableEq, Repr

/-- One read of the pose line: this die's own, or what the chain brought (none: it failed). -/
def State.poseLine (s : State) (far : Option (List Nat)) : State × Option (List Nat) :=
  let l := s.dpaLoc (s.get R.DCO_POSE_ADDR_ADDR * 64)
  match l, s.locStatus l with
  | .loc _, .ok =>
    let r := s.vaRead .dco l 64 0 0xFF []
    (r.1, if r.2.2 = .ok then some r.2.1 else none)
  | .remote _, .ok => (s, far)
  | _, _ => (s, none)

/-- Up to four reads; a read that fails ends them. `far`: the lines that come back from another die. -/
def State.poseTry (s : State) : Nat → List (Option (List Nat)) → State × Option (List Nat)
  | 0, _ => (s, none)
  | n + 1, far =>
    match s.poseLine (far.headD none) with
    | (s, none) => (s, none)
    | (s, some b) => if fieldOf b 0 4 = fieldOf b 0x3C 4 then (s, some b) else s.poseTry n far.tail

def State.dcoPose (s : State) (far : List (Option (List Nat))) : State × PoseUse :=
  match s.poseTry 4 far with
  | (s, none) =>
    let s := s.incSat R.DCO_POSE_FAIL_COUNT
    match s.dco.pose with
    | some (q, ts) => (s, { flags := 2, q := some q, ts })
    | none =>
      let (a, s) := s.free 32
      let (b, s) := s.free 32
      let (c, s) := s.free 32
      let (d, s) := s.free 32
      let (t, s) := s.free 64
      (s, { flags := 2, q := some [a, b, c, d], ts := t })
  | (s, some b) =>
    if fieldOf b 0 4 = 0 then
      let (t, s) := s.free 64
      ({ s with dco := { s.dco with pose := some ([0x3F800000, 0, 0, 0], t) } }, { flags := 4, q := none, ts := t })
    else
      let q := (List.range 4).map fun i => fieldOf b (0x10 + 4 * i) 4
      let ts := fieldOf b 8 8
      ({ s with dco := { s.dco with pose := some (q, ts) } },
        { flags := b2n (ts + s.get R.DCO_POSE_CFG_MAXAGE < s.tb), q := some q, ts })

/-! ## Rotations (R374) -/

/-- A quaternion as exact values. -/
structure Quat where
  w : Rat
  x : Rat
  y : Rat
  z : Rat

def Quat.of (key : List Nat) (l : List Nat) : Quat :=
  let r := fun (i : Nat) => coordRat (20 :: i :: key) (l.getD i 0)
  ⟨r 0, r 1, r 2, r 3⟩

def Quat.conj (q : Quat) : Quat := ⟨q.w, -q.x, -q.y, -q.z⟩
def Quat.mul (a b : Quat) : Quat :=
  ⟨a.w * b.w - a.x * b.x - a.y * b.y - a.z * b.z, a.w * b.x + a.x * b.w + a.y * b.z - a.z * b.y,
   a.w * b.y - a.x * b.z + a.y * b.w + a.z * b.x, a.w * b.z + a.x * b.y - a.y * b.x + a.z * b.w⟩
def Quat.norm2 (q : Quat) : Rat := q.w * q.w + q.x * q.x + q.y * q.y + q.z * q.z

/-- The matrix of a unit quaternion, row by row, of a quaternion whose square length is n times that. -/
def Quat.matrix (q : Quat) (n : Rat) : List Rat :=
  let t := fun (r : Rat) => 2 * r / n
  [1 - t (q.y * q.y + q.z * q.z), t (q.x * q.y - q.w * q.z), t (q.x * q.z + q.w * q.y),
   t (q.x * q.y + q.w * q.z), 1 - t (q.x * q.x + q.z * q.z), t (q.y * q.z - q.w * q.x),
   t (q.x * q.z - q.w * q.y), t (q.y * q.z + q.w * q.x), 1 - t (q.x * q.x + q.y * q.y)]

def identMat : List Nat := [0x3F800000, 0, 0, 0, 0x3F800000, 0, 0, 0, 0x3F800000]

/-- The matrix of a layer: of conj(e) · conj(q_r) · q_l · e with q_l normalised (log entry 31 for the rounding). -/
def dcoMat (e qr : List Nat) (ql : Option (List Nat)) : List Nat :=
  let key := e ++ qr ++ ql.getD []
  let l := match ql with | some l => Quat.of (0 :: key) l | none => ⟨1, 0, 0, 0⟩
  let ee := Quat.of (1 :: key) e
  if l.norm2 = 0 then (List.range 9).map fun i => (Config.fixedBits 32 (21 :: i :: key)).toNat
  else ((ee.conj.mul (((Quat.of (2 :: key) qr).conj).mul l)).mul ee |>.matrix l.norm2).zipIdx.map fun p => f32Open (22 :: p.2 :: key) p.1

/-- The matrices of the layers of the commit to show at the next frame. -/
def State.dcoMats (s : State) (c : Nat) (k : Option DcoCommit) (ql : Option (List Nat)) : List (Nat × List Nat) :=
  match k with
  | none => []
  | some k => k.layers.map fun l => (l.1, if l.2.reproj then dcoMat ((List.range 4).map fun i => s.get R.DCO_C_EYEQ_FP32 c i) k.rq ql
      else identMat)

/-! ## The latch (R378, R379) -/

/-- What the monitor finds for a channel at the latch of frame n. -/
inductive DcoFind where
  | noCommit | notReady | content (err : Nat) | ready
  deriving DecidableEq, Repr

def State.dcoFind (s : State) (c n : Nat) : DcoFind :=
  match (s.dcoCh c).pend with
  | none => .noCommit
  | some k =>
    if k.tgten && k.target > n % 2 ^ 32 then .noCommit
    else if !k.acqen then .ready
    else match s.satOf k.wait with
      | none => .notReady
      | some (e, true) => .content e
      | some (_, false) => .ready

/-- The decision for one channel. `pair`: the other channel does not latch, and PAIR holds this one back. -/
def State.dcoDecide (s : State) (c n : Nat) (pair : Bool) : State :=
  let x := s.dcoCh c
  let dlen := s.flag R.DCO_C_CTL_DLEN c
  let miss := fun (cause : Nat) => if dlen then s.dcoMiss c n cause 0 else s.dcoPut c { x with before := 0 }
  match s.dcoFind c n with
  | .noCommit => miss 0x10
  | .notReady => miss 0x11
  | .content e =>
    let s := s.dcoReleaseAll [x.pend] 0
    (s.dcoUpd c fun x => { x with pend := none }).dcoMiss c n 0x12 e
  | .ready =>
    if pair then s.dcoMiss c n 0x13 0
    else
      let s := match x.pend with | some k => s.satTake k.wait | none => s
      let s := s.dcoReleaseAll [x.incoming] 0
      let s := (s.dcoUpd c fun x => { x with incoming := x.pend, pend := none }).dcoRecover c n
      s.vectorIf (bitB (s.get R.DCO_C_CTL_IRQ c) 2) (8 + 3 * c)

/-- Channels that latch together (R363): those of a genlocked pair with the same next latch. -/
def State.dcoTogether (s : State) (c : Nat) : List Nat :=
  if s.flag R.DCO_CTL_GENLOCK && (s.dcoCh (1 - c)).next.isSome && (s.dcoCh (1 - c)).latch = (s.dcoCh c).latch then [0, 1] else [c]

/-- The latch point of a channel's next frame. A later latch point passed over by a step of TBASE takes its place (R504). -/
def State.dcoLatch (s : State) (c : Nat) (far : List (Option (List Nat))) : State :=
  let x := s.dcoCh c
  match x.next with
  | none => s
  | some first =>
    let n := max (max x.latch first) (s.dcoFrom c (s.tb + s.dcoLead c + 1) - 1)
    if s.dcoEpoch c n > s.tb + s.dcoLead c then s
    else
      let cs := s.dcoTogether c
      let s := s.sinAcquire true
      let r := s.dcoPose far
      let ok := cs.map fun c => r.1.dcoFind c n == .ready
      let pair := r.1.flag R.DCO_CTL_PAIR && r.1.flag R.DCO_CTL_GENLOCK && (cs.length ≠ 2 || ok.contains false)
      let s := cs.foldl (fun s c => s.dcoDecide c n pair) r.1
      cs.foldl (fun s c => s.dcoUpd c fun x =>
        let k := x.incoming <|> x.cur
        { x with latch := n + 1, shot := { flags := r.2.flags, tb := s.tb, ts := r.2.ts, mats := s.dcoMats c k r.2.q } }) s

/-- A latch point. `far`: what up to four reads of a pose line on another die bring. -/
def execDcoLatch (c : Fin 2) (far : List (Option (List Byte))) (s : State) : Host.Outcome State Fault Refusal :=
  .next (s.dcoLatch c (far.map fun l => l.map fun b => b.map BitVec.toNat))

/-! ## Meshes (R373) -/

def meshCell (v : Nat) : Nat := match v with | 0 => 16 | 1 => 32 | _ => 64

/-- A write of DCO_Cc_MESH_CFG, live. LOAD = 1 while a load runs starts none (log entry 35). -/
def State.dcoMeshCfg (s : State) (c val : Nat) : State :=
  let s := s.putReg R.DCO_C_MESH_CFG c 0 val
  if bitB val 31 && (s.dcoCh c).load.isNone then
    s.dcoUpd c fun x => { x with load := some (s.get R.DCO_C_MESH_ADDR_DPA c * 64, bitsOf val 0 12, bitsOf val 12 12, meshCell (bitsOf val 24 2)) }
  else s

def execDcoMeshLoad (m : Master) (c : Fin 2) (cell : BitVec 2) (gh gw : BitVec 12) (s : State) : Host.Outcome State Fault Refusal :=
  let val := 2 ^ 31 + cell.toNat * 2 ^ 24 + gh.toNat * 2 ^ 12 + gw.toNat
  .next (s.ownerWrite m (0xA01078 + 0x1000 * c.val) val false fun s => s.dcoMeshCfg c val)

/-- The load ends. `ext`: the bytes of a mesh on another die. -/
def execDcoMeshLoadDone (c : Fin 2) (ext : List Byte) (s : State) : Host.Outcome State Fault Refusal :=
  .next (match (s.dcoCh c).load with
    | none => s
    | some (a, gw, gh, cell) =>
      let r := s.vaRead .dco (s.dpaLoc a) (24 * gw * gh) 0 (64 + c.val) (ext.map BitVec.toNat)
      let m : DcoMesh := { gw, gh, cell, v := groupsOf (6 * gw * gh) 4 r.2.1 }
      let ok := m.covers (s.dcoHact c) (s.dcoVact c)
      (if ok then r.1 else s).setB R.DCO_C_MESH_CFG_MERR (!ok) c |>.dcoUpd c fun x =>
        { x with load := none, meshNew := if ok then some m else x.meshNew })

/-! ## Composition (R373 to R376) -/

/-- The tangent-plane direction of a colour at a pixel, as FP32. -/
def DcoMesh.dir (m : DcoMesh) (x y col : Nat) : Nat × Nat :=
  let i := x / m.cell
  let j := y / m.cell
  let u : Rat := mkRat (2 * (x % m.cell) + 1) (2 * m.cell)
  let v : Rat := mkRat (2 * (y % m.cell) + 1) (2 * m.cell)
  let at_ := fun (i j k : Nat) => m.v.getD ((j * m.gw + i) * 6 + 2 * col + k) 0
  let one := fun (k : Nat) => filterCh [23, k]
    [((1 - u) * (1 - v), at_ i j k), (u * (1 - v), at_ (i + 1) j k), ((1 - u) * v, at_ i (j + 1) k), (u * v, at_ (i + 1) (j + 1) k)]
  (one 0, one 1)

/-- Texel coordinates in units of 1/256 of a layer at a direction; none: transparent. -/
def DcoLayer.coord (l : DcoLayer) (m : List Nat) (t : Nat × Nat) : Option (Int × Int) :=
  let key := m ++ [t.1, t.2] ++ l.proj
  let r := fun (i c : Nat) => coordRat (24 :: i :: key) c
  let d := fun (i : Nat) => coordRat (25 :: key) (f32Open (26 :: i :: key)
    (r i (m.getD (3 * i) 0) * r 9 t.1 + r i (m.getD (3 * i + 1) 0) * r 10 t.2 + r i (m.getD (3 * i + 2) 0)))
  if d 2 ≤ 0 then none
  else
    let s := fun (i : Nat) => ratRne (256 * coordRat (27 :: key)
      (f32Open (28 :: i :: key) (r 11 (l.proj.getD i 0) * d i / d 2 + r 12 (l.proj.getD (2 + i) 0))))
    let a := s 0
    let b := s 1
    if 0 ≤ a && a ≤ l.w * 256 && 0 ≤ b && b ≤ l.h * 256 then some (a, b) else none

/-- The four nearest texels of a coordinate and their weights. -/
def DcoLayer.texels (l : DcoLayer) (p : Int × Int) : List (Rat × Nat × Nat) :=
  let ax := fun (n : Nat) (a : Int) =>
    let f := a - 128
    let cl := fun (i : Int) => (max 0 (min ((n : Int) - 1) i)).toNat
    let x : Rat := mkRat (f % 256) 256
    [(1 - x, cl (f / 256)), (x, cl (f / 256 + 1))]
  (ax l.h p.2).flatMap fun b => (ax l.w p.1).map fun a => (a.1 * b.1, a.2, b.2)

/-- VA of a texel. -/
def DcoLayer.texVa (l : DcoLayer) (x y : Nat) : Nat :=
  let b := fmtBytes l.fmt
  (l.base + (if l.linear then y * l.pitch + x * b else blockLinear b l.w x y)) % 2 ^ 64

/-- The places of a layer that a pixel's colours sample. -/
def dcoPlaces (mesh : DcoMesh) (l : DcoLayer) (m : List Nat) (x y : Nat) : List (Option (Int × Int)) :=
  (List.range 3).map fun col => l.coord m (mesh.dir x y col)

/-- Pixels of the active area, in raster order. -/
def dcoGrid (hact vact : Nat) : List (Nat × Nat) := (List.range vact).flatMap fun y => (List.range hact).map fun x => (x, y)

/-- The 128-byte lines of a layer that a frame reads, in the order of first use. -/
def dcoLines (mesh : DcoMesh) (l : DcoLayer) (m : List Nat) (hact vact : Nat) : List Nat :=
  ((dcoGrid hact vact).foldl (fun (acc : List Nat) p =>
    ((dcoPlaces mesh l m p.1 p.2).filterMap id).foldl (fun acc q => (l.texels q).foldl (fun (acc : List Nat) t =>
      let a := l.texVa t.2.1 t.2.2 / 128 * 128
      if acc.contains a then acc else a :: acc) acc) acc) []).reverse

/-- What reading a layer's lines came to: its bytes by VA, whether it is missing, and whether poisoned data was read. -/
structure DcoFetch where
  bytes : List (Nat × List Nat) := []
  missing : Bool := false
  poison : Bool := false

/-- Read one line of a layer. A translation that has not come yet leaves the line to what arrives later (`ext`). -/
def State.dcoLine (s : State) (c i va : Nat) (ext : List Host.Cell) (f : DcoFetch) : State × DcoFetch :=
  if f.missing then (s, f)
  else
    let far := bytesAt 0 ext va 128
    match s.vaNow [14, c, i, va / 4096] (64 + c) va .dcoRead with
    | (s, none) => (s, { f with bytes := f.bytes ++ [(va, far)] })
    | (s, some (.err _)) => (s, { f with missing := true })
    | (s, some o) =>
      let r := s.vaRead .dco (s.outLoc o) 128 0 (64 + c) far
      (r.1, { f with bytes := f.bytes ++ [(va, r.2.1)], poison := f.poison || r.2.2 != .ok })

def State.dcoFetch (s : State) (c i : Nat) (lines : List Nat) (ext : List Host.Cell) : State × DcoFetch :=
  lines.foldl (fun (r : State × DcoFetch) va => r.1.dcoLine c i va ext r.2) (s, {})

/-- Value and alpha of a layer's colour at a place. -/
def DcoLayer.sample (l : DcoLayer) (f : DcoFetch) (col : Nat) (p : Int × Int) : Nat × Nat :=
  let el := fun (t : Rat × Nat × Nat) =>
    let va := l.texVa t.2.1 t.2.2
    ofBytes ((((f.bytes.lookup (va / 128 * 128)).getD []).drop (va % 128)).take (fmtBytes l.fmt))
  let ch := fun (k : Nat) => filterCh [29, k] ((l.texels p).map fun t => (t.1, elemCh l.fmt (el t) k))
  (ch col, ch 3)

/-- A layer over what lies below, as FP32 (R376; log entries 31 and 36). -/
def DcoLayer.blendOver (l : DcoLayer) (src alpha below : Nat) : Nat :=
  let key := [src, alpha, below, l.galpha]
  let r := fun (c : Nat) => coordRat (30 :: key) c
  let g : Rat := mkRat l.galpha 255
  let a : Rat := if l.opaque_ then 1 else r alpha * g
  f32Open (31 :: b2n l.straight :: b2n l.opaque_ :: key) ((if l.straight then r src * a else r src * g) + r below * (1 - a))

/-- An FP32 colour as an output code of w bits. -/
def dcoEncode (srgb : Bool) (w c : Nat) : Nat :=
  let v := toF (fromF c).sat
  if srgb then (if w = 8 then (Config.linearToSrgb (BitVec.ofNat 32 v)).toNat else (Config.fixedBits w [32, v]).toNat)
  else fUnormCode w v
where
  /-- UNORM code of an FP32 value. -/
  fUnormCode (w v : Nat) : Nat := (fScaled (2 ^ w - 1) 0 (2 ^ w - 1) v).toNat

/-- One colour of one pixel: the layers that contribute, lowest first, over the background code. -/
def dcoColour (srgb : Bool) (w bg col : Nat) (ls : List (DcoLayer × DcoFetch × Option (Int × Int))) : Nat :=
  match ls.filterMap fun l => l.2.2.map fun p => (l.1, l.1.sample l.2.1 col p) with
  | [] => bg
  | xs => dcoEncode srgb w (xs.foldl (fun below x => x.1.blendOver x.2.1 x.2.2 below) (fUnorm w bg))

/-- The active pixels of a frame. -/
def dcoPixels (mesh : Option DcoMesh) (hact vact : Nat) (srgb : Bool) (w : Nat) (bg : List Nat)
    (ls : List (DcoLayer × List Nat × DcoFetch)) : List (List Nat) :=
  (dcoGrid hact vact).map fun p =>
    let at_ := ls.map fun l => (l.1, l.2.2, match mesh with | some m => dcoPlaces m l.1 l.2.1 p.1 p.2 | none => [])
    (List.range 3).map fun col => dcoColour srgb w (bg.getD col 0) col (at_.map fun l => (l.1, l.2.1, (l.2.2[col]?).join))

/-! ## A frame starts (R361, R369, R370, R504) -/

/-- The feedback record of a commit's first frame. -/
def State.dcoFeedback (s : State) (k : DcoCommit) (shot : DcoShot) (n : Nat) : State :=
  if k.fben then s.sinStore .dco (s.dpaLoc k.fb)
    (toBytes 4 n ++ toBytes 4 shot.flags ++ toBytes 8 shot.tb ++ toBytes 8 s.tb ++ toBytes 8 shot.ts)
  else s

/-- The commits change at a frame's start. -/
def State.dcoSwap (s : State) (c n : Nat) : State :=
  let x := s.dcoCh c
  match x.incoming with
  | none => s
  | some k =>
    let s := s.dcoReleaseAll [x.cur] 0
    (s.dcoPut c { x with cur := some k, incoming := none }).dcoFeedback k x.shot n

/-- A teardown of the channel's PASID takes effect at a frame's start (R384). -/
def State.dcoGone (s : State) (c : Nat) : State :=
  let x := s.dcoCh c
  if x.tdown then
    (s.dcoReleaseAll [x.cur, x.incoming] 6).dcoPut c { x with tdown := false, off := true, cur := none, incoming := none }
  else s

/-- Fetch and compose the frame, and send it. -/
def State.dcoScanOut (s : State) (c n : Nat) (ext : List Host.Cell) : State :=
  let x := s.dcoCh c
  let hs := s.dcoHact c
  let vs := s.dcoVact c
  let ls := if x.off then [] else match x.cur, x.mesh with
    | some k, some m => k.layers.map fun l => let mt := (x.shot.mats.lookup l.1).getD identMat; (l.1, l.2, mt, dcoLines m l.2 mt hs vs)
    | _, _ => []
  let r := ls.foldl (fun (r : State × List (DcoLayer × List Nat × DcoFetch)) l =>
    let q := r.1.dcoFetch c l.1 l.2.2.2 ext
    (q.1, r.2 ++ [(l.2.1, l.2.2.1, q.2)])) (s, [])
  let s := if r.2.any fun l => l.2.2.missing || l.2.2.poison then r.1.dcoScan c n 0x19 else r.1
  let w := if s.get R.DCO_C_OUT_PIXFMT c = 0 then 8 else 10
  let bg := [R.DCO_C_BG_R, R.DCO_C_BG_G, R.DCO_C_BG_B].map fun f => s.get f c / 2 ^ (10 - w)
  s.emit (.frame c n (dcoPixels x.mesh hs vs (s.flag R.DCO_C_OUT_SRGB c) w bg (r.2.filter fun l => !l.2.2.missing)))

/-- The frame of the latest epoch reached starts. `late`: the last VFPMIN line of the frame before ended after that epoch. -/
def State.dcoFrame (s : State) (c : Nat) (late : Bool) (ext : List Host.Cell) : State :=
  let x := s.dcoCh c
  match x.next with
  | none => s
  | some first =>
    let n := max first (s.dcoFrom c (s.tb + 1) - 1)
    if x.stopping || s.dcoEpoch c n > s.tb then s
    else
      let s := s.dcoUpd c fun x => { x with
        on := true, next := some (n + 1), latch := max x.latch (n + 1), scan := [], mesh := x.meshNext, meshNew := none }
      let s := s.set R.DCO_C_FRAME_FRAME n c
      let s := ((s.dcoLink c 1).dcoGone c).dcoSwap c n
      let s := if late || n > first then s.dcoScan c n 0x1A else s
      s.dcoScanOut c n ext

/-- A frame start. `ext`: layer bytes, by VA, that other dies and the host hold. -/
def execDcoFrameStart (c : Fin 2) (late : Bool) (ext : List Host.Cell) (s : State) : Host.Outcome State Fault Refusal :=
  .next (s.dcoFrame c late ext)

/-- Layer data is late at a pixel of an active line (R377). -/
def execDcoUnderflow (c : Fin 2) (line x : BitVec 16) (s : State) : Host.Outcome State Fault Refusal :=
  .next (match (s.dcoCh c).on, (s.dcoCh c).next with
    | true, some n =>
      if line.toNat < s.dcoVact c && x.toNat < s.dcoHact c then
        (s.emit (.lineRepeat c (n - 1) line.toNat x.toNat)).dcoScan c (n - 1) 0x18
      else s
    | _, _ => s)

/-! ## Panel commands (R383) -/

/-- The bytes of the packet that DCS_HDR and DCS_DATA describe. A data type whose low digit is 9 or more is a long write
(log entry 34). -/
def State.dcsPacket (s : State) (c : Nat) : List Nat :=
  let dt := s.get R.DCO_C_DCS_HDR_DT c
  let p := s.get R.DCO_C_DCS_HDR_P1_or_WC c
  if dt % 16 ≥ 9 then
    let n := min p 64
    dt :: toBytes 2 n ++ (((List.range 16).flatMap fun k => toBytes 4 (s.get R.DCO_C_DCS_DATA_DATA c k)).take n)
  else [dt, p, s.get R.DCO_C_DCS_HDR_P2 c]

/-- A write of DCO_Cc_DCS_HDR, live. -/
def State.dcsHdr (s : State) (m : Master) (c val : Nat) : State :=
  if bitB val 31 && (s.dcoCh c).dcs.isSome then s.errMark m
  else
    let s := s.putReg R.DCO_C_DCS_HDR c 0 val
    if !bitB val 31 then s
    else
      let en := s.flag R.DCO_C_CTL_EN c
      if bitB val 30 && en then s.set R.DCO_C_DCS_STAT_ERR 1 c
      else
        let b := s.dcsPacket c
        let s := s.dcoUpd c fun x => { x with dcs := some (if en then b else [], bitB val 30) }
        if en then s else s.emit (.dsi c b)

def execDcsGo (m : Master) (c : Fin 2) (read : Bool) (p2 p1 dt : Byte) (s : State) : Host.Outcome State Fault Refusal :=
  let val := 2 ^ 31 + b2n read * 2 ^ 30 + p2.toNat * 2 ^ 16 + p1.toNat * 2 ^ 8 + dt.toNat
  .next (s.ownerWrite m (0xA01180 + 0x1000 * c.val) val false fun s => s.dcsHdr m c val)

/-- The packet, or the read after it, ends. `err`: contention or a missing acknowledge; `rd`: the bytes the panel returned. -/
def execDcsDone (c : Fin 2) (err : Bool) (rd : List Byte) (s : State) : Host.Outcome State Fault Refusal :=
  .next (match (s.dcoCh c).dcs with
    | none => s
    | some (b, read) =>
      let s := if b = [] then s else s.emit (.dsi c b)
      let s := (s.dcoUpd c fun x => { x with dcs := none }).set R.DCO_C_DCS_STAT_DONE 1 c
      let s := if err then s.set R.DCO_C_DCS_STAT_ERR 1 c else s
      if read && !err then s.set R.DCO_C_DCS_RD_DATA (ofBytes ((rd.take 4).map BitVec.toNat)) c else s)

/-! ## What other units do to the compositor (R277, R384) -/

/-- The PASID is torn down. -/
def State.dcoTeardown (s : State) (pasid : Nat) : State :=
  [0, 1].foldl (fun (s : State) (c : Nat) =>
    if s.get R.DCO_C_PASID_PASID c ≠ pasid then s
    else
      let x := s.dcoCh c
      let s := (s.dcoReleaseAll [x.pend] 6).set R.DCO_C_STAT_TDOWN 1 c
      s.dcoPut c { x with pend := none, tdown := true }) s

/-- Both channels stop at the end of their frames (S2 and S3 entry). -/
def State.dcoHalt (s : State) : State :=
  [0, 1].foldl (fun (s : State) (c : Nat) => if s.flag R.DCO_C_CTL_EN c then s.dcoDisable c else s) s

/-- An ENG reset releases both commits with DEVICE_RESET before it completes. -/
def State.dcoEng (s : State) : State :=
  let s := [0, 1].foldl (fun (s : State) (c : Nat) =>
    let x := s.dcoCh c
    s.dcoReleaseAll [x.pend, x.cur, x.incoming] 8) s
  { s with dco := { s.dco with ch := [], pose := none } }

end Sys2Proof.Machine
end

