-- ==== Sys2Proof/Machine/Pad.lean ====
section
/-!
DEFINITION. The PAD block: pin events and PAD_GCNT (R621, R622), the serial controllers (R623 to R628), hold (R632).
-/

namespace Sys2Proof.Machine

/-! ## Events and PAD_GCNT -/

/-- PAD_GCNT advances by 1 and signals the PAD_GSIG object (R622). -/
def State.padCount (s : State) : State :=
  let s := s.incWrap R.PAD_GCNT_COUNT
  if hGen (s.get R.PAD_GSIG_HANDLE) = 0 then s else s.synPort (s.get R.PAD_GSIG_HANDLE) (s.get R.PAD_GCNT_COUNT) 0

/-- Set IRQSTAT bits at one edge; a bit that goes from 0 to 1 counts (R622). -/
def State.padEvents (s : State) (pins : List Nat) : State :=
  let new := pins.any fun n => !s.pinBit R.PAD_IRQSTAT_EVT n
  let s := pins.foldl (fun s n => s.set R.PAD_IRQSTAT_EVT (putBit (s.get R.PAD_IRQSTAT_EVT (n / 32)) (n % 32) true) (n / 32)) s
  if new then s.padCount else s

/-- The detectors run in S0 and S1 while FAB is on (R631). -/
def State.padDetects (s : State) : Bool := s.domOn 0 && s.get R.PWR_STAT_STATE < 2

/-- A pin in a level mode whose level holds (R621). -/
def State.padLevelOn (s : State) (n : Nat) : Bool :=
  (s.get R.PAD_PIN_IMODE n == 4 && s.padLevel n) || (s.get R.PAD_PIN_IMODE n == 5 && !s.padLevel n)

/-- Level events at a PCLK edge (R621): every pin whose level holds. -/
def State.padLevels (s : State) : State :=
  if s.padDetects then s.padEvents ((List.range 48).filter fun n => s.padLevelOn n) else s

/-- The event a change of pin n from `old` to its present level makes (R621). -/
def State.padEdge (s : State) (n : Nat) (old : Bool) : Bool :=
  match s.get R.PAD_PIN_IMODE n with
  | 1 => !old && s.padLevel n
  | 2 => old && !s.padLevel n
  | 3 => old != s.padLevel n
  | 4 => s.padLevel n
  | 5 => !s.padLevel n
  | _ => false

/-- Pins in `mask` take debounced levels at one PCLK edge. In S1 an event ends S1; in S2 and S3 edges are lost (R631). -/
def State.padChange (s : State) (mask lvls : Nat) : State :=
  let old := fun n => s.padLevel n
  let lvl := (List.range 48).foldl (fun v n => if bitB mask n then putBit v n (bitB lvls n) else v) s.pad.lvl
  let s' := { s with pad := { s.pad with lvl } }
  if !s.padDetects then s'
  else match (List.range 48).filter (fun n => bitB mask n && s'.padEdge n (old n)) with
    | [] => s'
    | l => s'.wakeS1.padEvents l

/-- A debounced level change at one or more pins at one PCLK edge. -/
def execPadPinEvent (pins levels : BitVec 48) (s : State) : Host.Outcome State Fault Refusal :=
  .next (s.padChange pins.toNat levels.toNat)

/-- After a change of what the die drives (PAD_OUT, PAD_OE, PAD_PIN, functions), pins whose level changed make their
events (R621: the detector works under every function). -/
def State.padDriven (s old : State) : State :=
  if !s.padDetects then s
  else match (List.range 48).filter (fun n =>
      (s.padLevel n != old.padLevel n && s.padEdge n (old.padLevel n)) || s.padLevelOn n) with
    | [] => s
    | l => s.padEvents l

/-- Latch the GEN pads at S3 entry (R632, R538). -/
def State.padHold (s : State) : State :=
  let bitsum := fun (f : Nat → Bool) => ((List.range 48).map fun n => b2n (f n) * 2 ^ n).sum
  -- an MCLK output is stopped low before
  let mclk := fun (n : Nat) => n < 4 && s.get R.PAD_PIN_FSEL n == 1
  { s with pad := { s.pad with
    held := some (bitsum fun n => mclk n || (s.padDrive n).isSome, bitsum fun n => !mclk n && (s.padDrive n).getD false) } }

/-! ## Serial controllers -/

/-- The field of serial instance c: 3 is AO_I3C, in the FUM window (R628). -/
def serF (c : Nat) (f : Field) : Field := if c < 3 then { f with off := f.off + 0x100 * c, s1 := 0 } else { f with off := f.off - 0x80000, s1 := 0 }

/-- Offset of an instance's register, given I3C0's. -/
def serOff (c off : Nat) : Nat := if c < 3 then off + 0x100 * c else off - 0x80000

def State.serSt (s : State) (c : Nat) : SerSt := Cells.get {} s.pad.ser c
def State.serPut (s : State) (c : Nat) (x : SerSt) : State := { s with pad := { s.pad with ser := Cells.set {} s.pad.ser c x } }

/-- Byte i of SER_DAT (R625). -/
def State.serByte (s : State) (c i : Nat) : Nat := bitsOf (s.get (serF c R.SER_DAT_DATA) 0 (i / 4)) (8 * (i % 4)) 8

/-- Put a byte into SER_DAT. -/
def State.serPutByte (s : State) (c i b : Nat) : State :=
  let w := s.get (serF c R.SER_DAT_DATA) 0 (i / 4)
  let p := 8 * (i % 4)
  s.set (serF c R.SER_DAT_DATA) (w - bitsOf w p 8 * 2 ^ p + b % 256 * 2 ^ p) 0 (i / 4)

/-- Put bytes into SER_DAT from byte i. -/
def State.serPutBytes (s : State) (c : Nat) : Nat → List Nat → State
  | _, [] => s
  | i, b :: bs => (s.serPutByte c i b).serPutBytes c (i + 1) bs

/-- DONE or IBI goes to 1: PAD_GCNT for instances 0 to 2 (R622), source 8 of the microcontroller for AO_I3C (R628). -/
def State.serRise (s : State) (c : Nat) (f : Field) : State :=
  let was := s.flag (serF c f)
  let s := s.set (serF c f) 1
  if was then s else if c < 3 then s.padCount else s.emit (.irqMcu 8)

/-- An accepted IBI (R626): the record, replacing one that stands, and SER_STAT.IBI. -/
def State.serIbiTake (s : State) (c addr : Nat) (pay : List Nat) : State :=
  let s := (s.set (serF c R.SER_IBI_ADDR) addr).set (serF c R.SER_IBI_PAYLOAD) (ofBytes (pay.take 3))
  s.serRise c R.SER_STAT_IBI

/-- A command ends (R625): RESULT and COUNT, then DONE; IBIs that waited for it are taken. -/
def State.serEnd (s : State) (c result count : Nat) : State :=
  let x := s.serSt c
  let held := match x.cmd with
    | some k => k.nostop && result == 0
    | none => false
  let s := s.serPut c { x with cmd := none, open_ := held, ibis := [] }
  let s := ((s.set (serF c R.SER_STAT_BUSY) 0).set (serF c R.SER_STAT_RESULT) result).set (serF c R.SER_STAT_COUNT) count
  x.ibis.foldl (fun s i => s.serIbiTake c i.1 i.2) (s.serRise c R.SER_STAT_DONE)

/-- EN is cleared or a reset applies during a command (R627): ABORTED at the end of the current byte, whose number is a
free value (log entry 1). -/
def State.serAbort (s : State) (c : Nat) : State :=
  match (s.serSt c).cmd with
  | none => s
  | some k =>
    let (v, s) := s.free 7
    s.serEnd c 3 (v % (k.len + 2))

/-- A write of SER_CMD (R625): GO starts a command while EN = 1 and BUSY = 0, and is dropped otherwise. -/
def State.serGo (s : State) (m : Master) (c : Nat) (k : SerCmd) : State :=
  if !s.flag (serF c R.SER_CTL_EN) || s.flag (serF c R.SER_STAT_BUSY) then s.errMark m
  else
    let x := s.serSt c
    let s := s.serPut c { x with cmd := some k, daa := k.kind == 3 && c != 2 }
    let s := s.set (serF c R.SER_STAT_BUSY) 1
    let data := if k.rd && c != 2 || k.kind = 3 then [] else (List.range (k.len + 1)).map (s.serByte c)
    s.emit (.serial c ((k.kind + 4 * b2n k.nostop + 8 * b2n x.open_ + 16 * b2n x.daa) :: k.addr :: (if k.kind = 1 || k.kind = 2 then [k.ccc] else []) ++ data))

/-- A SER_CMD word's command. -/
def serCmdOf (val : Nat) : SerCmd :=
  { kind := bitsOf val 6 2, rd := bitB val 30, len := bitsOf val 24 6, nostop := bitB val 23, addr := bitsOf val 16 7,
    ccc := bitsOf val 8 8 }

/-- SER_CMD, live: a word without GO starts nothing. -/
def State.serCmdWrite (s : State) (m : Master) (c val : Nat) : State :=
  if bitB val 31 then s.serGo m c (serCmdOf val) else s

/-- A master writes SER_CMD with GO = 1 and a KIND. -/
def State.serStart (s : State) (m : Master) (c kind : Nat) (rd : Bool) (len : Nat) (nostop : Bool) (addr ccc : Nat) : State :=
  let val := 2 ^ 31 + b2n rd * 2 ^ 30 + len * 2 ^ 24 + b2n nostop * 2 ^ 23 + addr * 2 ^ 16 + ccc * 2 ^ 8 + kind * 2 ^ 6
  s.ownerWrite m (serOff c 0x400404) val false fun s => s.serCmdWrite m c val

def execSerPrivateTransfer (m : Master) (inst : Fin 4) (rd : Bool) (len : BitVec 6) (nostop : Bool) (addr : BitVec 7)
    (s : State) : Host.Outcome State Fault Refusal :=
  .next (s.serStart m inst 0 rd len.toNat nostop addr.toNat 0)

def execSerBroadcastCcc (m : Master) (inst : Fin 4) (rd : Bool) (len : BitVec 6) (nostop : Bool) (ccc : BitVec 8)
    (s : State) : Host.Outcome State Fault Refusal :=
  .next (s.serStart m inst 1 rd len.toNat nostop 0 ccc.toNat)

def execSerDirectCcc (m : Master) (inst : Fin 4) (rd : Bool) (len : BitVec 6) (nostop : Bool) (addr : BitVec 7)
    (ccc : BitVec 8) (s : State) : Host.Outcome State Fault Refusal :=
  .next (s.serStart m inst 2 rd len.toNat nostop addr.toNat ccc.toNat)

def execSerEntdaa (m : Master) (inst : Fin 4) (nostop : Bool) (addr : BitVec 7) (s : State) :
    Host.Outcome State Fault Refusal :=
  .next (s.serStart m inst 3 false 0 nostop addr.toNat 0)

/-- The running command ends as its bus has it: the result (OK, NACK or ARBLOST), the bytes moved, the bytes received. -/
def State.serDone (s : State) (c result count : Nat) (data : List Nat) : State :=
  let x := s.serSt c
  match x.cmd with
  | none => s
  | some k =>
    if k.kind = 3 && c ≠ 2 then
      let s := s.serPut c { x with daa := k.nostop && result == 0, dyn := if result = 0 then k.addr :: x.dyn else x.dyn }
      (if result = 0 then s.serPutBytes c 0 (data.take 8) else s).serEnd c result count
    else
      let s := if k.rd || c = 2 then s.serPutBytes c 0 (data.take (min count (k.len + 1))) else s
      s.serEnd c result (min count (k.len + 1))

def execSerCmdEnd (inst : Fin 4) (result : Fin 3) (count : BitVec 7) (data : List Byte) (s : State) :
    Host.Outcome State Fault Refusal :=
  .next (s.serDone inst result count.toNat (data.map BitVec.toNat))

/-- An IBI arrives (R626): accepted from an assigned dynamic address, or as Hot-Join from 0x02; during a transfer it waits
for its end. Every other is NACKed. -/
def State.serIbi (s : State) (c addr : Nat) (pay : List Nat) : State :=
  let x := s.serSt c
  if c = 2 || !s.flag (serF c R.SER_CTL_EN) || bitB (s.get (serF c R.SER_CTL_SMODE)) 0 || !(addr == 2 || x.dyn.contains addr) then s
  else
    let pay := if addr = 2 then [] else pay
    if x.cmd.isSome then s.serPut c { x with ibis := x.ibis ++ [(addr, pay)] } else s.serIbiTake c addr pay

def execSerIbi (inst : Fin 4) (addr : BitVec 7) (payload : List Byte) (s : State) : Host.Outcome State Fault Refusal :=
  .next (s.serIbi inst addr.toNat (payload.map BitVec.toNat))

/-- A target holds SCL low for more than 25 ms (R627); SPI0 has no SCL. -/
def execSerSclTimeout (inst : Fin 4) (count : BitVec 7) (s : State) : Host.Outcome State Fault Refusal :=
  .next (match (s.serSt inst).cmd with
    | none => s
    | some k => if inst.val = 2 then s else s.serEnd inst 4 (min count.toNat (k.len + 1)))

/-- SER_CTL, live: clearing EN aborts; setting it forgets the assigned addresses (R626, R627). -/
def State.serCtlPost (s old : State) (c : Nat) : State :=
  let was := old.flag (serF c R.SER_CTL_EN)
  let on := s.flag (serF c R.SER_CTL_EN)
  let s := if c = 2 then s else s.set (serF c R.SER_CTL_CS1EN) 0
  if was && !on then (s.serAbort c).serPut c {}
  else if !was && on then s.serPut c {}
  else s

end Sys2Proof.Machine
end

