-- ==== Sys2Proof/Machine/Cif.lean ====
section
/-!
DEFINITION. The camera interface (R387 to R397): ports, frames, and frame synchronisation.
-/

namespace Sys2Proof.Machine

/-! ## Ports -/

def State.cifPort (s : State) (p : Nat) : CifPort := Cells.get {} s.cif.port p

/-- Put a port back; its status bits follow (R418). -/
def State.cifPut (s : State) (p : Nat) (x : CifPort) : State :=
  let s := { s with cif := { s.cif with port := Cells.set {} s.cif.port p x } }
  (s.setB R.CIF_P_STAT_BUSY (!x.frames.isEmpty) p).set R.CIF_STAT_ON (putBit (s.get R.CIF_STAT_ON) p (s.flag R.CIF_P_CTL_EN p))

def State.cifUpd (s : State) (p : Nat) (f : CifPort → CifPort) : State := s.cifPut p (f (s.cifPort p))

/-- Buffers of a port's ring. -/
def State.cifNbuf (s : State) (p : Nat) : Nat := s.get R.CIF_P_RCFG_NBUFM1 p + 1

/-- Data types of MIPI CSI-2 (log entry 37): bits of a pixel as received; none: not supported (R387). -/
def cifBits (dt : Nat) : Option Nat :=
  match dt with | 0x2A => some 8 | 0x2B => some 10 | 0x2C => some 12 | 0x2D => some 14 | 0x1E => some 16 | _ => none

/-- Bytes stored for a pixel (R389). -/
def cifStored (outfmt dt : Nat) : Nat := match outfmt with | 0 => if dt = 0x1E then 2 else 1 | 1 => 2 | _ => 1

def State.cifFmt (s : State) (p : Nat) : Nat := cifStored (s.get R.CIF_P_CTL_OUTFMT p) (s.get R.CIF_P_CTL_DT p)
def State.cifRow (s : State) (p : Nat) : Nat := s.get R.CIF_P_SIZE_W p * s.cifFmt p

/-- Bytes a second of a port's window, times the counts its last eight frame periods took, and those counts. -/
def State.cifLoad (s : State) (p : Nat) : Rat :=
  match (s.cifPort p).starts with
  | [a, _, _, _, _, _, _, _, b] =>
    if a > b then mkRat (s.cifRow p * s.get R.CIF_P_SIZE_H p * 8 * 100000000) (a - b) else 0
  | _ => 0

/-- The first failing check of an enable (R397), 0 when none fails. -/
def State.cifCheck (s : State) (p : Nat) : Nat :=
  let w := s.get R.CIF_P_SIZE_W p
  let h := s.get R.CIF_P_SIZE_H p
  let x0 := s.get R.CIF_P_WIN_X0 p
  let dt := s.get R.CIF_P_CTL_DT p
  let o := s.get R.CIF_P_CTL_OUTFMT p
  let rate := s.get R.CIF_P_PHY_RATE p
  if w = 0 || h = 0 || x0 + w > 8192 || s.get R.CIF_P_WIN_Y0 p + h > 8192 then 1
  else if s.get R.CIF_P_PHY_WIDTH p = 3 || rate < 8 || rate > 250 then 2
  else if o = 3 || (cifBits dt).isNone || (o == 0) != (dt == 0x2A || dt == 0x1E) || dt = 0x1E && (x0 % 2 = 1 || w % 2 = 1) then 3
  else if s.get R.CIF_P_PITCH_PITCH p < s.cifRow p || s.get R.CIF_P_RCFG_STRIDE p * 4096 < s.get R.CIF_P_PITCH_PITCH p * h then 4
  else if s.get R.CIF_P_PASID_PASID p = 0 then 5
  else if s.flag R.CIF_CTL_RATECHK &&
      ((List.range 4).filter fun q => q == p || s.flag R.CIF_P_CTL_EN q).foldl (fun n q => n + s.cifLoad q) (0 : Rat) > 4000000000 then 6
  else 0

/-! ## Waiting for buffers (R391) -/

/-- A wait that a lost link or a destroyed object ended is not satisfied (log entry 38). -/
def cifLost (r : Nat × Bool) : Bool := r.2 && (r.1 == 4 || r.1 == 9)

/-- The port waits for the next frame's buffer: REL ≥ WCOUNT + 1 − NBUF. -/
def State.cifArm (s : State) (p : Nat) : State :=
  let x := s.cifPort p
  let h := s.get R.CIF_P_REL_HANDLE p
  let v := s.get R.CIF_P_WCOUNT_COUNT p + x.frames.length + 1 - s.cifNbuf p
  if x.wait.any fun w => w.1 == h && w.2.1 == v && !((s.satOf w.2.2).any cifLost) then s
  else
    let s := match x.wait with | some w => s.satTake w.2.2 | none => s
    if hGen h = 0 || s.objCheck 0 h ≠ 0 || !s.flag R.CIF_P_CTL_EN p then s.cifPut p { x with wait := none }
    else
      let id := 2 ^ 61 + s.cif.seq
      let s := { s with cif := { s.cif with seq := s.cif.seq + 1 } }
      (s.cifPut p { x with wait := some (h, v, id) }).synWait h v id

/-- The buffer of the next frame is free. -/
def State.cifFree (s : State) (p : Nat) : Bool :=
  hGen (s.get R.CIF_P_REL_HANDLE p) = 0 || match (s.cifPort p).wait with
    | none => false
    | some w => (s.satOf w.2.2).any fun r => !cifLost r

/-! ## Dropping and writing -/

/-- A frame is dropped (R395). -/
def State.cifDrop (s : State) (p cause : Nat) : State := (s.incSat R.CIF_P_DROP_COUNT p).set R.CIF_P_STAT_LASTDROP cause p

/-- Write bytes for a port: waiting, failed, or written. -/
def State.cifStore (s : State) (p fc va : Nat) (bs : List Nat) : State × VaRes Unit :=
  match s.vaPlaces [15, p, fc] (66 + p) .cifWrite va bs.length with
  | (s, .wait) => (s, .wait)
  | (s, .fail) => (s, .fail)
  | (s, .ok ps) =>
    let bad := ps.any fun q => s.locStatus q.2.2 != .ok
    (ps.foldl (fun s q => s.vaWrite .cif q.2.2 (66 + p) ((bs.drop (q.1 - va)).take q.2.1)) s, if bad then .fail else .ok ())

/-- Write the lines that wait in a frame's part of the FIFO, oldest first; none: the frame fails. -/
def State.cifLines (s : State) (p : Nat) : Nat → CifFrame → State × Option CifFrame
  | 0, f => (s, some f)
  | n + 1, f =>
    match f.fifo with
    | [] => (s, some f)
    | l :: ls =>
      match s.cifStore p f.fc l.1 l.2 with
      | (s, .wait) => (s, some f)
      | (s, .fail) => (s, none)
      | (s, .ok _) => s.cifLines p n { f with fifo := ls, written := f.written + 1 }

/-- Drain the FIFO of a port; a frame whose write fails is dropped with cause FAULT. -/
def State.cifDrain (s : State) (p : Nat) : State :=
  let r := (s.cifPort p).frames.foldl (fun (r : State × List CifFrame × Nat) f =>
    match r.1.cifLines p f.fifo.length f with
    | (s, some f) => (s, r.2.1 ++ [f], r.2.2)
    | (s, none) => (s, r.2.1, r.2.2 + 1)) (s, [], 0)
  let s := r.1.cifUpd p fun x => { x with frames := r.2.1 }
  (List.range r.2.2).foldl (fun s _ => s.cifDrop p 3) s

/-- Every frame of the port that is not delivered is dropped. -/
def State.cifDropAll (s : State) (p cause : Nat) : State :=
  let n := (s.cifPort p).frames.length
  (List.range n).foldl (fun s _ => s.cifDrop p cause) (s.cifUpd p fun x => { x with frames := [] })

/-! ## Enabling (R397) -/

/-- EN goes to 0: open frames are dropped. -/
def State.cifStop (s : State) (p cause : Nat) : State :=
  let s := (s.setB R.CIF_P_CTL_EN false p).cifDropAll p cause
  let s := match (s.cifPort p).wait with | some w => s.satTake w.2.2 | none => s
  s.cifUpd p fun x => { x with wait := none }

/-- Start of pulse n (R396). -/
def State.cifSync (s : State) (p n : Nat) : Nat :=
  s.get R.CIF_SYNC_EPOCH_EPOCH + n * (s.get R.CIF_SYNC_PERIOD_INT * 2 ^ 16 + s.get R.CIF_SYNC_PERIOD_FRAC) / 2 ^ 16
    + s.get R.CIF_P_FSYNC_OFS p

/-- Lowest pulse that starts at or after a TBASE. -/
def State.cifSyncFrom (s : State) (p t : Nat) : Nat :=
  let e := s.get R.CIF_SYNC_EPOCH_EPOCH + s.get R.CIF_P_FSYNC_OFS p
  let d := s.get R.CIF_SYNC_PERIOD_INT * 2 ^ 16 + s.get R.CIF_SYNC_PERIOD_FRAC
  if t ≤ e || d = 0 then 0 else ((t - e) * 2 ^ 16 + d - 1) / d

/-- A frame-sync output takes a level. -/
def State.cifLevel (s : State) (p : Nat) (b : Bool) : State :=
  if bitB s.pad.fsync p = b then s
  else
    let s' := { s with pad := { s.pad with fsync := putBit s.pad.fsync p b } }
    (s'.emit (.pin ("FSYNC" ++ toString p) (b2n b))).padDriven s

/-- What follows a write of CIF_Pp_CTL. -/
def State.cifCtlPost (s old : State) (p : Nat) : State :=
  let s := match old.flag R.CIF_P_CTL_EN p, s.flag R.CIF_P_CTL_EN p with
    | false, true =>
      let e := s.cifCheck p
      if e ≠ 0 then (s.setB R.CIF_P_CTL_EN false p).set R.CIF_P_STAT_CFGERR e p
      else
        let s := { s with dtu := { s.dtu with pasid := Cells.put s.dtu.pasid (66 + p) (s.get R.CIF_P_PASID_PASID p) } }
        (s.cifUpd p fun x => { x with since := s.tb }).cifArm p
    | true, false => (s.setB R.CIF_P_CTL_EN true p).cifStop p 5
    | _, _ => s
  match old.flag R.CIF_P_CTL_FSEN p, s.flag R.CIF_P_CTL_FSEN p with
  | false, true => (s.cifUpd p fun x => { x with next := s.cifSyncFrom p (s.tb + 1000) }).padUpdate
  | true, false => ((s.cifUpd p fun x => { x with pulse := none }).cifLevel p false).padUpdate
  | _, _ => s

/-- A write of CIF_Pp_CTL, live. -/
def State.cifCtl (s : State) (m : Master) (p val : Nat) : State :=
  s.lockedWrite m (0xB01000 + 0x1000 * p) val R.CIF_P_CTL p 0 fun t => t.cifCtlPost s p

def State.cifCtlWrite (s : State) (m : Master) (p : Nat) (en fsen : Bool) (outfmt vc dt : Nat) : State :=
  let val := b2n en * 2 ^ 31 + b2n fsen * 2 ^ 30 + outfmt * 2 ^ 28 + vc * 2 ^ 26 + dt * 2 ^ 16
  s.ownerWrite m (0xB01000 + 0x1000 * p) val false fun s => s.cifCtl m p val

def execCifPortEnable (m : Master) (p : Fin 4) (fsen : Bool) (outfmt vc : BitVec 2) (dt : BitVec 6) (s : State) :
    Host.Outcome State Fault Refusal := .next (s.cifCtlWrite m p true fsen outfmt.toNat vc.toNat dt.toNat)

def execCifPortDisable (m : Master) (p : Fin 4) (fsen : Bool) (outfmt vc : BitVec 2) (dt : BitVec 6) (s : State) :
    Host.Outcome State Fault Refusal := .next (s.cifCtlWrite m p false fsen outfmt.toNat vc.toNat dt.toNat)

/-! ## Packets (R388 to R394) -/

/-- What became of a packet header's ECC: good, corrected, uncorrectable. -/
def ecc3 (e : Fin 3) : Nat := e.val

/-- The newest frame of the port is still open. -/
def CifPort.open_ (x : CifPort) : Option CifFrame := x.frames.getLast?.filter fun f => !f.closed

/-- Replace the newest frame. -/
def CifPort.setOpen (x : CifPort) (f : CifFrame) : CifPort := { x with frames := x.frames.dropLast ++ [f] }

/-- Close the open frame: complete when all its window lines were received, SHORT otherwise. `fix`: a frame-end header was
corrected (R390). -/
def State.cifClose (s : State) (p : Nat) (fix : Bool := false) : State :=
  match (s.cifPort p).open_ with
  | none => s
  | some f =>
    let short := f.got < s.get R.CIF_P_SIZE_H p
    let fl := if fix then f.flags ||| 4 else f.flags
    s.cifUpd p fun x => x.setOpen { f with closed := true, flags := if short then fl ||| 2 else fl }

/-- The port captures now. -/
def State.cifOn (s : State) (p : Nat) : Bool :=
  s.domLive 3 && s.flag R.CIF_CTL_EN && s.flag R.CIF_P_CTL_EN p && s.tb ≥ (s.cifPort p).since + 100

/-- A frame-start packet is decoded. -/
def State.cifStart (s : State) (p ecc : Nat) : State :=
  if ecc = 2 then
    let s := s.incSat R.CIF_P_ERR_ECC p
    match (s.cifPort p).open_ with
    | some f => s.cifUpd p fun x => x.setOpen { f with mute := true }
    | none => s
  else
    let s := (s.cifClose p).incWrap R.CIF_P_FCOUNT_COUNT p
    let x := s.cifPort p
    let free := s.cifFree p
    let s := s.cifUpd p fun x => { x with starts := (s.tb :: x.starts).take 9 }
    let s := s.sinAcquire true
    if !free then (s.cifDrop p 1).cifArm p
    else
      let f : CifFrame := {
        fc := s.get R.CIF_P_FCOUNT_COUNT p, c := s.get R.CIF_P_WCOUNT_COUNT p + x.frames.length,
        sig := s.get R.CIF_P_SIG_HANDLE p, stamp := s.tb, sync := x.lastSync, flags := if ecc = 1 then 4 else 0 }
      (s.cifUpd p fun x => { x with frames := x.frames ++ [f] }).cifArm p

/-- A frame-start packet on a virtual channel. -/
def execCsiFrameStartPacket (p : Fin 4) (vc : BitVec 2) (ecc : Fin 3) (s : State) : Host.Outcome State Fault Refusal :=
  .next (if s.cifOn p && (vc.toNat = s.get R.CIF_P_CTL_VC p || ecc.val = 2) then s.cifStart p ecc else s)

/-- Pixels of a payload (MIPI CSI-2 packing; log entry 37): RAW10 four in five bytes, RAW12 two in three, RAW14 four in seven. -/
def cifPixels (dt : Nat) : Nat → List Nat → List Nat
  | 0, _ => []
  | n + 1, b =>
    match dt, b with
    | 0x2B, p0 :: p1 :: p2 :: p3 :: l :: r =>
      [p0 * 4 + bitsOf l 0 2, p1 * 4 + bitsOf l 2 2, p2 * 4 + bitsOf l 4 2, p3 * 4 + bitsOf l 6 2] ++ cifPixels dt n r
    | 0x2C, p0 :: p1 :: l :: r => [p0 * 16 + bitsOf l 0 4, p1 * 16 + bitsOf l 4 4] ++ cifPixels dt n r
    | 0x2D, p0 :: p1 :: p2 :: p3 :: a :: b :: c :: r =>
      let l := a + b * 256 + c * 65536
      [p0 * 64 + bitsOf l 0 6, p1 * 64 + bitsOf l 6 6, p2 * 64 + bitsOf l 12 6, p3 * 64 + bitsOf l 18 6] ++ cifPixels dt n r
    | _, _ => []

/-- The bytes stored for the window's part of a line (R389). -/
def cifStoredLine (outfmt dt x0 w : Nat) (b : List Nat) : List Nat :=
  match outfmt with
  | 0 => let k := if dt = 0x1E then 2 else 1; (b.drop (x0 * k)).take (w * k)
  | 1 => (((cifPixels dt b.length b).drop x0).take w).flatMap (toBytes 2)
  | _ => (((cifPixels dt b.length b).drop x0).take w).map fun v => v / 2 ^ ((cifBits dt).getD 8 - 8)

/-- Bytes that wait in a port's line FIFO. -/
def CifPort.fifoBytes (x : CifPort) : Nat := (x.frames.map fun f => (f.fifo.map fun l => l.2.length).sum).sum

/-- A captured long packet of the open frame. -/
def State.cifLine (s : State) (p ecc : Nat) (crc : Bool) (b : List Nat) (f : CifFrame) : State :=
  let y := f.lines
  let y0 := s.get R.CIF_P_WIN_Y0 p
  let h := s.get R.CIF_P_SIZE_H p
  let s := if crc then s.incSat R.CIF_P_ERR_CRC p else s
  let f := { f with lines := y + 1, flags := if ecc = 1 then f.flags ||| 4 else f.flags }
  if !(y0 ≤ y && y < y0 + h) then s.cifUpd p fun x => x.setOpen f
  else
    let base := s.get R.CIF_P_RBASE_VA p * 4096 + f.c % s.cifNbuf p * s.get R.CIF_P_RCFG_STRIDE p * 4096
    let va := (base + (y - y0) * s.get R.CIF_P_PITCH_PITCH p) % 2 ^ 64
    let bs := cifStoredLine (s.get R.CIF_P_CTL_OUTFMT p) (s.get R.CIF_P_CTL_DT p) (s.get R.CIF_P_WIN_X0 p) (s.get R.CIF_P_SIZE_W p) b
    let f := { f with
      flags := if crc then f.flags ||| 1 else f.flags, got := f.got + 1, last := s.tb, fifo := f.fifo ++ [(va, bs)],
      closed := f.got + 1 ≥ h }
    let s := (s.cifUpd p fun x => x.setOpen f).cifDrain p
    if (s.cifPort p).fifoBytes > 32768 then (s.cifUpd p fun x => { x with frames := x.frames.dropLast }).cifDrop p 2 else s

/-- A long packet with its payload (R388, R394). `crc`: the packet's CRC is wrong; `full`: the line FIFO is full. -/
def execCsiLongPacket (p : Fin 4) (vc : BitVec 2) (dt : BitVec 6) (ecc : Fin 3) (crc full : Bool) (payload : List Byte) (s : State) :
    Host.Outcome State Fault Refusal :=
  .next (if !s.cifOn p then s
    else if ecc.val = 2 then s.incSat R.CIF_P_ERR_ECC p
    else if vc.toNat ≠ s.get R.CIF_P_CTL_VC p || dt.toNat ≠ s.get R.CIF_P_CTL_DT p then s
    else match (s.cifPort p).open_ with
      | none => if crc then s.incSat R.CIF_P_ERR_CRC p else s
      | some f =>
        if f.mute then (if crc then s.incSat R.CIF_P_ERR_CRC p else s)
        else if full then (s.cifUpd p fun x => { x with frames := x.frames.dropLast }).cifDrop p 2
        else s.cifLine p ecc crc (payload.map BitVec.toNat) f)

/-- A frame-end packet. -/
def execCsiFrameEndPacket (p : Fin 4) (vc : BitVec 2) (ecc : Fin 3) (s : State) : Host.Outcome State Fault Refusal :=
  .next (if !s.cifOn p then s
    else if ecc.val = 2 then s.incSat R.CIF_P_ERR_ECC p
    else if vc.toNat ≠ s.get R.CIF_P_CTL_VC p then s
    else s.cifClose p (ecc.val == 1))

/-- The header of a frame (R390). -/
def State.cifHeader (s : State) (p : Nat) (f : CifFrame) : List Nat :=
  toBytes 4 f.fc ++ toBytes 4 f.flags ++ toBytes 8 f.stamp ++ toBytes 8 f.last ++
  toBytes 8 (f.written + s.get R.CIF_P_CTL_VC p * 2 ^ 16 + s.get R.CIF_P_CTL_DT p * 2 ^ 24) ++ toBytes 8 f.sync ++ List.replicate 24 0

/-- The oldest frame of a port is delivered once its lines are written, after a release at system scope (R176, R392). -/
def State.cifComplete (s : State) (p : Nat) : State :=
  let s := s.cifDrain p
  match (s.cifPort p).frames with
  | [] => s
  | f :: fs =>
    if !f.closed || !f.fifo.isEmpty || !s.wtAcked then s
    else
      match s.cifStore p f.fc ((s.get R.CIF_P_HBASE_VA p * 64 + 64 * (f.c % s.cifNbuf p)) % 2 ^ 64) (s.cifHeader p f) with
      | (s, .wait) => s
      | (s, .fail) => (s.cifUpd p fun x => { x with frames := fs }).cifDrop p 3
      | (s, .ok _) =>
        let s := ((s.embRelease 3).cifUpd p fun x => { x with frames := fs }).incWrap R.CIF_P_WCOUNT_COUNT p
        if hGen f.sig = 0 || s.objCheck 0 f.sig ≠ 0 then s else s.synPlain f.sig (s.get R.CIF_P_WCOUNT_COUNT p) 0

def execCifFrameComplete (p : Fin 4) (s : State) : Host.Outcome State Fault Refusal := .next (s.cifComplete p)

/-! ## Frame synchronisation (R396) -/

/-- TBASE reaches a pulse's start; of several passed over, the latest is sent (R504). -/
def State.cifPulse (s : State) (p : Nat) : State :=
  let x := s.cifPort p
  let n := max x.next (s.cifSyncFrom p (s.tb + 1) - 1)
  let t := s.cifSync p n
  if !s.domLive 3 || !s.flag R.CIF_P_CTL_FSEN p || t > s.tb then s
  else (s.cifPut p { x with next := n + 1, lastSync := t, pulse := some (t + s.get R.CIF_P_FSYNC_WIDTH p) }).cifLevel p true

def execFsyncPulse (p : Fin 4) (s : State) : Host.Outcome State Fault Refusal := .next (s.cifPulse p)

def execFsyncPulseEnd (p : Fin 4) (s : State) : Host.Outcome State Fault Refusal :=
  .next (match (s.cifPort p).pulse with
    | some t => if s.tb ≥ t then (s.cifUpd p fun x => { x with pulse := none }).cifLevel p false else s
    | none => s)

/-! ## What other units do to the ports (R277, R384, R395) -/

/-- Teardown of a PASID. -/
def State.cifTeardown (s : State) (pasid : Nat) : State :=
  (List.range 4).foldl (fun s p =>
    if s.flag R.CIF_P_CTL_EN p && s.get R.CIF_P_PASID_PASID p = pasid then (s.cifStop p 4).set R.CIF_P_STAT_TDOWN 1 p else s) s

/-- Every port is disabled (S2 and S3 entry, ENG reset). -/
def State.cifHalt (s : State) : State :=
  (List.range 4).foldl (fun s p => if s.flag R.CIF_P_CTL_EN p then s.cifStop p 5 else s) s

end Sys2Proof.Machine
end

