-- ==== Sys2Proof/Machine/Jtag.lean ====
section
/-!
DEFINITION. The JTAG TAP and its boundary scan (R589, R671 to R673).
-/

namespace Sys2Proof.Machine

/-- Codes of R672. -/
def irExtest : Nat := 0
def irSample : Nat := 1
def irIdcode : Nat := 2
def irClamp : Nat := 4
def irHighz : Nat := 5
def irDapreg : Nat := 8
def irDapstat : Nat := 9
def irBypass : Nat := 31

/-- The instruction that a code acts as under DBG (R589, R672). -/
def State.irActs (s : State) (code : Nat) : Nat :=
  let dbg := s.get R.BOOT_PROF_DBG
  if code = irIdcode then irIdcode
  else if code = irExtest || code = irSample || code = irClamp || code = irHighz then (if dbg ≤ 2 then code else irBypass)
  else if code = irDapreg || code = irDapstat then (if dbg ≤ 1 then code else irBypass)
  else irBypass

/-- The TAP works: POR holds it in reset. -/
def State.tapLive (s : State) : Bool := s.rst.asserted != some .por

/-- An instruction takes effect: the boundary register controls the pads under EXTEST, CLAMP and HIGHZ, and a pad whose control
ends returns to what its hold or function selects (R673). -/
def State.irLoad (s : State) (code : Nat) : State :=
  let i := s.irActs code
  let drive := if i = irExtest || i = irClamp then 1 else if i = irHighz then 2 else 0
  let t := { s with jtag := { s.jtag with ir := i, drive } }
  t.padDriven s

/-- A scan of the boundary register: the cells capture the pads (`rest` for the pads of other groups), and take what is shifted
in. -/
def State.bndScan (s : State) (rest out en restIn : Nat) : State :=
  let cap := ((List.range 48).map fun n => b2n (s.padLevel n) * 2 ^ n).sum
  let t := s.emit (.tdo (cap + rest * 2 ^ 48))
  let t := { t with jtag := { t.jtag with bndOut := out, bndEn := en, bndRest := restIn } }
  let t := if s.jtag.drive = 1 then t.emit (.pin "BOUNDARY" restIn) else t
  t.padDriven s

/-- EXTEST or SAMPLE/PRELOAD with one scan; where the code acts as BYPASS there is none. -/
def State.bndOp (s : State) (code rest out en restIn : Nat) : State :=
  if !s.tapLive then s
  else
    let t := s.irLoad code
    if s.irActs code = code then t.bndScan rest out en restIn else t.emit (.tdo 0)

def execJtagExtest (rest restIn : BitVec 128) (out en : BitVec 48) (s : State) : Host.Outcome State Fault Refusal :=
  .next (s.bndOp irExtest rest.toNat out.toNat en.toNat restIn.toNat)

def execJtagSamplePreload (rest restIn : BitVec 128) (out en : BitVec 48) (s : State) : Host.Outcome State Fault Refusal :=
  .next (s.bndOp irSample rest.toNat out.toNat en.toNat restIn.toNat)

/-- CLAMP selects the bypass register, which captures 0. -/
def execJtagClamp (s : State) : Host.Outcome State Fault Refusal :=
  .next (if s.tapLive then (s.irLoad irClamp).emit (.tdo 0) else s)

def execJtagHighz (s : State) : Host.Outcome State Fault Refusal :=
  .next (if s.tapLive then (s.irLoad irHighz).emit (.tdo 0) else s)

/-- IDCODE (R672). -/
def State.idcode (s : State) : Nat := s.get R.CHIP_ID_REV % 16 * 2 ^ 28 + 0xC016 * 2 ^ 12 + 0x2B7 * 2 + 1

def execJtagIdcode (s : State) : Host.Outcome State Fault Refusal :=
  .next (if s.tapLive then (s.irLoad irIdcode).emit (.tdo s.idcode) else s)

def execJtagBypass (s : State) : Host.Outcome State Fault Refusal :=
  .next (if s.tapLive then (s.irLoad irBypass).emit (.tdo 0) else s)

/-- TRST_N resets the TAP (R671): IDCODE is selected and the pads return to their functions. -/
def execTapReset (s : State) : Host.Outcome State Fault Refusal := .next ({ s with jtag := {} }.padDriven s)

/-- DAPSTAT as captured (R674). -/
def State.dapStat (s : State) : Nat := b2n s.jtag.dapErr + 2 * b2n (s.domOn 0) + 4 * b2n (s.get R.BOOT_PROF_DBG ≤ 1)

/-- A scan of DAPSTAT that shifts 1 into bit 0. -/
def execDapstatClear (s : State) : Host.Outcome State Fault Refusal :=
  .next (if !s.tapLive then s
    else
      let t := s.irLoad irDapstat
      if s.irActs irDapstat = irDapstat then { t.emit (.tdo s.dapStat) with jtag := { t.jtag with dapErr := false } }
      else t.emit (.tdo 0))

end Sys2Proof.Machine
end

