-- ==== Sys2Proof/Machine/Pwr.lean ====
section
/-!
DEFINITION. Power domains, states and wake (R411, R413, R516 to R548, R650).
-/

namespace Sys2Proof.Machine

/-! ## Helpers -/

/-- Set a bit of PWR_EVT, and raise vector 15 when PWR_CTL.IRQ is set. -/
def State.pwrEvt (s : State) (f : Field) : State := (s.set f 1).vectorIf (s.flag R.PWR_CTL_IRQ) 15

/-- PWR_QUIET as read (R548). -/
def State.pwrQuiet (s : State) : Nat :=
  b2n s.wsp.win.isEmpty + 2 * b2n (s.embsOn.all fun e => (s.em e).blocks.isEmpty) + 4 * b2n s.gfx.passes.isEmpty +
  8 * b2n (!s.dtuBusy) + 16 * b2n (!s.flag R.SYN_CMD_STAT_BUSY && !s.flag R.SYN_ABORT_STAT_BUSY) +
  32 * b2n (!s.flag R.SIN_MAINT_STAT_BUSY) + 64 + 128 * b2n (s.get R.FUM_WAKE_EN_EN != 0)

def State.rampOn (s : State) (d : Nat) : State :=
  if s.locked d || s.domOn d || s.pwr.ramps.contains d then s else { s with pwr := { s.pwr with ramps := s.pwr.ramps ++ [d] } }
def State.rampOff (s : State) (d : Nat) : State := { s with pwr := { s.pwr with ramps := s.pwr.ramps.filter (· != d) } }
def State.drainOff (s : State) (d : Nat) : State := { s with pwr := { s.pwr with drains := s.pwr.drains.filter (· != d) } }

/-! ## Domains in S0 (R517, R518, R521, R522) -/

/-- Registers of an Ember window that FAB or BOOT holds (R62, R660): EMB_ID, EMB_CTL, EMB_PERF_SEL. -/
def embFab (off : Nat) : Bool := 0x1000000 ≤ off && [0x0, 0x4, R.EMB_PERF_SEL.off - 0x1000000].contains ((off - 0x1000000) % 0x10000)

/-- A domain is switched off in S0 (R62, R517): its registers return to their Reset values. -/
def State.domRegs (s : State) (d : Nat) : State :=
  s.regsFilter fun off f => domOf off != some d || embFab off || f.kept == 511

/-- The switch of a domain opens: what the domain held is lost. -/
def State.domLose (s : State) (d : Nat) : State :=
  let s := s.domPut d false
  let s := match d with
    | 1 => { s with gfx := {} }
    | 2 => { s with dco := {} }
    | 3 => { s with cif := {} }
    | 4 => s.chlDown 0 9 false
    | 5 => s.chlDown 1 9 false
    | _ => if 16 ≤ d then { s with emb := Cells.del s.emb (d - 16), wsp := { s.wsp with idle := Cells.del s.wsp.idle (d - 16) } } else s
  s.domRegs d

/-- A drain ends (R518). Outside an entry the switch opens, and a domain that is wanted again is powered on again. -/
def State.drainDone (s : State) (d : Nat) : State :=
  if !s.pwr.drains.contains d then s
  else
    let s := s.drainOff d
    if s.pwr.entry.isSome then s
    else
      let s := s.domLose d
      if (16 ≤ d && s.wsp.wantOn.contains (d - 16)) || (1 ≤ d && d ≤ 5 && bitB (s.get R.PWR_DOM_REQ_REQ) (d - 1)) then s.rampOn d else s

def execDomainDrainDone (d : Fin 32) (s : State) : Host.Outcome State Fault Refusal := .next (s.drainDone d)

/-- PWR_DOM_REQ, live (R517): each bit powers its domain on, or drains it and switches it off. -/
def State.domReqWrite (s : State) (req : Nat) : State :=
  [1, 2, 3, 4, 5].foldl (fun s d =>
    if bitB req (d - 1) then s.rampOn d
    else
      let s := s.rampOff d
      if s.domOn d && !s.pwr.drains.contains d then { s with pwr := { s.pwr with drains := s.pwr.drains ++ [d] } } else s)
    (s.set R.PWR_DOM_REQ_REQ req)

def execPwrDomReqWrite (m : Master) (req : BitVec 5) (s : State) : Host.Outcome State Fault Refusal :=
  .next (s.ownerWrite m 0x300020 (req.toNat * 2) false fun s => s.domReqWrite req.toNat)

/-- The domains that close their switches once FAB is on at an S3 exit (R534). -/
def State.exitRamps (s : State) : State :=
  ([6, 7] ++ [1, 2, 3, 4, 5].filter fun d => bitB (s.get R.PWR_DOM_REQ_REQ) (d - 1)).foldl State.rampOn s

/-- A ramp passes (R521): the domain is powered, its registers at their Reset values. -/
def State.rampPass (s : State) (d : Nat) : State :=
  if !s.pwr.ramps.contains d then s
  else
    let s := (s.rampOff d).domPut d true
    if d = 0 then s.exitRamps
    else if d = 4 || d = 5 then
      -- in an S3 exit the port's pads are released, and the port trains in parallel
      let s := if s.get R.PWR_STAT_STATE = 3 then s.set R.PAD_HOLD_STAT_CHL 0 else s
      if s.flag R.CHLP_CTL_EN (d - 4) then s.chlPortOn (d - 4) else s
    else if 16 ≤ d then { s with wsp := { s.wsp with idle := Cells.put s.wsp.idle (d - 16) s.tb } } else s

def execRampPass (d : Fin 32) (s : State) : Host.Outcome State Fault Refusal := .next (s.rampPass d)

/-- Launches that still place blocks and to which no Ember is left fail (R317). -/
def State.launchesLost (s : State) : State :=
  (s.wsp.win.filter fun p => p.stage == .running && (p.launch.map (fun l => !l.stop && l.next < dispTotal p.bytes)).getD false &&
      pkType p.bytes == 1 && (s.inPlace (fieldOf p.bytes 0x3C 2)).isEmpty).foldl
    (fun (s : State) p => s.launchLost p) s

/-- A ramp aborts (R522, R523, R536): FAB's ends an S3 exit; an Ember leaves placement and joins the defect supplement. -/
def State.rampFail (s : State) (d cause : Nat) : State :=
  if !s.pwr.ramps.contains d then s
  else
    let s := (s.rampOff d).rampAbort d cause
    if d = 0 then
      let s := (s.set R.PWR_STAT_EXITFAIL 1).set R.PWR_STAT_EXITING 0
      { s with pwr := { s.pwr with exit := none, ramps := [] } }
    else if 16 ≤ d then
      let n := d - 16
      let s := { s with wsp := { s.wsp with
        outOf := s.wsp.outOf ++ [n], wantOn := s.wsp.wantOn.filter (· != n) } }
      let s := match s.physOf n with
        | some e => s.supAppend 1 e 0 2
        | none => s
      s.launchesLost
    else s

def execRampWindowAbort (d : Fin 32) (s : State) : Host.Outcome State Fault Refusal := .next (s.rampFail d 1)
def execRampCurrentAbort (d : Fin 32) (s : State) : Host.Outcome State Fault Refusal := .next (s.rampFail d 2)

/-! ## Wake (R411, R413, R532) -/

/-- The exit from S2 or S3 starts. -/
def State.exitStart (s : State) : State :=
  let st := s.get R.PWR_STAT_STATE
  let s := s.set R.PWR_STAT_EXITING 1
  let s := { s with pwr := { s.pwr with exit := some (s.tb, st) } }
  if st ≠ 3 then s
  else if s.flag R.PWR_CTL_RAILOFF then { s.emit (.pin "PWR_EN" 1) with pwr := { s.pwr with exit := some (s.tb, st), waitGood := true } }
  else s.rampOn 0

/-- Comparator n counts a trip: enabled, and for ACMP3 under the rules of R412: no hold-off runs, and on the wake DAC the code is at
least THR3. -/
def State.tripCounts (s : State) (n : Nat) : Bool :=
  s.flag R.FUM_ACMP_CFG_EN n &&
  (n != 3 || ((s.tb ≥ s.fum.holdOff || s.get R.PWR_STAT_STATE == 3) &&
    (!s.flag R.FUM_ACMP_CFG_SRC 3 || s.get R.FUM_WDAC_CODE ≥ s.get R.FUM_ACMP_CFG_THR 3)))

/-- Counted trips of one cycle: in S2 and S3 those that may wake set WSRC and start one exit; during an entry ENTRYWAKE too;
during an exit WSRC only. -/
def State.wakeTrip (s : State) (w : Nat) : State :=
  let src := fun (s : State) => s.set R.FUM_WSRC_SRC (s.get R.FUM_WSRC_SRC ||| w)
  if w = 0 || s.pwr.tripped || s.flag R.PWR_STAT_EXITFAIL then s
  else match s.pwr.entry with
    | some e => if e.target = 4 then s else (src s).set R.FUM_WSRC_ENTRYWAKE 1
    | none =>
      if s.get R.PWR_STAT_STATE < 2 || s.pwr.s4 then s
      else if s.flag R.PWR_STAT_EXITING then src s
      else (src s).exitStart

/-- Comparator outputs that have stayed true for their FILT times, with the outputs' levels. -/
def execComparatorTrip (trips levels : BitVec 4) (s : State) : Host.Outcome State Fault Refusal :=
  .next (
    let w := ((List.range 4).map fun n => b2n (trips.getLsbD n && s.tripCounts n) * 2 ^ n).sum
    let s := s.set R.FUM_ACMP_STAT_LEVEL (levels.toNat ||| w)
    if w = 0 then s
    else ((s.set R.FUM_ACMP_STAT_TRIP (s.get R.FUM_ACMP_STAT_TRIP ||| w)).emit (.irqMcu 2)).fumEvent.wakeTrip
      (w &&& s.get R.FUM_WAKE_EN_EN))

/-! ## Requests (R527, R528) -/

/-- A serial command in progress ends with ABORTED (R632). -/
def State.serAbortAll (s : State) : State := [0, 1, 2, 3].foldl State.serAbort s

/-- An accepted entry's first step (R529, R530): slots roll back, CIF ports and DCO channels stop, domains drain. -/
def State.entryStart (s : State) (target : Nat) : State :=
  let s := { s.set R.PWR_STAT_ENTERING 1 with pwr := { s.pwr with entry := some ⟨target, s.tb⟩ } }
  let s := (s.txnRollAll 8 false).cifHalt.dcoHalt
  let s := if target ≥ 3 then s.serAbortAll else s
  let ds := ([0, 1, 2, 3] ++ (List.range 16).map (· + 16)).filter fun d => s.domOn d && !s.pwr.drains.contains d
  { s with pwr := { s.pwr with drains := s.pwr.drains ++ ds, ramps := s.pwr.ramps.filter (· < 16) } }

/-- Why a request is refused, in the order of R527's table; 0: accepted. -/
def State.pwrRefuse (s : State) (v : Nat) : Nat :=
  if s.pwr.entry.isSome || s.flag R.PWR_STAT_EXITING || s.get R.PWR_STAT_STATE ≥ 2 then 3
  else if v < 2 || v > 4 then 4
  else if v ≠ 4 && s.get R.FUM_WAKE_EN_EN = 0 then 2
  else if s.pwrQuiet % 128 ≠ 127 then 1
  else 0

/-- PWR_REQ.STATE, live. -/
def State.pwrReq (s : State) (v : Nat) : State :=
  if v = 0 || s.pwr.tripped then s
  else match s.pwrRefuse v with
    | 0 => s.entryStart v
    | r => (s.set R.PWR_STAT_REFUSE r).pwrEvt R.PWR_EVT_REFUSED

/-- A write of PWR_REQ; the microcontroller's goes to the mirror at FUM offset 0x0038_F010 and needs ownership (R469). -/
def State.pwrReqWrite (s : State) (m : Master) (v : Nat) : State :=
  let off := if m = .m3 then 0x38F010 else 0x300000
  s.ownerWrite m off v false fun s => if s.owns m then s.pwrReq v else s.errComp m .nonowner off

def execPwrReqS2 (m : Master) (s : State) : Host.Outcome State Fault Refusal := .next (s.pwrReqWrite m 2)
def execPwrReqS3 (m : Master) (s : State) : Host.Outcome State Fault Refusal := .next (s.pwrReqWrite m 3)
def execPwrReqS4 (m : Master) (s : State) : Host.Outcome State Fault Refusal := .next (s.pwrReqWrite m 4)

/-! ## The end of an entry (R529 to R531) -/

/-- A debug-port operation in progress ends with error (R674). -/
def JtagSt.abort (j : JtagSt) : JtagSt := if j.dapStat = 1 then { j with dapStat := 3 } else j

/-- Every FAB store that does not survive the opening of the switches (R661). -/
def State.fabLose (s : State) : State :=
  { s with
    raw := []
    jtag := s.jtag.abort
    latch := []
    ap := []
    flt := { s.flt with staged := [], sum := none }
    cru := { s.cru with move := none, holdTo := none, exT1 := none, exRsp := none, good := 0, missed := 0, fclkLow := false }
    wdt := {}
    pad := { held := s.pad.held, lvl := s.pad.lvl, ser := s.pad.ser.filter fun x => x.1 == 3 }
    syn := {}
    sin := {}
    dtu := {}
    wsp := {}
    emb := []
    gfx := {}
    dco := {}
    cif := {}
    chl := {
      names := s.chl.names
      uids := s.chl.uids
      port := s.chl.port.map fun p => (p.1, { uid := p.2.uid }) } }

/-- Fields that the Warden writes back at an S3 exit, or that show the power state, so that S3 leaves them (R534, R535). -/
def s3Fields : List Field :=
  [R.PWR_STAT_STATE, R.PWR_STAT_ENTERING, R.PWR_STAT_EXITING, R.PWR_DOM_ON_ON_DOM, R.PWR_DOM_ON_ON_EMB, R.BOOT_STAT_SLOT,
    R.BOOT_STAT_TRIAL, R.BOOT_STAT_DEGRADED, R.BOOT_SVN_IMG, R.CRU_TB_ASYM_PS, R.DTU_CTL_PROXY, R.DTU_DMWIN_BASE_ADDR,
    R.DTU_DMWIN_BASE_EN, R.DTU_DMWIN_LIM_ADDR, R.CHL_GEN_GEN, R.CHLP_CTL_EN, R.CHLP_CTL_ENC, R.CHLP_CTL_MAXRATE,
    R.CHLP_CTL_MAXWIDTH, R.EMB_ID_LCOUNT, R.EMB_ID_LNUM]

/-- Every write-back before an entry: SYN entries and the counter cache, then the Sinter clean (R194, R242, R272). -/
def State.entryFlush (s : State) (drop : Bool) : State :=
  let s := [0, 1].foldl (fun (s : State) c => if (s.dcoCh c).on then s.dcoStop c else s) s
  ((s.synFlush drop).dtuSleep).sinPurge

/-- Embers are off: nothing in them is kept. -/
def State.embersOff (s : State) : State :=
  { s.set R.PWR_DOM_ON_ON_EMB 0 with emb := [], wsp := { s.wsp with idle := [], wantOn := [] } }

/-- Resident queues and contexts leave (R276). -/
def State.evictAll (s : State) : State :=
  (s.wsp.qs.filter fun x => x.2.slot.isSome).foldl (fun (s : State) (x : Nat × WspQ) => s.evictNow x.1 x.2) s

/-- SLEEP goes to every partner on an ACTIVE or QUARANTINE port (R446). -/
def State.sleepAll (s : State) : State :=
  [0, 1].foldl (fun (s : State) p =>
    if s.get R.CHLP_STAT_STATE p = 5 || s.get R.CHLP_STAT_STATE p = 6 then s.mgmtLocal p 0x09 [3] else s) s

/-- Thornhedge latches and holds the pads (R538). -/
def State.holdAll (s : State) : State :=
  [R.PAD_HOLD_STAT_GEN, R.PAD_HOLD_STAT_CHL, R.PAD_HOLD_STAT_HIF, R.PAD_HOLD_STAT_MEM, R.PAD_HOLD_STAT_BOOT].foldl
    (fun s f => s.set f 1) s.padHold

/-- S3 and S4: from the eviction of residency to the opening of the switches. -/
def State.enterS3 (s : State) (rtc : Nat) (s4 : Bool) : State :=
  let s := (s.evictAll.entryFlush true).sleepAll.holdAll
  let off := s.flag R.PWR_CTL_RAILOFF || s4
  let s := ((s.tbLatch rtc).fabLose.embersOff).set R.PWR_DOM_ON_ON_DOM 0
  let s := s.regsFilter fun _ f => f.kept &&& 256 != 0 || f.isIn s3Fields
  let s := s.set R.PWR_STAT_STATE 3
  let s := { s with pwr := { s.pwr with s4, sustained := false, bucket := 0, below := 0, cool := 0, crit := false, temps := [] } }
  if off then { s.emit (.pin "PWR_EN" 0) with pwr := { s.pwr with s4, powerGood := false } } else s

/-- S2: retention. -/
def State.enterS2 (s : State) : State := (s.entryFlush false).embersOff.set R.PWR_STAT_STATE 2

/-- The entry is complete; a trip that came during it starts the exit at once (R413). `rtc` is the RTC count TBASE is latched
with. -/
def State.entryDone (s : State) (rtc : Nat) : State :=
  match s.pwr.entry with
  | none => s
  | some e =>
    let s := { s with pwr := { s.pwr with entry := none, drains := [] } }
    let s := (s.set R.PWR_STAT_ENTERING 0).set R.PWR_LAT_ENTRY (min 0xFFFF ((s.tb - e.t0) / usC))
    let s := if e.target = 2 then s.enterS2 else s.enterS3 rtc (e.target == 4)
    if e.target ≠ 4 && s.flag R.FUM_WSRC_ENTRYWAKE then s.exitStart else s

def execStateEntryComplete (rtc : BitVec 48) (s : State) : Host.Outcome State Fault Refusal := .next (s.entryDone rtc.toNat)

/-! ## S1 (R525, R526) -/

/-- The conditions of R525 that the state shows; their duration and the quiet of the links are the event's. -/
def State.s1Quiet (s : State) : Bool :=
  s.pwrQuiet % 64 == 63 && !(List.range 2).any (fun c => s.flag R.DCO_C_CTL_EN c) && !(List.range 4).any (fun p => s.flag R.CIF_P_CTL_EN p) &&
  !(List.range 4).any fun n => s.get R.TXN_S_STAT_STATE n == 2

def execS1Entry (s : State) : Host.Outcome State Fault Refusal :=
  .next (if s.flag R.PWR_CTL_S1EN && s.get R.PWR_STAT_STATE = 0 && s.pwr.entry.isNone && s.ready && !s.pwr.tripped && s.s1Quiet then
      s.set R.PWR_STAT_STATE 1 else s)

def execS1Exit (s : State) : Host.Outcome State Fault Refusal := .next s.wakeS1

/-! ## Reaching S0 (R533, R534) -/

/-- What every exit to S0 from S2 and S3 does. -/
def State.reachS0 (s : State) (us : Nat) : State :=
  let s := ((s.set R.PWR_STAT_STATE 0).set R.PWR_STAT_EXITING 0).set R.PWR_LAT_EXIT (min 0xFFFF us)
  let s := { s with pwr := { s.pwr with exit := none }, own := { s.own with leaseEnd := s.tb + 100 * msC } }
  ((s.telAdd 8 1).rtcCapture.eclkUpdate).pwrEvt R.PWR_EVT_WAKE

/-- WAKE to every reachable die (R520): byte 0 holds the state left. -/
def State.wakeDies (s : State) (left : Nat) : State :=
  (List.range 8).foldl (fun s d => if d ≠ s.die && s.mgmtReach d then s.mgmt d 0x0A [left] else s) s

/-- The exit from S2 is complete. -/
def State.exitS2 (s : State) : State :=
  match s.pwr.exit with
  | some (t, 2) =>
    let s := (s.stateLeft 128).padUpdate
    ((s.reachS0 ((s.tb - t) / usC)).wakeDies 2).padLevels
  | _ => s

/-- The digest of the running Warden image equals the one retained (R583). -/
def State.resumeOk (s : State) : Bool :=
  s.boot.retained.any fun r => r.warden == s.imageDigest s.boot.warden

/-- The resume path's breadcrumbs and registers: ROM, IMAGE, WARDEN, READY. -/
def State.resume (s : State) : State :=
  let s := [1, 5, 6, 21].foldl (fun (s : State) st => (s.crumb st 1 (s.histOf st).1 0 0).crumb st 2 (s.histOf st).1 0 0) s
  let s := ((s.set R.BOOT_STAT_PHASE 3).set R.BOOT_STAT_STEP 21).set R.BOOT_STAT_ENTRY 5
  s.set R.BOOT_READY_TB_TBASE s.tb

/-- The exit from S3 is complete: `rtc` is the RTC count at which TBASE resumes, `us` the duration that PWR_LAT shows, `env` what
the flash and the link answer. -/
def State.exitS3 (s : State) (rtc us : Nat) (env : BootEnv) : State :=
  match s.pwr.exit with
  | some (_, 3) =>
    if s.pwr.tripped || !s.domOn 0 || s.pwr.ramps.contains 6 || s.pwr.ramps.contains 7 then s
    else
      let t0 := s.cru.latTb
      let s := (s.set R.CRU_RPLL_STAT_LOCK 1).tbCarry rtc
      let s := (s.telAdd 4 (s.tb - t0)).sinWayInit
      let s := [R.PAD_HOLD_STAT_HIF, R.PAD_HOLD_STAT_MEM, R.PAD_HOLD_STAT_BOOT].foldl (fun s f => s.set f 0) s
      let s := { s with boot := { s.boot with env := { env with straps := s.boot.env.straps } } }
      let s := s.tbFree
      if s.resumeOk || s.wardenOk s.boot.warden then
        let s := match env.link with
          | some (sp, w) => if s.domOn 7 then ((s.set R.HIF_STAT_LINKUP 1).set R.HIF_STAT_SPEED sp).set R.HIF_STAT_WIDTH w else s
          | none => s
        let s := { (s.resume.padUpdate) with chl := { s.chl with wake := [0, 1, 2] } }
        let s := if s.flag R.WDT_STAT_HW then s.wdtKick else s
        ((s.reachS0 us).fltWake).padLevels
      else
        let s := { (s.set R.PWR_STAT_STATE 0).set R.PWR_STAT_EXITING 0 with pwr := { s.pwr with exit := none } }
        (s.bringUp 5 env).fltWake
  | _ => s

def execS3ExitComplete (rtc : BitVec 48) (us : BitVec 16) (env : BootEnv) (s : State) : Host.Outcome State Fault Refusal :=
  .next (s.exitS3 rtc.toNat us.toNat env)

/-- PWR_GOOD rises: an S3 exit that waited for it closes FAB's switch. -/
def execPwrGoodRise (s : State) : Host.Outcome State Fault Refusal :=
  .next (
    let w := s.pwr.waitGood
    let s := { s with pwr := { s.pwr with powerGood := true, waitGood := false } }
    if w then s.rampOn 0 else s)

/-- PWR_GOOD has not risen in 10 ms: handled as a FAB abort with cause RAILS (R536). -/
def execPwrGoodTimeout (s : State) : Host.Outcome State Fault Refusal :=
  .next (if s.pwr.waitGood then
      let s := { s with pwr := { s.pwr with waitGood := false, ramps := 0 :: s.pwr.ramps } }
      s.rampFail 0 4
    else s)

/-! ## Power budget (R541 to R543) -/

/-- Sustained and burst cap of the profile in mW. -/
def State.profCaps (s : State) : Nat × Nat :=
  match s.get R.CHIP_ID_VARIANT with
  | 0 => (1400, 2200)
  | 1 => (4000, 4000)
  | _ => (9000, 9000)

/-- The caps in force: sustained, burst. -/
def State.caps (s : State) : Nat × Nat :=
  let c := s.profCaps
  let su := min c.1 (s.get R.PWR_CAP_SUS)
  (su, max su (min c.2 (s.get R.PWR_CAP_BURST)))

/-- CAPSTEP changes. -/
def State.capStep (s : State) (n : Nat) : State :=
  (if n = s.get R.PWR_LIMIT_CAPSTEP then s else (s.set R.PWR_LIMIT_CAPSTEP n).pwrEvt R.PWR_EVT_CAP).eclkUpdate

/-- A measurement of p mW: the bucket (in 100 nJ), the limit mode, CAPSTEP. -/
def State.measure (s : State) (p : Nat) : State :=
  let c := s.caps
  let emax := (c.2 - c.1) * 2000
  let e := s.pwr.bucket + p - min (s.pwr.bucket + p) c.1
  let sus := if e ≥ emax then true else if 2 * e ≤ emax then false else s.pwr.sustained
  let lim := if sus then c.1 else c.2
  let below := if 10 * p < 9 * lim then s.pwr.below + 1 else 0
  let s := ((s.set R.PWR_MEAS_P p).set R.PWR_BUCKET_E (e / 10)).telAdd 0 p
  let s := { s with pwr := { s.pwr with bucket := e, sustained := sus, below := if below ≥ 100 then 0 else below } }
  let step := s.get R.PWR_LIMIT_CAPSTEP
  if p > lim then
    let s := s.capStep (min 7 (step + 1))
    if s.get R.PWR_LIMIT_CAPSTEP = 7 && !s.flag R.PWR_STAT_CAPSAT then
      (s.set R.PWR_STAT_CAPSAT 1).fault { cls := 8, cause := 5, d0 := p }
    else s
  else
    let s := s.set R.PWR_STAT_CAPSAT 0
    if below ≥ 100 then s.capStep (step - 1) else s

def execPowerMeasurement (p : BitVec 16) (s : State) : Host.Outcome State Fault Refusal := .next (s.measure p.toNat)

/-! ## Thermal control (R545, R546, R650) -/

/-- A thermal trip: every switch but AO opens at once. -/
def State.thermTrip (s : State) : State :=
  let s := (((s.set R.PWR_ABORTLOG_TB (s.tb % 2 ^ 32)).set R.PWR_ABORTLOG_CAUSE 3).set R.PWR_ABORTLOG_DOMAIN 15).set R.PWR_ABORTLOG_EMBER 0
  let s := (((s.fabLose.embersOff).set R.PWR_DOM_ON_ON_DOM 0).set R.CRU_RPLL_STAT_LOCK 0).set R.PWR_STAT_ENTERING 0
  { s.set R.PWR_STAT_EXITING 0 with
    mem := []
    pwr := { s.pwr with tripped := true, entry := none, exit := none, drains := [], ramps := [], waitGood := false } }

/-- A threshold as it acts: values above TRIP − 5 act as TRIP − 5. -/
def State.thermThr (s : State) (f : Field) : Int := 8 * (min (s.get f) (s.get R.PWR_THERM_TRIP - 5) : Nat)

/-- THSTEP changes. -/
def State.thStep (s : State) (n : Nat) : State :=
  (if n = s.get R.PWR_LIMIT_THSTEP then s else (s.set R.PWR_LIMIT_THSTEP n).pwrEvt R.PWR_EVT_THERM).eclkUpdate

/-- A reading of T, in 1/8 °C. -/
def State.thermRead (s : State) (t : Int) : State :=
  let throt := s.thermThr R.PWR_THERM_THROT
  let crit := decide (t ≥ s.thermThr R.PWR_THERM_CRIT)
  let was := s.pwr.crit
  let cool := if t ≤ throt - 40 then s.pwr.cool + 1 else 0
  let s := { s with pwr := { s.pwr with crit, cool := if cool ≥ 100 then 0 else cool } }
  let s := if crit && !was then s.fault { cls := 8, cause := 6, d0 := unsgn 16 t } else s
  let step := s.get R.PWR_LIMIT_THSTEP
  let s := if t ≥ throt then s.set R.PWR_STAT_THROT 1 else s
  let s := s.thStep (if crit then 7 else if t ≥ throt then min 7 (step + 1) else if cool ≥ 100 then step - 1 else step)
  if s.get R.PWR_LIMIT_THSTEP = 0 && t < throt then s.set R.PWR_STAT_THROT 0 else s

/-- Every 1 ms the controller reads T, the hottest sensor. -/
def execThermalControlRead (s : State) : Host.Outcome State Fault Refusal :=
  .next (if !s.flag R.THM_MAX_VALID || s.pwr.tripped then s
    else
      let t := sgn 16 (s.get R.THM_MAX_TEMP)
      if t ≥ 8 * (s.get R.PWR_THERM_TRIP : Int) then s.thermTrip else s.thermRead t)

/-- The hottest of the sensors read so far, the lowest-numbered of equals: source and reading. -/
def hottest (l : List (Nat × Nat)) : Option (Nat × Nat) :=
  l.foldl (fun b x => match b with
    | none => some x
    | some y => if sgn 16 y.2 < sgn 16 x.2 then some x else b) none

/-- A conversion of sensor k (R650), in S0 and S1: THM_EMBn for the sensor of the mapped Ember, THM_SITEk, THM_MAX. -/
def State.thermConv (s : State) (k t : Nat) : State :=
  if s.get R.PWR_STAT_STATE ≥ 2 || s.pwr.tripped then s
  else
    let temps := Cells.put s.pwr.temps k t
    let s := { s with pwr := { s.pwr with temps } }
    let s := if 18 ≤ k then (s.set R.THM_SITE_VALID 1 (k - 18)).set R.THM_SITE_TEMP t (k - 18)
      else match (List.range 16).find? fun n => s.physOf n == some k with
        | some n => (s.set R.THM_EMB_VALID 1 n).set R.THM_EMB_TEMP t n
        | none => s
    match hottest temps with
    | some (src, v) => ((s.set R.THM_MAX_VALID 1).set R.THM_MAX_SRC src).set R.THM_MAX_TEMP v
    | none => s

def execThermalSensorConversion (k : Fin 24) (t : BitVec 16) (s : State) : Host.Outcome State Fault Refusal :=
  .next (s.thermConv k t.toNat)

/-! ## Pad hold (R539) -/

/-- PAD_HOLD_REL, live: the GEN group is released. -/
def State.padRelease (s : State) : State :=
  if !s.flag R.PAD_HOLD_STAT_GEN then s
  else
    let t := { s.set R.PAD_HOLD_STAT_GEN 0 with pad := { s.pad with held := none } }
    t.padUpdate.padDriven s

def execPadHoldRelease (m : Master) (s : State) : Host.Outcome State Fault Refusal :=
  .next (s.ownerWrite m 0x400F00 1 false State.padRelease)

end Sys2Proof.Machine
end

