-- ==== Sys2Proof/Machine/RasterFn.lean ====
section
/-!
DEFINITION. The geometry of the tiled renderer (R333 to R335, R339 to R341): clipping, viewport, coverage, interpolation, depth
and stencil. Positions are exact rationals, or 1/256 pixels once snapped (log entry 33).
-/

namespace Sys2Proof.Machine

/-! ## Clipping (R333) -/

/-- A vertex in clip space with its varyings as FP32. -/
structure ClipV where
  x : Rat
  y : Rat
  z : Rat
  w : Rat
  vars : List Nat

/-- Viewport of an RP_STATE. -/
def stVp (st : List Nat) (i : Nat) : Rat := coordRat [i, 20] (fieldOf st (0x4C + 4 * i) 4)

/-- Vertex of an output record. -/
def clipV (rec : List Nat) (nvar : Nat) : ClipV :=
  let r := fun (i : Nat) => coordRat [i, 21] (fieldOf rec (4 * i) 4)
  { x := r 0, y := r 1, z := r 2, w := r 3, vars := (List.range (4 * nvar)).map fun i => fieldOf rec (16 + 4 * i) 4 }

/-- Every vertex lies outside one plane of the frustum. -/
def frustumCull (vs : List ClipV) : Bool :=
  vs.all (fun v => v.x < -v.w) || vs.all (fun v => v.x > v.w) || vs.all (fun v => v.y < -v.w) || vs.all (fun v => v.y > v.w) ||
  vs.all (fun v => v.z < 0) || vs.all (fun v => v.z > v.w)

/-- The planes of step 2, each as a distance that is not negative inside. -/
def clipPlanes (st : List Nat) : List (ClipV → Rat) :=
  let hw := stVp st 2 / 2
  let hh := stVp st 3 / 2
  [fun v => v.z, fun v => v.w - v.z,
   fun v => (v.x + v.w) * hw + 32768 * v.w, fun v => 32768 * v.w - (v.x + v.w) * hw,
   fun v => (v.y + v.w) * hh + 32768 * v.w, fun v => 32768 * v.w - (v.y + v.w) * hh]

/-- A value between two FP32 values. -/
def f32Mix (key : List Nat) (t : Rat) (a b : Nat) : Nat :=
  if f32Finite a && f32Finite b then f32Open (22 :: a :: b :: key) (f32Rat a + t * (f32Rat b - f32Rat a))
  else (Config.fixedBits 32 (23 :: a :: b :: key)).toNat

/-- The point of an edge on a plane, given both distances. -/
def clipMix (a b : ClipV) (da db : Rat) : ClipV :=
  let t := da / (da - db)
  let m := fun (x y : Rat) => x + t * (y - x)
  { x := m a.x b.x, y := m a.y b.y, z := m a.z b.z, w := m a.w b.w,
    vars := (a.vars.zip b.vars).map fun v => f32Mix [t.num.natAbs, t.den] t v.1 v.2 }

/-- Clip a polygon against one plane. -/
def clipPlane (d : ClipV → Rat) (vs : List ClipV) : List ClipV :=
  (vs.zip (vs.drop 1 ++ vs.take 1)).flatMap fun (a, b) =>
    let da := d a
    let db := d b
    (if da ≥ 0 then [a] else []) ++ (if (da ≥ 0) != (db ≥ 0) then [clipMix a b da db] else [])

/-- The fan of a polygon from its first vertex. -/
def fan (vs : List ClipV) : List (List ClipV) :=
  match vs with
  | v :: rest => (rest.zip (rest.drop 1)).map fun (a, b) => [v, a, b]
  | [] => []

/-! ## Triangles on the screen (R333 to R335) -/

/-- Depth or 1/w of a vertex as FP32; with w = 0 the spec gives none. -/
def overW (key : Nat) (n w : Rat) : Nat :=
  if w = 0 then (Config.fixedBits 32 [key, n.num.natAbs, n.den]).toNat
  else f32Open [key, n.num.natAbs, n.den, w.num.natAbs, w.den] (n / w)

/-- Viewport transform and snapping of one coordinate. -/
def snap (o size c w : Rat) : Int :=
  if w = 0 then sgn 24 (Config.fixedBits 24 [24, c.num.natAbs, c.den]).toNat
  else ratRne ((o + (c / w + 1) * size / 2) * 256)

/-- Twice the area, positive when clockwise on screen. -/
def triArea (xy : List (Int × Int)) : Int :=
  let p := fun (i : Nat) => xy.getD i (0, 0)
  ((p 1).1 - (p 0).1) * ((p 2).2 - (p 0).2) - ((p 2).1 - (p 0).1) * ((p 1).2 - (p 0).2)

/-- Steps 3 to 5 for a clipped triangle; none: discarded. -/
def screenTri (st : List Nat) (draw view : Nat) (t : List ClipV) : Option Prim :=
  let xy := t.map fun v => (snap (stVp st 0) (stVp st 2) v.x v.w, snap (stVp st 1) (stVp st 3) v.y v.w)
  let a := triArea xy
  let front := (a > 0) == bitB (stFlags st) 7
  let cull := bitsOf (stFlags st) 5 2
  if a = 0 || (cull = 1 && !front) || (cull = 2 && front) then none
  else some {
    draw, front, view, xy, z := t.map fun v => overW 25 v.z v.w, rw := t.map fun v => overW 26 1 v.w, vars := t.map (·.vars) }

/-- What a primitive becomes: up to 7 triangles, none when it is discarded. -/
def primTris (st : List Nat) (draw view : Nat) (vs : List ClipV) : List Prim :=
  if frustumCull vs then []
  else (fan ((clipPlanes st).foldl (fun vs d => clipPlane d vs) vs)).filterMap (screenTri st draw view)

/-! ## Coverage (R334) -/

/-- Edge function of a to b at p. -/
def edgeFn (a b p : Int × Int) : Int := (b.1 - a.1) * (p.2 - a.2) - (b.2 - a.2) * (p.1 - a.1)

/-- Inside an edge of a triangle of positive area: on it, only a top or a left edge covers. -/
def edgeIn (a b p : Int × Int) : Bool :=
  let e := edgeFn a b p
  e > 0 || (e = 0 && ((a.2 = b.2 && b.1 > a.1) || b.2 < a.2))

/-- A triangle covers a point. -/
def Prim.covers (t : Prim) (p : Int × Int) : Bool :=
  let v := fun (i : Nat) => t.xy.getD i (0, 0)
  let (b, c) := if triArea t.xy > 0 then (v 1, v 2) else (v 2, v 1)
  edgeIn (v 0) b p && edgeIn b c p && edgeIn c (v 0) p

/-- Sample positions in 1/16 pixel. -/
def samplePos (n i : Nat) : Nat × Nat :=
  match n with
  | 1 => (8, 8)
  | 2 => [(4, 4), (12, 12)].getD i (8, 8)
  | _ => [(6, 2), (14, 6), (2, 10), (10, 14)].getD i (8, 8)

/-- Sample i of a pixel in 1/256 pixel. -/
def sampleAt (n x y i : Nat) : Int × Int :=
  let (a, b) := samplePos n i
  ((256 * x + 16 * a : Nat), (256 * y + 16 * b : Nat))

/-- Samples of a pixel that a triangle covers, within the render area. -/
def Prim.cov (t : Prim) (body : List Nat) (x y : Nat) : Nat :=
  if x ≥ rpW body || y ≥ rpH body then 0
  else (List.range (rpSamples body)).foldl (fun m i => if t.covers (sampleAt (rpSamples body) x y i) then m + 2 ^ i else m) 0

/-- Tile columns and rows that a triangle's bounding box meets. -/
def Prim.box (t : Prim) (body : List Nat) : List (Nat × Nat) :=
  let (tw, th) := rpTile body
  let (gw, gh) := rpGrid body
  let lo := fun (l : List Int) (n : Nat) => (max 0 (l.foldl min (l.headD 0) / (256 * n))).toNat
  let hi := fun (l : List Int) (n g : Nat) => (min (g : Int) (l.foldl max (l.headD 0) / (256 * n) + 1)).toNat
  let xs := t.xy.map (·.1)
  let ys := t.xy.map (·.2)
  (List.range (hi ys th gh - lo ys th)).flatMap fun j => (List.range (hi xs tw gw - lo xs tw)).map fun i => (lo xs tw + i, lo ys th + j)

/-- Tiles of which a triangle covers at least one sample, as directory places within its view. -/
def Prim.tiles (t : Prim) (body : List Nat) : List Nat :=
  let (tw, th) := rpTile body
  ((t.box body).filter fun c => (List.range th).any fun j => (List.range tw).any fun i =>
    t.cov body (c.1 * tw + i) (c.2 * th + j) != 0).map fun c => c.2 * (rpGrid body).1 + c.1

/-! ## Interpolation (R334, R341) -/

/-- Weights of the vertices at a point. -/
def Prim.bary (t : Prim) (p : Int × Int) : List Rat :=
  let v := fun (i : Nat) => t.xy.getD i (0, 0)
  let a := triArea t.xy
  [mkRat (edgeFn (v 1) (v 2) p * a.sign) a.natAbs, mkRat (edgeFn (v 2) (v 0) p * a.sign) a.natAbs,
   mkRat (edgeFn (v 0) (v 1) p * a.sign) a.natAbs]

/-- Numbers that name a triangle and a point for what FP32 leaves open. -/
def Prim.key (t : Prim) (p : Int × Int) : List Nat :=
  (t.xy ++ [p]).flatMap (fun q => [unsgn 64 q.1, unsgn 64 q.2]) ++ t.z ++ t.rw

/-- Depth at a point, as FP32. -/
def Prim.depth (t : Prim) (p : Int × Int) : Nat :=
  if t.z.all f32Finite then f32Open (27 :: t.key p) (((t.bary p).zip t.z).foldl (fun n q => n + q.1 * f32Rat q.2) 0)
  else (Config.fixedBits 32 (28 :: t.key p)).toNat

/-- Component i of the varyings at a point, with perspective correction, as FP32. -/
def Prim.varying (t : Prim) (p : Int × Int) (i : Nat) : Nat :=
  let vs := t.vars.map fun v => v.getD i 0
  let ws := ((t.bary p).zip t.rw).map fun q => q.1 * f32Rat q.2
  let den := ws.foldl (· + ·) 0
  if den = 0 || !(t.rw ++ vs).all f32Finite then (Config.fixedBits 32 (29 :: i :: vs ++ t.key p)).toNat
  else f32Open (30 :: i :: vs ++ t.key p) ((ws.zip vs).foldl (fun n q => n + q.1 * f32Rat q.2) 0 / den)

/-! ## Primitive records and bin structures (R335) -/

/-- Bytes of a primitive's record, and of all records' units. -/
def Prim.record (t : Prim) (nvar : Nat) : List Nat :=
  toBytes 4 (t.draw % 2 ^ 16 + b2n t.front * 2 ^ 16 + t.view % 2 * 2 ^ 17) ++ toBytes 4 nvar ++ toBytes 8 0 ++
  ((List.range 3).flatMap fun i =>
    let p := t.xy.getD i (0, 0)
    toBytes 4 (unsgn 32 p.1) ++ toBytes 4 (unsgn 32 p.2) ++ toBytes 4 (t.z.getD i 0) ++ toBytes 4 (t.rw.getD i 0)) ++
  ((List.range nvar).flatMap fun k => (List.range 3).flatMap fun v => (List.range 4).flatMap fun c =>
    toBytes 4 ((t.vars.getD v []).getD (4 * k + c) 0))

/-- Bytes of the tile directory, up to the first chunk. -/
def dirBytes (body : List Nat) : Nat := (8 * rpTiles body * (rpViews body).length + 127) / 128 * 128

/-- Chunks that n entries take. -/
def chunksOf (n : Nat) : Nat := (n + 29) / 30

/-- Directory and chunks of all tiles, the chunks of a tile one after another in directory order (log entry 33). -/
def binBytes (body : List Nat) (bins : List (Nat × List Nat)) : List Nat :=
  let n := rpTiles body * (rpViews body).length
  let lists := (List.range n).map fun i => (bins.lookup i).getD []
  let starts := (lists.foldl (fun (a : List Nat × Nat) l => (a.1 ++ [a.2], a.2 + chunksOf l.length)) ([], dirBytes body / 128)).1
  let dir := (lists.zip starts).flatMap fun (l, o) => toBytes 4 (if l.isEmpty then 0xFFFFFFFF else o) ++ toBytes 4 l.length
  let chunks := (lists.zip starts).flatMap fun (l, o) => (List.range (chunksOf l.length)).flatMap fun c =>
    let es := (l.drop (30 * c)).take 30
    toBytes 4 (if c + 1 < chunksOf l.length then o + c + 1 else 0xFFFFFFFF) ++ toBytes 4 es.length ++
    es.flatMap (toBytes 4) ++ List.replicate (4 * (30 - es.length)) 0
  dir ++ List.replicate (dirBytes body - 8 * n) 0 ++ chunks

/-! ## Depth and stencil (R334, R339) -/

/-- What a triangle's test of a sample gives: whether it passes, and the bytes of depth and stencil it would write. -/
structure TvuHit where
  pass : Bool
  writes : List (Nat × Nat)

/-- Stencil operation. -/
def stencilOp (op old ref : Nat) : Nat :=
  match op with
  | 0 => old
  | 1 => 0
  | 2 => ref
  | 3 => min 255 (old + 1)
  | 4 => old - 1
  | 5 => 255 - old
  | 6 => (old + 1) % 256
  | _ => (old + 255) % 256

/-- Comparison of two numbers with the codes of DFUNC. -/
def natPass (f a b : Nat) : Bool :=
  match f with
  | 0 => false | 1 => a < b | 2 => a == b | 3 => a ≤ b | 4 => a > b | 5 => a != b | 6 => a ≥ b | _ => true

/-- Test sample i of pixel (x, y) of a tile against its tile memory; `p` is the sample on the screen. -/
def tvuTest (body st : List Nat) (k : Block) (t : Prim) (x y i : Nat) (p : Int × Int) : TvuHit :=
  let att := fun (n : Nat) => (rpLayout body).1.find? fun a => a.1.num == n
  let z := t.depth p
  let w := fieldOf st 0x48 4
  let ref := bitsOf w 0 8
  let rm := bitsOf w 8 8
  let sOld := match att 9 with | some a => (k.calGet (tileAddr body a x y i) 1).headD 0 | none => 0
  let sPass := !stStest st || natPass (bitsOf (stFlags st) 8 3) (ref &&& rm) (sOld &&& rm)
  let (dPass, dBytes) := match att 8 with
    | none => (true, [])
    | some a =>
      let n := fmtBytes a.1.fmt
      let old := ofBytes (k.calGet (tileAddr body a x y i) n)
      let new := if a.1.fmt = 0x20 then CompKind.put .unorm 16 z else z
      let ok := if a.1.fmt = 0x20 then natPass (stDfunc st) new old else depthPass (stDfunc st) (fromF new) (fromF old)
      (!stDtest st || ok, if stDwrite st && !stDexp st then (toBytes n new).zipIdx.map fun b => (tileAddr body a x y i + b.2, b.1) else [])
  let op := if !sPass then bitsOf (stFlags st) 12 3 else if !dPass then bitsOf (stFlags st) 15 3 else bitsOf (stFlags st) 18 3
  let m := bitsOf w 16 8
  let sBytes := match att 9 with
    | some a => if stStest st then [(tileAddr body a x y i, andNot sOld m ||| (stencilOp op sOld ref &&& m))] else []
    | none => []
  { pass := sPass && dPass, writes := sBytes ++ (if sPass && dPass then dBytes else []) }

/-- Bytes written to a block's tile memory. -/
def Block.calWrites (k : Block) (ws : List (Nat × Nat)) : Block := ws.foldl (fun (k : Block) w => k.calPut w.1 [w.2]) k

/-- The quads of a triangle from the samples of each pixel it won: pixel ↦ samples, and late writes. -/
def quadsOf (draw prim tw th : Nat) (won : List ((Nat × Nat) × Nat × List (Nat × Nat))) : List Quad :=
  (List.range (th / 2)).flatMap fun j => (List.range (tw / 2)).filterMap fun i =>
    let px := [(2 * i, 2 * j), (2 * i + 1, 2 * j), (2 * i, 2 * j + 1), (2 * i + 1, 2 * j + 1)]
    let w := px.map fun p => (won.lookup p).getD (0, [])
    if w.all fun x => x.1 == 0 then none
    else some { x := 2 * i, y := 2 * j, draw, prim, cov := w.map (·.1), late := w.map (·.2) }

/-- What a segment leaves: the block with depth and stencil written, the quads to shade, and samples covered but not won. -/
structure SegRes where
  blk : Block
  quads : List Quad
  hidden : Nat

/-- Pixels of a tile. -/
def tilePixels (tw th : Nat) : List (Nat × Nat) := (List.range th).flatMap fun y => (List.range tw).map fun x => (x, y)

/-- An ordered segment: one triangle (R339). -/
def orderedSeg (body st : List Nat) (k : Block) (tx ty idx : Nat) (t : Prim) : SegRes :=
  let n := rpSamples body
  let (tw, th) := rpTile body
  let r := (tilePixels tw th).foldl (fun (r : Block × List ((Nat × Nat) × Nat × List (Nat × Nat)) × Nat) p =>
    let c := t.cov body (tx + p.1) (ty + p.2)
    if c = 0 then r
    else
      let hits := ((List.range n).filter fun i => bitB c i).map fun i =>
        (i, tvuTest body st k t p.1 p.2 i (sampleAt n (tx + p.1) (ty + p.2) i))
      let m : Nat := (hits.filter fun h => h.2.pass).foldl (fun (m : Nat) h => m + 2 ^ h.1) 0
      let ws := hits.flatMap fun h => h.2.writes
      if m = 0 then (r.1.calWrites ws, r.2.1, r.2.2 + hits.length)
      else (r.1, r.2.1 ++ [(p, m, ws)], r.2.2 + (hits.length - (hits.filter fun h => h.2.pass).length))) (k, [], 0)
  { blk := r.1, quads := quadsOf t.draw idx tw th r.2.1, hidden := r.2.2 }

/-- An opaque segment: each triangle in order against the working depth and stencil; the last to pass wins a sample (R339). -/
def opaqueSeg (body : List Nat) (k : Block) (tx ty : Nat) (ts : List (Nat × Prim × List Nat)) : SegRes :=
  let n := rpSamples body
  let (tw, th) := rpTile body
  let r := (tilePixels tw th).foldl (fun (r : Block × List (Nat × (Nat × Nat) × Nat) × Nat) p =>
    (List.range n).foldl (fun (r : Block × List (Nat × (Nat × Nat) × Nat) × Nat) i =>
      let q := ts.foldl (fun (q : Block × Option Nat × Nat) t =>
        if bitB (t.2.1.cov body (tx + p.1) (ty + p.2)) i then
          let h := tvuTest body t.2.2 q.1 t.2.1 p.1 p.2 i (sampleAt n (tx + p.1) (ty + p.2) i)
          (q.1.calWrites h.writes, if h.pass then some t.1 else q.2.1, q.2.2 + 1)
        else q) (r.1, none, 0)
      match q.2.1 with
      | some w => (q.1, (w, p, i) :: r.2.1, r.2.2 + (q.2.2 - 1))
      | none => (q.1, r.2.1, r.2.2 + q.2.2)) r) (k, [], 0)
  let quads := ts.flatMap fun t =>
    let mine := r.2.1.filter fun w => w.1 == t.1
    let px := (mine.map (·.2.1)).eraseDups
    quadsOf t.2.1.draw t.1 tw th (px.map fun p => (p, ((mine.filter fun w => w.2.1 == p).foldl (fun m w => m + 2 ^ w.2.2) 0, [])))
  { blk := r.1, quads, hidden := r.2.2 }

/-! ## Images of attachments (R328, R337, R344, R346) -/

/-- VA of sample i of pixel (x, y) of an attachment's image; the samples of a pixel stand side by side (log entry 33). -/
def Att.imageVa (a : Att) (base view x y smp n : Nat) : Nat :=
  let b := fmtBytes a.fmt
  let o := if a.linear then y * a.pitch + (x * n + smp) * b else blockLinear b (a.iw * n) (x * n + smp) y
  (base + (if view = 1 then a.vstride * 65536 else 0) + o) % 2 ^ 64

/-- Elements of an attachment's tile that lie in the image: VA, offset in the attachment's tile memory. `clip`: also within
twice the render area, for a SCALE2 attachment. -/
def Att.elements (a : Att) (body : List Nat) (base view tx ty n : Nat) (clip : Bool) : List (Nat × Nat) :=
  let (w, h, s) := a.dims body
  let (ox, oy) := if a.scale2 then (2 * tx, 2 * ty) else (tx, ty)
  (List.range h).flatMap fun y => (List.range w).flatMap fun x =>
    if ox + x ≥ a.iw || oy + y ≥ a.ih || (clip && a.scale2 && (ox + x ≥ 2 * rpW body || oy + y ≥ 2 * rpH body)) then []
    else (List.range n).map fun i => (a.imageVa base view (ox + x) (oy + y) i n, ((y * w + x) * s + i) * fmtBytes a.fmt)

/-- Join elements of b bytes that follow one another both in memory and in the tile: VA, offset, bytes. -/
def joinRuns (b : Nat) (l : List (Nat × Nat)) : List (Nat × Nat × Nat) :=
  (l.foldl (fun (r : List (Nat × Nat × Nat)) e => match r with
    | (va, o, n) :: rest => if va + n = e.1 && o + n = e.2 then (va, o, n + b) :: rest else (e.1, e.2, b) :: r
    | [] => [(e.1, e.2, b)]) []).reverse

/-- The average of a pixel's samples: a mean in FP32 for colour, rounded to the format; sample 0 for integers, depth and stencil
(R344). -/
def Att.average (a : Att) (els : List Nat) : Nat :=
  if a.num ≥ 8 || fmtUint a.fmt then els.headD 0
  else ([0, 1, 2, 3] : List Nat).foldl (fun el c =>
    if ((fmtComps a.fmt).getD []).any fun x => x.ch == c then
      let vs := els.map fun e => elemCh a.fmt e c
      let v := if vs.all f32Finite then f32Open (34 :: vs) (vs.foldl (fun n v => n + f32Rat v) 0 / (els.length : Rat))
        else (Config.fixedBits 32 (35 :: vs)).toNat
      elemSet a.fmt el c v
    else el) 0

end Sys2Proof.Machine
end

