-- ==== Sys2Proof/Machine/Raster.lean ====
section
/-!
DEFINITION. Render passes (R325, R326, R332, R333, R335 to R344): the packets of a pass, vertex batches, binning, spills, tile
blocks, segments, fragment cohorts, tile kernels, resolve.
-/

namespace Sys2Proof.Machine

def State.gfxOn (s : State) : Bool := s.domOn 1

/-- Count n events in a 64-bit counter. -/
def State.gfxCount (s : State) (f : Field) (n : Nat) : State := if n = 0 then s else s.set f (s.get f + n)

/-! ## Packets of a pass (R325, R326) -/

/-- Binning of a pass is over: its RP_END has come and every draw has been binned. -/
def Pass.binDone (p : Pass) : Bool := p.phase == .bin && p.endPk.isSome && p.draw ≥ p.draws.length && p.batch.isNone

/-- The pass whose binning phase runs. -/
def State.binPass (s : State) : Option Pass := s.gfx.passes.find? fun p => p.phase != .final && !p.binDone && !p.stop

/-- The queue of a pass is resident. -/
def State.passLive (s : State) (p : Pass) : Bool := (s.q? p.q).any fun x => x.slot.isSome && !x.evict
def State.passSlot (s : State) (p : Pass) : Nat := ((s.q? p.q).bind (·.slot)).getD 0xFF

/-- No Ember is left to a pass (R317): it is abandoned. -/
def State.passLost (s : State) (p : Pass) : State :=
  let s := s.fault { cls := 5, cause := 8, src := s.passSlot p, d0 := p.q + p.subid * 2 ^ 32, d1 := p.off + 0x20 * 2 ^ 32 }
  let s := p.draws.foldl (fun (s : State) d => match s.pk? d.pk with
    | some k => s.pkPut { k with stage := .done }
    | none => s) s
  (s.passPut { p with err := if p.err = 0 then 10 else p.err, stop := true }).passCheck p.id

/-- RP_BEGIN opens a pass once no other is binning. -/
def execRpBegin (id : BitVec 32) (s : State) : Host.Outcome State Fault Refusal :=
  .next (s.pkRun id.toNat 0x20 fun s p =>
    if !s.gfxOn || s.binPass.isSome then s
    else
      let prio := ((s.q? p.q).map (·.prio)).getD 3
      let x : Pass := { id := p.id, q := p.q, prio, subid := s.pkSubid p, off := p.off, body := p.bytes }
      let s := { s with gfx := { s.gfx with passes := s.gfx.passes ++ [x] } }
      let s := s.pkPut { p with stage := .done }
      if (s.inPlace (rpEmask p.bytes)).isEmpty then s.passLost x else s)

/-- Run a packet of a pass after the pass's earlier ones; of a pass that is gone or abandoned it is complete at once. -/
def State.passRun (s : State) (id t : Nat) (f : State → Pkt → Pass → State) : State :=
  s.pkRun id t fun s p =>
    if s.wsp.win.any fun x => x.pass == p.pass && x.id < p.id && x.stage == .committed then s
    else match s.pass? p.pass with
      | none => s.pkPut { p with stage := .done }
      | some x => f s p x

/-- RP_STATE sets the pipeline of the draws that follow. -/
def execRpState (id : BitVec 32) (s : State) : Host.Outcome State Fault Refusal :=
  .next (s.passRun id.toNat 0x21 fun s p x => (s.passPut { x with st := p.bytes }).pkPut { p with stage := .done })

/-- RP_DRAW joins the draws of its pass; it completes when its primitives have been binned. -/
def execRpDraw (id : BitVec 32) (s : State) : Host.Outcome State Fault Refusal :=
  .next (s.passRun id.toNat 0x22 fun s p x =>
    if x.stop then s.pkPut { p with stage := .done }
    else (s.passPut { x with draws := x.draws ++ [{ pk := p.id, body := p.bytes, st := x.st }] }).pkPut { p with stage := .running })

/-- RP_END closes the pass; it completes after the last tile. -/
def execRpEnd (id : BitVec 32) (s : State) : Host.Outcome State Fault Refusal :=
  .next (s.passRun id.toNat 0x23 fun s p x =>
    let kern := if fieldOf p.bytes 0x10 8 = 0 then [] else p.bytes
    ((s.passPut { x with endPk := some p.id, kern }).pkPut { p with stage := .running }).passCheck x.id)

/-! ## Batches (R332) -/

def drIbuf (b : List Nat) : Nat := fieldOf b 0x10 8
def drCount (b : List Nat) : Nat := fieldOf b 0x18 4
def drInst (b : List Nat) : Nat := fieldOf b 0x1C 4
def drFirst (b : List Nat) : Nat := fieldOf b 0x20 4
def drWide (b : List Nat) : Bool := bitB (fieldOf b 0x28 4) 0
def drStrip (b : List Nat) : Bool := bitsOf (fieldOf b 0x28 4) 1 2 == 1
def drRestart (b : List Nat) : Bool := bitB (fieldOf b 0x28 4) 3 && drStrip b && drIbuf b != 0

/-- Words of a draw's UDATA, for u8 to u11. -/
def drUdata (b : List Nat) : List (Nat × Nat) := (List.range 4).map fun i => (8 + i, fieldOf b (0x30 + 4 * i) 4)

/-- No primitive of the draw begins at or after an index. -/
def drDone (b : List Nat) (i : Nat) : Bool := i + 3 > drCount b

/-- Primitives from an index on, out of the index values that follow it: their indices, the next index, where its strip began.
Every other triangle of a strip is turned over (log entry 33). -/
def batchGo (b : List Nat) (ones : Nat) : Nat → List Nat → Nat → Nat → List (List Nat) → List (List Nat) × Nat × Nat
  | 0, _, i, st, out => (out, i, st)
  | fuel + 1, w, i, st, out =>
    if out.length = 32 || drDone b i then (out, i, st)
    else match w with
      | x :: y :: z :: rest =>
        if drStrip b then
          if drRestart b && x = ones then batchGo b ones fuel (y :: z :: rest) (i + 1) (i + 1) out
          else if drRestart b && y = ones then batchGo b ones fuel (z :: rest) (i + 2) (i + 2) out
          else if drRestart b && z = ones then batchGo b ones fuel rest (i + 3) (i + 3) out
          else batchGo b ones fuel (y :: z :: rest) (i + 1) st (out ++ [if (i - st) % 2 = 0 then [x, y, z] else [y, x, z]])
        else batchGo b ones fuel rest (i + 3) st (out ++ [[x, y, z]])
      | _ => (out, i, st)

/-- Index values of a draw from position i: up to n; none while the read waits. -/
def State.drIndices (s : State) (p : Pass) (b : List Nat) (i n : Nat) (ext : List Host.Cell) : State × Option (List Nat) :=
  let n := min n (drCount b - i)
  let sz := if drWide b then 4 else 2
  if drIbuf b = 0 then (s, some ((List.range n).map fun j => (drFirst b + i + j) % 2 ^ 32))
  else match s.vaGet .binner [13, p.id, 0] (s.passSlot p) .load ((drIbuf b + sz * (drFirst b + i)) % 2 ^ 64) (sz * n) ext with
    | (s, .wait) => (s, none)
    | (s, .fail) => (s.workFail p.id 2 false, some (List.replicate n (2 ^ (8 * sz) - 1)))
    | (s, .ok bs) => (s, some (groupsOf n sz bs))

/-- The position after an instance of a view of a draw. -/
def Pass.advance (p : Pass) (d : List Nat) : Pass :=
  let p := { p with prim := 0, strip := 0 }
  if p.inst + 1 < drInst d then { p with inst := p.inst + 1 }
  else if p.view + 1 < (rpViews p.body).length then { p with inst := 0, view := p.view + 1 }
  else { p with inst := 0, view := 0, draw := p.draw + 1 }

/-- Move past an instance whose primitives have all been binned; a draw that is through completes its packet. -/
def State.passNext (s : State) (p : Pass) : State :=
  match p.draws[p.draw]? with
  | none => s.passPut p
  | some d =>
    if !drDone d.body p.prim || p.batch.isSome then s.passPut p
    else
      let p' := p.advance d.body
      let s := s.passPut p'
      if p'.draw = p.draw then s
      else match s.pk? d.pk with
        | some k => s.pkPut { k with stage := .done }
        | none => s

/-- Bytes of a vertex output record. -/
def vertRec (st : List Nat) : Nat := 16 * (1 + stNvar st)

/-- What a vertex cohort is given (R332): its threads' vertices are verts 32 j on. -/
def State.vertInfo (s : State) (p : Pass) (d : Draw) (c : Batch) (j : Nat) : LInfo :=
  let st := d.st
  let va := c.base + 32 * j * vertRec st
  let view := ((rpViews p.body)[p.view]?).getD 0
  { kind := .vertex, pk := p.id, stream := s.passSlot p, prio := p.prio, entry := fieldOf st 0x10 8, cbuf := fieldOf st 0x20 8,
    csize := fieldOf st 0x28 4, n := stVN st, text := fieldOf st 0x30 8, samt := fieldOf st 0x38 8, ntex := fieldOf st 0x40 2,
    nsamp := fieldOf st 0x42 2, dx := min 32 (c.verts.length - 32 * j), view
    udata := [(0, va % 2 ^ 32), (1, va / 2 ^ 32 % 2 ^ 32), (2, p.draw), (3, view)] ++ drUdata d.body }

/-- Place the vertex cohorts of the batch that have not been placed, as far as Embers have room. -/
def State.vertPlace (s : State) (p : Pass) (d : Draw) (c : Batch) : Nat → State
  | 0 => s
  | fuel + 1 =>
    let j := c.placed
    if 32 * j ≥ c.verts.length then s
    else
      let i := s.vertInfo p d c j
      match s.chooseEmb (s.emask (rpEmask p.body)) i with
      | some e =>
        let b := (s.em e).freeBlock
        let s := s.placeBlock e i 0 0 0 [] none
        let fill := fun (k : Block) => k.cohMod 0 fun q => (List.range i.dx).foldl (fun (q : Cohort) l =>
          (q.vSet 0 l ((c.verts.getD (32 * j + l) 0 + fieldOf d.body 0x24 4) % 2 ^ 32)).vSet 1 l p.inst) q
        let s := match b with | some b => s.blkMod e b fill | none => s
        let c := { c with placed := j + 1, live := c.live + 1 }
        let p := { p with batch := some c }
        (s.passPut p).vertPlace p d c fuel
      | none =>
        let es := s.inPlace (rpEmask p.body)
        if es.isEmpty then s.passLost p
        else match s.offEmbers es with
          | e :: _ => s.embPowerOn e
          | [] => s

/-- The next batch of the binning pass: its primitives are assembled and its vertices given to cohorts. `ext` holds, by VA, the
bytes of indices in other memory. -/
def State.vertexBatch (s : State) (ext : List Host.Cell) : State :=
  match s.binPass with
  | none => s
  | some p =>
    if p.phase != .bin || !s.gfxOn || !s.passLive p then s
    else match p.draws[p.draw]? with
      | none => s
      | some d => match p.batch with
        | some c => s.vertPlace p d c 4
        | none =>
          if drDone d.body p.prim then s.passNext p
          else match s.drIndices p d.body p.prim 128 ext with
            | (s, none) => s
            | (s, some w) =>
              let ones := if drWide d.body then 2 ^ 32 - 1 else 2 ^ 16 - 1
              let (prims, i, st) := batchGo d.body ones 128 w p.prim p.strip []
              let p := (s.pass? p.id).getD p
              let p := { p with prim := i, strip := st }
              if prims.isEmpty then s.passNext p
              else
                let verts := prims.flatten.eraseDups
                let n := verts.length * vertRec d.st
                let o := if p.ring + n > fieldOf p.body 0x30 4 * 4096 then 0 else p.ring
                let c : Batch := {
                  prims := prims.map fun t => t.map fun v => verts.idxOf v, verts, base := (fieldOf p.body 0x20 8 + o) % 2 ^ 64 }
                let p := { p with batch := some c, ring := o + n }
                (s.passPut p).vertPlace p d c 4

def execVertexBatch (ext : List Host.Cell) (s : State) : Host.Outcome State Fault Refusal := .next (s.vertexBatch ext)

/-! ## Binning (R333, R335, R336) -/

/-- Units of 16 bytes that a primitive record takes. -/
def recUnits (st : List Nat) : Nat := 4 + 3 * stNvar st

/-- Put a triangle in the bins of its tiles. -/
def binAdd (bins : List (Nat × List Nat)) (tiles : List Nat) (i : Nat) : List (Nat × List Nat) :=
  tiles.foldl (fun b t => Cells.put b t ((b.lookup t).getD [] ++ [i])) bins

/-- What binning the batch's next primitive needs and gives: its triangles with their tiles, whether it was discarded, and the
pass with them binned. -/
structure BinStep where
  culled : Bool
  used : Bool
  pass : Pass
  fits : Bool

def Pass.binStep (p : Pass) (d : Draw) (vs : List ClipV) : BinStep :=
  let nv := (rpViews p.body).length
  let view := ((rpViews p.body)[p.view]?).getD 0
  let ts := (primTris d.st p.draw view vs).map fun t => (t, t.tiles p.body)
  let ts' := ts.filter fun t => !t.2.isEmpty
  let p' := ts'.foldl (fun (p : Pass) t => { p with
    prims := p.prims ++ [t.1], offs := p.offs ++ [p.primEnd], primEnd := p.primEnd + recUnits d.st
    bins := binAdd p.bins (t.2.map fun i => p.view * rpTiles p.body + i) p.prims.length }) p
  let chunks := p'.bins.foldl (fun n b => n + chunksOf b.2.length) 0
  { culled := ts.isEmpty, used := !ts'.isEmpty, pass := p',
    fits := p'.primEnd * 16 ≤ fieldOf p.body 0x2C 4 * 4096 && dirBytes p.body + 128 * chunks ≤ fieldOf p.body 0x28 4 * 4096 && nv ≠ 0 }

/-- Read the vertices of the batch's next primitive; none while a read waits. -/
def State.batchVerts (s : State) (p : Pass) (d : Draw) (c : Batch) (t : List Nat) (ext : List Host.Cell) :
    State × Option (List ClipV) :=
  let n := vertRec d.st
  t.foldl (fun (r : State × Option (List ClipV)) i =>
    match r.1.vaGet .binner [13, p.id, 1, i] (r.1.passSlot p) .load ((c.base + i * n) % 2 ^ 64) n ext with
    | (s, .wait) => (s, none)
    | (s, .fail) => (s.workFail p.id 2 false, r.2.map (· ++ [clipV (List.replicate n 255) (stNvar d.st)]))
    | (s, .ok bs) => (s, r.2.map (· ++ [clipV bs (stNvar d.st)]))) (s, some [])

/-- The binning pass has a batch whose vertices are shaded; its next primitive. -/
def State.binReady (s : State) : Option (Pass × Draw × Batch × List Nat) :=
  match s.binPass with
  | none => none
  | some p => match p.draws[p.draw]?, p.batch with
    | some d, some c =>
      if p.phase == .bin && s.gfxOn && s.passLive p && 32 * c.placed ≥ c.verts.length && c.live = 0
      then (c.prims[c.next]?).map fun t => (p, d, c, t) else none
    | _, _ => none

/-- The pass after its batch's next primitive, or after the whole batch. -/
def Pass.batchStep (p : Pass) (all : Bool) : Pass :=
  match p.batch with
  | none => p
  | some c => if all || c.next + 1 ≥ c.prims.length then { p with batch := none } else { p with batch := some { c with next := c.next + 1 } }

/-- Bin one primitive. A batch that lost a block is not binned. -/
def State.binPrim (s : State) (ext : List Host.Cell) : State :=
  match s.binReady with
  | none => s
  | some (p, d, c, t) =>
    if c.failed then s.passNext (p.batchStep true)
    else match (s.sinAcquire true).batchVerts p d c t ext with
      | (s, none) => s
      | (s, some vs) =>
        let p := (s.pass? p.id).getD p
        let r := p.binStep d vs
        if !r.fits then s
        else
          let s := if r.culled then s.gfxCount R.GFX_CULLED_COUNT 1 else if r.used then s.gfxCount R.GFX_PRIMS_COUNT 1 else s
          s.passNext (r.pass.batchStep false)

def execPrimitiveBinning (ext : List Host.Cell) (s : State) : Host.Outcome State Fault Refusal := .next (s.binPrim ext)

/-- Tile phases that run. -/
def State.tiling (s : State) : Nat := (s.gfx.passes.filter fun p => p.phase != .bin).length

/-- Buffers that cannot take the next primitive make the pass spill (R336). -/
def State.binSpill (s : State) (ext : List Host.Cell) : State :=
  match s.binReady with
  | none => s
  | some (p, d, c, t) =>
    if c.failed || s.tiling ≥ 2 then s
    else match s.batchVerts p d c t ext with
      | (s, none) => s
      | (s, some vs) =>
        let p := (s.pass? p.id).getD p
        if (p.binStep d vs).fits then s
        else (s.incSat R.GFX_SPILLS_COUNT).passPut { p with phase := .spill, spills := p.spills + 1, tile := 0, done := 0 }

def execBinSpill (ext : List Host.Cell) (s : State) : Host.Outcome State Fault Refusal := .next (s.binSpill ext)

/-! ## Tiles (R336 to R338) -/

/-- Write bytes for a pass by VA; none while a translation waits. A fault fails the pass with TRANSLATION and writes nothing. -/
def State.passWrite (s : State) (p : Pass) (tag va : Nat) (bs : List Nat) : State × Bool :=
  let r := { s with chl := { s.chl with who := p.id } }.vaPut (if tag < 8 then .binner else .resolve) [13, p.id, tag]
    (s.passSlot p) .store va bs
  match { r.1 with chl := { r.1.chl with who := 0 } }, r.2 with
  | s, .wait => (s, false)
  | s, .fail => (s.workFail p.id 2 false, true)
  | s, .ok _ => (s, true)

/-- The final tile phase begins: the bin structures go to memory. -/
def State.startFinal (s : State) (p : Pass) : State :=
  match s.passWrite p 2 (fieldOf p.body 0x10 8) (binBytes p.body (p.bins.map fun b => (b.1, b.2.map fun i => p.offs.getD i 0))) with
  | (s, false) => s
  | (s, true) =>
    let recs := p.prims.flatMap fun t => t.record (((p.draws[t.draw]?).map fun d => stNvar d.st).getD 0)
    match (if recs.isEmpty then (s, true) else s.passWrite p 3 (fieldOf p.body 0x18 8) recs) with
    | (s, false) => s
    | (s, true) => s.passPut { (s.pass? p.id).getD p with phase := .final, tile := 0, done := 0 }

/-- Passes by priority, then in the order of their commits. -/
def State.passOrder (s : State) : List Pass := sortBy (fun a b => a.prio < b.prio || (a.prio == b.prio && a.id ≤ b.id)) s.gfx.passes

/-- Tile blocks on an Ember, of any pass or of one. -/
def Ember.tileCount (x : Ember) (id : Option Nat) : Nat :=
  (x.blocks.filter fun b => b.2.info.kind == .fragment && (match id with | some i => b.2.info.pk == i | none => true)).length

/-- An Ember has a tile place for a pass (R337, R338). -/
def State.tileRoom (s : State) (p : Pass) (e : Nat) : Bool :=
  let x := s.em e
  let m := rpTileMem p.body
  s.embTakes e && x.freeBlock.isSome && x.tileCount (some p.id) < min 2 (s.calRes / m) && x.tileUsed + m ≤ s.calRes

/-- The Ember that takes a pass's next tile. -/
def State.chooseTile (s : State) (p : Pass) : Option Nat :=
  ((s.emask (rpEmask p.body)).filter (s.tileRoom p)).foldl (fun b e => match b with
    | none => some e
    | some c => if (s.em e).tileCount none < (s.em c).tileCount none then some e else some c) none

/-- Origin of a tile in pixels, and its view. -/
def Pass.tileAt (p : Pass) (i : Nat) : Nat × Nat × Nat :=
  let j := i % rpTiles p.body
  let (tw, th) := rpTile p.body
  (j % (rpGrid p.body).1 * tw, j / (rpGrid p.body).1 * th, ((rpViews p.body)[i / rpTiles p.body]?).getD 0)

/-- How an attachment is loaded: as LOAD states the first time, from memory after a spill (R336). -/
def Pass.loadOf (p : Pass) (a : Att) : Nat :=
  if p.phase == .spill then (if p.spills ≤ 1 then a.load else 0) else if p.spills = 0 then a.load else 0

/-- Replace bytes of a list. -/
def splice (l : List Nat) (o : Nat) (bs : List Nat) : List Nat := l.take o ++ bs ++ l.drop (o + bs.length)

/-- Bytes as Caldera cells. -/
def calCells (l : List Nat) : List (Nat × BitVec 8) :=
  (l.zipIdx.filter fun b => b.1 % 256 ≠ 0).map fun b => (b.2, BitVec.ofNat 8 b.1)

/-- Contents of a tile as LOAD fills it; none while a read waits. What is neither loaded nor cleared is not given. -/
def State.tileLoad (s : State) (p : Pass) (tx ty view : Nat) (ext : List Host.Cell) : State × Option (List Nat) :=
  let (f, s) := s.free (8 * rpTileMem p.body)
  (rpLayout p.body).1.foldl (fun (r : State × Option (List Nat)) a =>
    match r.2 with
    | none => r
    | some l => match p.loadOf a.1 with
      | 1 =>
        let b := fmtBytes a.1.fmt
        (r.1, some (splice l a.2 ((List.range (a.1.bytes p.body / b)).flatMap fun _ => a.1.clear.take b)))
      | 0 =>
        let n := (a.1.dims p.body).2.2
        (joinRuns (fmtBytes a.1.fmt) (a.1.elements p.body a.1.base view tx ty n false)).foldl
          (fun (r : State × Option (List Nat)) run =>
            match r.1.vaGet .tvu [13, p.id, 4, run.1] (r.1.passSlot p) .load run.1 run.2.2 ext with
            | (s, .wait) => (s, none)
            | (s, .fail) => (s.workFail p.id 2 false, r.2.map fun l => splice l (a.2 + run.2.1) (List.replicate run.2.2 255))
            | (s, .ok bs) => (s, r.2.map fun l => splice l (a.2 + run.2.1) bs)) (r.1, some l)
      | _ => r) (s, some (toBytes (rpTileMem p.body) f))

/-- Give a pass's next tile to an Ember. -/
def State.tileGive (s : State) (p : Pass) (e : Nat) (ext : List Host.Cell) : State :=
  let (tx, ty, view) := p.tileAt p.tile
  match (s.sinAcquire true).tileLoad p tx ty view ext with
  | (s, none) => s
  | (s, some l) =>
    let x := s.em e
    match x.freeBlock with
    | none => s
    | some b =>
      let m := rpTileMem p.body
      let i : LInfo := { kind := .fragment, pk := p.id, stream := s.passSlot p, prio := p.prio, cal := m, res := m, dx := 32, view, tx, ty }
      let k : Block := { info := i, cal := calCells l, tile := some { pass := p.id, idx := p.tile, s0 := x.firstSched }, placed := x.stamp }
      let s := s.emPut e { x.blkPut b k with stamp := x.stamp + 1 }
      let s := { s with wsp := { s.wsp with idle := s.wsp.idle.filter fun q => q.1 != e } }
      s.passPut { (s.pass? p.id).getD p with tile := p.tile + 1 }

/-- The first pass that can be given a tile place. -/
def State.tileNext (s : State) (ext : List Host.Cell) : List Pass → State
  | [] => s
  | p :: rest =>
    if p.phase == .bin || p.stop || p.tile ≥ p.total || !s.passLive p then s.tileNext ext rest
    else match s.chooseTile p with
      | some e => s.tileGive p e ext
      | none =>
        let es := s.inPlace (rpEmask p.body)
        let s := if es.isEmpty then s.passLost p
          else match s.offEmbers es with
            | e :: _ => s.embPowerOn e
            | [] => s
        s.tileNext ext rest

/-- A tile is given out, after a pass whose binning is over has begun its final tile phase. -/
def execTileAssign (ext : List Host.Cell) (s : State) : Host.Outcome State Fault Refusal :=
  .next (if !s.gfxOn then s
    else
      let s := match s.passOrder.find? fun p => p.binDone && !p.stop && s.passLive p with
        | some p => if s.tiling < 2 then s.startFinal p else s
        | none => s
      s.tileNext ext s.passOrder)

/-! ## Segments and fragment cohorts (R339 to R341) -/

/-- A tile block that can go on, with its progress and its pass. -/
def State.tileBlk (s : State) (e b : Nat) : Option (Block × TileSt × Pass) :=
  match s.blk? e b with
  | none => none
  | some k => match k.tile, s.pass? k.info.pk with
    | some t, some p => if k.info.kind == .fragment && k.term.isNone && k.stopped.isEmpty && s.gfxOn && s.embOn e then some (k, t, p) else none
    | _, _ => none

/-- Bin list of a tile. -/
def Pass.binOf (p : Pass) (i : Nat) : List Nat := (p.bins.lookup i).getD []

/-- RP_STATE bytes of a triangle's draw. -/
def Pass.stOf (p : Pass) (t : Prim) : List Nat := ((p.draws[t.draw]?).map (·.st)).getD []

/-- Every fragment of the tile's segment has been shaded. -/
def segDone (k : Block) (t : TileSt) : Bool := t.quads.isEmpty && k.liveThreads.isEmpty

/-- The TVU processes a tile's next segment. -/
def execTvuSegment (e : Fin 16) (b : Fin 32) (s : State) : Host.Outcome State Fault Refusal :=
  .next (match s.tileBlk e b with
    | none => s
    | some (k, t, p) =>
      let l := (p.binOf t.idx).drop t.next
      if p.stop || !segDone k t || t.kern ≠ 0 then s
      else match l.filterMap fun i => (p.prims[i]?).map fun q => (i, q, p.stOf q) with
        | [] => s
        | (i, q, st) :: rest =>
          let (r, n) := if stOrdered st then (orderedSeg p.body st k k.info.tx k.info.ty i q, 1)
            else
              let seg := (i, q, st) :: rest.takeWhile fun x => !stOrdered x.2.2
              (opaqueSeg p.body k k.info.tx k.info.ty seg, seg.length)
          let s := s.blkPut e b { r.blk with tile := some { t with next := t.next + n, quads := r.quads } }
          s.gfxCount R.GFX_HIDDEN_COUNT r.hidden)

/-- What a draw gives its fragment cohorts. -/
def State.fragInfo (s : State) (p : Pass) (k : Block) (d : Draw) (draw : Nat) : LInfo :=
  let st := d.st
  { k.info with
    prio := p.prio, stream := s.passSlot p, entry := fieldOf st 0x18 8, cbuf := fieldOf st 0x20 8, csize := fieldOf st 0x28 4,
    n := stFN st, text := fieldOf st 0x30 8, samt := fieldOf st 0x38 8, ntex := fieldOf st 0x40 2, nsamp := fieldOf st 0x42 2,
    udata := [(0, draw), (1, k.info.view)] ++ drUdata d.body }

/-- Registers of a lane of a fragment cohort. -/
def fragLane (p : Pass) (k : Block) (d : Draw) (q : Quad) (c : Cohort) (l : Nat) : Cohort :=
  match p.prims[q.prim]? with
  | none => c
  | some t =>
    let x := k.info.tx + q.x + l % 2
    let y := k.info.ty + q.y + l / 2 % 2
    let o : Int × Int := ((256 * x + 128 : Nat), (256 * y + 128 : Nat))
    let c := c.vSet 0 l (q.cov.getD (l % 4) 0 + b2n t.front * 2 ^ 31)
    let c := c.vSet 1 l (t.depth o)
    (List.range (4 * stNvar d.st)).foldl (fun (c : Cohort) i => c.vSet (2 + i) l (t.varying o i)) c

/-- A founding cohort slot of the eight of a tile block that nothing uses. -/
def State.fragSlot (s : State) (e b : Nat) (k : Block) : Option Nat :=
  (List.range 8).find? fun c => (match k.cohorts.lookup c with | some q => q.live == 0 | none => true) &&
    !(k.pend.any fun a => a.coh == c) && !(k.copies.any fun a => a.coh == c) && !(((s.em e).ops b).any fun o => o.coh == c)

/-- A fragment cohort of up to eight quads of one draw begins. -/
def execFragmentCohort (e : Fin 16) (b : Fin 32) (s : State) : Host.Outcome State Fault Refusal :=
  .next (match s.tileBlk e b with
    | none => s
    | some (k, t, p) => match t.quads with
      | [] => s
      | q0 :: _ => match p.draws[q0.draw]?, s.fragSlot e b k with
        | some d, some c =>
          let x := s.em e
          let sched := (t.s0 + c) % 4
          let i := s.fragInfo p k d q0.draw
          if p.stop || !s.embTakes e || x.schedCount sched ≥ 16 || x.schedRegs sched + 32 * i.n > 16384 then s
          else
            let qs := (t.quads.takeWhile fun q => q.draw == q0.draw).take 8
            let co := { freshCohort sched i.udata with frag := some { quads := qs }, info := some i }
            let co := qs.zipIdx.foldl (fun (co : Cohort) q => (List.range 4).foldl (fun co j => fragLane p k d q.1 co (4 * q.2 + j)) co) co
            let k := { k.cohPut c co with tile := some { t with quads := t.quads.drop qs.length } }
            let s := s.emPut e ((x.blkPut b k).start b c (2 ^ (4 * qs.length) - 1) i.entry)
            let s := s.embAcquire e 3
            s.gfxCount R.GFX_FRAGS_COUNT ((qs.flatMap (·.cov)).filter (· != 0)).length
        | _, _ => s)

/-! ## Tile kernels and resolve (R342 to R344) -/

/-- Every segment of a tile has been shaded. -/
def tileShaded (k : Block) (t : TileSt) (p : Pass) : Bool := t.next ≥ (p.binOf t.idx).length && segDone k t

/-- What an RP_END gives the kernel block of a tile. -/
def State.kernInfo (s : State) (p : Pass) (k : Block) : LInfo :=
  let b := p.kern
  let (dx, dy) := endDims b
  { kind := .kernel, pk := p.id, stream := s.passSlot p, prio := p.prio, entry := fieldOf b 0x10 8, cbuf := fieldOf b 0x20 8,
    csize := fieldOf b 0x28 4, n := endKN b, cal := k.info.cal + 1024 * endKCAL b, res := k.info.cal, tiles := endKT b,
    norepack := bitB (fieldOf b 0x18 4) 22, dx, dy, view := k.info.view, tx := k.info.tx, ty := k.info.ty }

/-- The kernel block of a shaded tile is placed on the Ember that holds the tile. -/
def execTileKernelBlock (e : Fin 16) (b : Fin 32) (s : State) : Host.Outcome State Fault Refusal :=
  .next (match s.tileBlk e b with
    | none => s
    | some (k, t, p) =>
      let i := s.kernInfo p k
      if p.stop || p.phase != .final || p.kern.isEmpty || t.kern ≠ 0 || !tileShaded k t p || !s.passLive p || !s.fits e (s.em e) i then s
      else (s.placeBlock e i 0 0 0 k.cal (some t)).blkMod e b fun k => { k with tile := some { t with kern := 1 } })

/-- Runs that Resolve writes for an attachment: VA and bytes. -/
def resolveRuns (p : Pass) (k : Block) (a : Att × Nat) : List (Nat × List Nat) :=
  let b := fmtBytes a.1.fmt
  let (_, _, n) := a.1.dims p.body
  let at_ := fun (o : Nat) => k.calGet (a.2 + o) b
  let spill := p.phase == .spill
  if a.1.store = 2 && !spill then
    (a.1.elements p.body a.1.rbase k.info.view k.info.tx k.info.ty 1 true).map fun x =>
      (x.1, toBytes b (a.1.average ((List.range n).map fun i => ofBytes (at_ (x.2 + i * b)))))
  else if a.1.store = 0 || spill then
    (joinRuns b (a.1.elements p.body a.1.base k.info.view k.info.tx k.info.ty n true)).map fun x => (x.1, k.calGet (a.2 + x.2.1) x.2.2)
  else []

/-- A tile that is through is written out and leaves its Ember; one of an abandoned pass leaves unwritten. -/
def execTileResolve (e : Fin 16) (b : Fin 32) (s : State) : Host.Outcome State Fault Refusal :=
  .next (match s.tileBlk e b with
    | none => s
    | some (k, t, p) =>
      let kern := p.phase == .final && !p.kern.isEmpty
      let idle := segDone k { t with quads := if p.stop then [] else t.quads } && k.pend.isEmpty && k.copies.isEmpty && ((s.em e).ops b).isEmpty
      let fin := fun (s : State) =>
        let s := s.dropBlock e b
        match s.pass? p.id with
        | some p => (s.passPut { p with done := p.done + 1 }).passCheck p.id
        | none => s
      if !idle || t.kern = 1 then s
      else if p.stop then fin s
      else if !tileShaded k t p || (kern && t.kern ≠ 2) then s
      else
        let runs := (rpLayout p.body).1.flatMap (resolveRuns p k)
        -- every page translates before the tile is written
        let r := runs.foldl (fun (r : State × Bool) x =>
          match r.1.vaPlaces [13, p.id, 9, x.1] (s.passSlot p) .store x.1 x.2.length with
          | (s, .wait) => (s, false)
          | (s, _) => (s, r.2)) (s, true)
        if !r.2 then r.1
        else
          let s := runs.foldl (fun (s : State) x => (s.passWrite p 9 x.1 x.2).1) r.1
          fin (if p.phase == .final then s.gfxCount R.GFX_TILES_COUNT 1 else s))

/-! ## GFX_CALRES (R354) -/

/-- Tile blocks resident on the die. -/
def State.rtiles (s : State) : Nat := s.emb.foldl (fun n e => n + e.2.tileCount none) 0

/-- A write of GFX_CALRES is refused while tiles are resident, or where compute blocks hold more than would be left. -/
def State.calResBad (s : State) (v : Nat) : Bool :=
  s.rtiles ≠ 0 || s.emb.any fun e => e.2.calUsed > 262144 - 16384 * min 12 (bitsOf v 0 4)

/-- GFX_CALRES takes a value, or the write is dropped with an error completion. -/
def State.calResPut (s : State) (m : Master) (v : Nat) : State :=
  if s.calResBad v then s.errMark m else s.set R.GFX_CALRES_RES (bitsOf v 0 4)

def execGfxCalresWrite (m : Master) (v : Word) (s : State) : Host.Outcome State Fault Refusal :=
  .next (s.ownerWrite m 0xC00008 v.toNat false fun s => s.calResPut m v.toNat)

/-! ## Preemption decisions (R318) -/

/-- Blocks that wait for room: priority, Embers that may take them, what they need. A launch's next block, a vertex cohort, a
tile kernel. -/
def State.needs (s : State) : List (Nat × List Nat × LInfo) :=
  let launch := s.claims.map fun c => (c.2.prio, s.inPlace (fieldOf c.1.bytes 0x3C 2), dispInfo c.1 (c.2.slot.getD 0xFF) c.2.prio)
  let verts := match s.binPass with
    | some p => match p.draws[p.draw]?, p.batch with
      | some d, some c => if p.phase == .bin && 32 * c.placed < c.verts.length
          then [(p.prio, s.inPlace (rpEmask p.body), s.vertInfo p d c c.placed)] else []
      | _, _ => []
    | none => []
  let kerns := s.emb.flatMap fun x => x.2.blocks.filterMap fun b => match s.tileBlk x.1 b.1 with
    | some (k, t, p) => if p.phase == .final && !p.kern.isEmpty && t.kern = 0 && !p.stop && tileShaded k t p
        then some (p.prio, [x.1], s.kernInfo p k) else none
    | none => none
  sortBy (fun a b => a.1 ≤ b.1) (launch ++ verts ++ kerns)

/-- Wellspring decides on a preemption for the first block that cannot be placed. -/
def execPreemptDecision (s : State) : Host.Outcome State Fault Refusal :=
  .next (match s.needs with
    | [] => s
    | (prio, es, i) :: _ =>
      if !s.flag R.WSP_CTL_PRE_EN || (s.chooseEmb es i).isSome || !(s.offEmbers es).isEmpty then s
      else match es.findSome? fun e => if (s.em e).pre.isSome then none else (s.victims e prio i).map fun v => (e, v) with
        | some (e, v) => s.askPreempt e v
        | none => s)

end Sys2Proof.Machine
end

