-- ==== Sys2Proof/Machine/Teardown.lean ====
section
/-!
DEFINITION. Teardown of queues and contexts (R277 to R279, R284).
-/

namespace Sys2Proof.Machine

/-- The queues of this die that a teardown affects, of those whose state is held here. -/
def State.tdQueues (s : State) (ctx : Bool) (h : Nat) : List Nat :=
  if ctx then (s.wsp.qs.filter fun x => x.2.ctx == h || s.recNat 2 x.1 4 4 == h).map (·.1)
  else if hDie h = s.die then [hIdx h] else []

/-- A block goes at once: it waits for nothing, and writes no record (R277 step 3). -/
def State.tdBlock (s : State) (e b : Nat) : State :=
  let s := (s.terminate e b { cause := 7, quiet := true }).dropBlock e b
  let x := s.em e
  s.emPut e { x with
    tq := x.tq.filter (·.blk != b), gq := x.gq.filter (·.blk != b),
    pre := match x.pre with
      | some p => let l := p.blks.filter fun y => y.1 != b
        if l.isEmpty then none else some { p with blks := l }
      | none => none }

/-- The blocks of the affected queues. -/
def State.tdBlocks (s : State) (qs : List Nat) : List (Nat × Nat) :=
  s.emb.flatMap fun e => (e.2.blocks.filter fun b => match s.blockQ b.2 with | some q => qs.contains q | none => false).map fun b => (e.1, b.1)

/-- Step 3: blocks and saved cohorts go, with one record for the teardown. -/
def State.tdWork (s : State) (qs : List Nat) (h : Nat) : State :=
  let l := s.tdBlocks qs
  let saved := s.saved.filter fun v => !(match s.blockQ v.blk with | some q => qs.contains q | none => false)
  let s := l.foldl (fun s p => s.tdBlock p.1 p.2) { s with saved }
  if l.isEmpty then s else s.fault { cls := 1, cause := 7, src := 0xFF, d0 := h }

/-- Steps 2 and 4 to 7 for one queue: run-ahead undone, passes stopped, translations given up, the signals of committed
packets performed with ABORTED; its slot is free. -/
def State.tdQueue (s : State) (q : Nat) : State :=
  let slot := (s.q? q).bind (·.slot)
  let s := s.undo q
  let s := { s with gfx := { s.gfx with passes := s.gfx.passes.filter fun p => p.q != q } }
  let ids := (s.pkOf q).map (·.id)
  let s := s.vaCancel fun id => match id with
    | 2 :: k :: _ => some k == slot
    | 3 :: k :: _ => some k == slot
    | 4 :: k :: _ => ids.contains k
    | 5 :: k :: _ => ids.contains k
    | 13 :: k :: _ => ids.contains k
    | _ => false
  let s := (s.pkOf q).foldl (fun (s : State) (p : Pkt) => s.pkRetire { p with err := 6 }) s
  let ctx := ((s.q? q).map (·.ctx)).getD 0
  let qs := Cells.del s.wsp.qs q
  let last := !(qs.any fun y => y.2.slot.isSome && y.2.ctx == ctx)
  { s with
    dtu := { s.dtu with pasid := s.dtu.pasid.filter fun y => some y.1 != slot }
    wsp := { s.wsp with
      qs, runq := s.wsp.runq.filter (· != q), bells := s.wsp.bells.filter (·.1 != q)
      ctxs := if last then s.wsp.ctxs.filter (fun c => c.h != ctx) else s.wsp.ctxs } }

/-- Step 5 for a context: the DTU forgets its PASID. -/
def State.tdPasid (s : State) (pasid : Nat) : State :=
  { s with dtu := { s.dtu with
    park := s.dtu.park.filter (·.pasid != pasid), hnd := s.dtu.hnd.filter (·.miss.pasid != pasid),
    miss := s.dtu.miss.filter (·.pasid != pasid), atc := s.dtu.atc.filter (·.pasid != pasid),
    pins := s.dtu.pins.filter (·.pasid != pasid) } }

/-- What this die does of a teardown before its records are written. -/
def State.tdHere (s : State) (ctx : Bool) (h pasid : Nat) : State :=
  let qs := s.tdQueues ctx h
  let s := (s.tdWork qs h)
  let s := qs.foldl State.tdQueue s
  if ctx then ((s.dcoTeardown pasid).cifTeardown pasid).tdPasid pasid else s

/-- Start a teardown of a handle homed here (R277 step 1 on). -/
def State.tdStart (s : State) (ctx : Bool) (h : Nat) : State :=
  let t := if ctx then 1 else 2
  let i := hIdx h
  let w := s.recNat t i 0 4
  let pasid := bitsOf (s.recNat 1 i 4 4) 0 20
  let s := s.recSet t i 0 4 (w - bitsOf w 0 2 + 2)
  let s := { s.set R.SYN_ABORT_STAT_BUSY 1 with syn := { s.syn with td := some { ctx, handle := h, remote := false } } }
  let s := (List.range 8).foldl (fun s d => if ctx && d != s.die && s.memReach d then s.emit (.synCmd d 9 h 0 0) else s) s
  s.tdHere ctx h pasid

/-- SYN_ABORT_CMD, live (R279, R284). A handle homed on another die is forwarded to it. -/
def State.synAbort (s : State) (kind : Nat) : State :=
  let s := s.set R.SYN_ABORT_CMD_KIND kind
  if kind = 0 then s
  else if kind = 3 || s.flag R.SYN_ABORT_STAT_BUSY then s.set R.SYN_ABORT_STAT_REJ 1
  else
    let ctx := kind == 2
    let h := s.get R.SYN_ABORT_H_HANDLE
    let c := s.objCheck (if ctx then 1 else 2) h
    let done := fun (s : State) (r : Nat) =>
      ((s.set R.SYN_ABORT_STAT_RESULT r).set R.SYN_ABORT_STAT_DONE 1).vectorIf (s.flag R.SYN_CTL_AIRQ) 5
    if c ≠ 0 then done s (objResult c)
    else if hDie h ≠ s.die then
      { s.set R.SYN_ABORT_STAT_BUSY 1 with syn := { s.syn with td := some { ctx, handle := h, remote := true } } }.emit
        (.synCmd (hDie h) (7 + kind) h 0 0)
    else if ctx && bitsOf (s.recNat 1 (hIdx h) 0 4) 0 2 ≥ 2 then done s 0
    else s.tdStart ctx h

def State.synAbortWrite (s : State) (m : Master) (kind : Nat) : State :=
  s.ownerWrite m 0x600084 kind false fun s => s.synAbort kind

def execTeardownQueue (m : Master) (s : State) : Host.Outcome State Fault Refusal := .next (s.synAbortWrite m 1)

/-- A context's teardown: by a master's command, or (none) the one an ERRPOL of ABORT waits for, started without a command once
none runs. -/
def execTeardownContext (m : Option Master) (s : State) : Host.Outcome State Fault Refusal :=
  .next (match m with
    | some m => s.synAbortWrite m 2
    | none => match s.syn.td, s.syn.tdq with
      | none, h :: q =>
        let s := { s with syn := { s.syn with tdq := q } }
        if s.objCheck 1 h ≠ 0 then s else if hDie h ≠ s.die then s.emit (.synCmd (hDie h) 9 h 0 0) else if bitsOf (s.recNat 1 (hIdx h) 0 4) 0 2 ≥ 2 then s else s.tdStart true h
      | _, _ => s)

/-- Step 8: records to STATE 3, DONE, the interrupt. `res` is the result another die answered, `unreach` the dies taken as
complete (R279). -/
def execTeardownComplete (res unreach : BitVec 3) (s : State) : Host.Outcome State Fault Refusal :=
  .next (match s.syn.td with
    | none => s
    | some t =>
      let i := hIdx t.handle
      let s := if t.remote then s
        else if t.ctx then
          let s := (s.liveRecs 2).foldl (fun (s : State) q =>
            if s.recNat 2 q 4 4 == t.handle && bitsOf (s.recNat 2 q 0 4) 0 2 != 0 then s.qSetState q 3 else s) s
          let w := s.recNat 1 i 0 4
          s.recSet 1 i 0 4 (w - bitsOf w 0 2 + 3)
        else s.qSetState i 3
      let s := { s with syn := { s.syn with td := none } }
      let s := ((s.set R.SYN_ABORT_STAT_BUSY 0).set R.SYN_ABORT_STAT_RESULT (if t.remote then res.toNat else 0)).set
        R.SYN_ABORT_STAT_UNREACH unreach.toNat
      (s.set R.SYN_ABORT_STAT_DONE 1).vectorIf (s.flag R.SYN_CTL_AIRQ) 5)

end Sys2Proof.Machine
end

