-- ==== Sys2Proof/Machine/Reset.lean ====
section
/-!
DEFINITION. Resets (R654 to R661): POR and PIN with their releases, WARM, WDT and CHN, the block resets, and the events of the host
link (R461).
-/

namespace Sys2Proof.Machine

/-! ## POR and PIN -/

/-- What POR or PIN leaves while it is asserted (R661): flash, fuses and what the pads see; PIN leaves the TAP too (R671). -/
def State.coldState (s : State) (k : ResetKind) : State :=
  { State.reset with
    regs := (s.regsFilter fun _ f => f.kept &&& k.bit != 0).regs
    boot := { keyHash := s.boot.keyHash }
    pad := { lvl := s.pad.lvl }
    jtag := if k = .por then {} else s.jtag.abort
    rst := { asserted := some k }
    flash := s.flash
    out := s.out
    fresh := s.fresh
    pending := s.pending }

/-- POR takes over from everything; one that comes during POR is absorbed (R655). -/
def execPorReset (s : State) : Host.Outcome State Fault Refusal :=
  .next (if s.rst.asserted = some .por then s else s.coldState .por)

def execPinReset (s : State) : Host.Outcome State Fault Refusal :=
  .next (if s.rst.asserted.isSome then s else s.coldState .pin)

/-- The release (R550, R630, R665): PWR_EN, the VID code of CRU_VTAB7, the straps, then the bring-up. -/
def State.coldRelease (s : State) (k : ResetKind) (env : BootEnv) : State :=
  let s := { s with rst := {} }
  let s := (s.emit (.pin "PWR_EN" 1)).emit (.pin "VID" (s.vidOf 7))
  let s := (s.set R.PAD_STRAP_STRAPS env.straps.toNat).setB R.CHL_STAT_ROOT (env.straps.getLsbD 2)
  let s := ((s.domPut 0 true).set R.CRU_RST_STAT_LAST k.code).set R.CRU_RST_STAT_SRC 0
  s.padUpdate.bringUp k.code env

def execPorRelease (env : BootEnv) (s : State) : Host.Outcome State Fault Refusal :=
  .next (if s.rst.asserted = some .por then s.coldRelease .por env else s)

def execPinRelease (env : BootEnv) (s : State) : Host.Outcome State Fault Refusal :=
  .next (if s.rst.asserted = some .pin then s.coldRelease .pin env else s)

/-! ## WARM, WDT and CHN (R655 to R657) -/

/-- Fields whose units run on through a warm reset (R505, R582, R661), and those that the Warden writes back. -/
def warmFields : List Field :=
  [R.CRU_RPLL_STAT_LOCK, R.HIF_STAT_LINKUP, R.HIF_STAT_SPEED, R.HIF_STAT_WIDTH, R.PWR_DOM_ON_ON_DOM] ++ warmRetained

/-- CHNRST goes out LOCAL on every port that is ACTIVE or QUARANTINE (R657). -/
def State.chnSend (s : State) : State :=
  [0, 1].foldl (fun (s : State) p =>
    if s.get R.CHLP_STAT_STATE p = 5 || s.get R.CHLP_STAT_STATE p = 6 then s.mgmtLocal p 0x0C [] else s) s

/-- The stores that WARM, WDT and CHN do not keep (R661). -/
def State.warmLose (s : State) (k : ResetKind) (flr : Bool) : State :=
  let pri := if flr then (false, 0) else (s.dtu.priEnable, s.dtu.priAlloc)
  let uid := if k = .chn then [] else s.chl.port.map fun p => (p.1, ({ uid := p.2.uid } : ChlPort))
  let s := s.fabLose.embersOff
  { s with
    own := {}
    txn := []
    staged := []
    saved := []
    rst := {}
    -- commands end; EN of each instance stays set, and with it the assigned addresses (R626, R627, R631)
    pad := { held := s.pad.held, lvl := s.pad.lvl, ser := s.pad.ser.map fun x => (x.1, ({ dyn := x.2.dyn } : SerSt)) }
    dtu := { s.dtu with priEnable := pri.1, priAlloc := pri.2 }
    chl := { port := uid }
    pwr := { powerGood := s.pwr.powerGood, pgEmb := s.pwr.pgEmb }
    boot := { s.boot with
      slots := [], slotQ := [], waitSlot := false, slotTmo := false, hasSlot := false, waitChain := false, recvPort := none, blocks := [], tries := 0,
      failedOnly := false, foreign := [] } }

/-- WARM, WDT or CHN takes place: the clean, the reset, the release, the bring-up. `src` is CRU_RST_STAT.SRC. -/
def State.warmDo (s : State) (k : ResetKind) (src : Nat) (send : Bool) (env : BootEnv) : State :=
  let s := s.wakeS1
  let s := if k = .chn && send then s.chnSend else s
  let s := (if k = .wdt then s.wdtRecord else s).txnRollAll 7 false
  let vid := s.get R.CRU_ECLK_STAT_CUR ≠ 7
  let s := (if k = .wdt then s.sinLose else s.sinPurge).warmLose k (src == 1)
  let s := s.regsFilter fun _ f => f.kept &&& k.bit != 0 || f.isIn warmFields
  let s := s.set R.PWR_DOM_ON_ON_DOM (s.get R.PWR_DOM_ON_ON_DOM &&& 0b11000001)
  let s := ((s.set R.CRU_RST_STAT_LAST k.code).set R.CRU_RST_STAT_SRC src).incSat R.CRU_RST_STAT_COUNT
  let s := if vid then s.emit (.pin "VID" (s.vidOf 7)) else s
  s.padUpdate.bringUp k.code env

/-- A trigger of WARM, WDT or CHN reaches the die: not under POR or PIN, after a thermal trip, or in S3 (R655, R659). -/
def State.rstReach (s : State) : Bool := s.rst.asserted.isNone && !s.pwr.tripped && s.get R.PWR_STAT_STATE < 3

/-- FLR (code 1) and CHNRST (codes 4 and 5) by the power state: held in S2, a CHNRST being forwarded at once (R659). -/
def State.warmOrHold (s : State) (k : ResetKind) (src : Nat) (env : BootEnv) : State :=
  if !s.rstReach then s
  else if s.get R.PWR_STAT_STATE = 2 then
    let s := if k = .chn && !(s.rst.held.any fun h => h.1 == 4 || h.1 == 5) then s.chnSend else s
    { s with rst := { s.rst with held := s.rst.held ++ [(src, env)] } }
  else s.warmDo k src true env

/-- FLR through the link (R461). -/
def execFlr (env : BootEnv) (s : State) : Host.Outcome State Fault Refusal :=
  .next (if s.flag R.HIF_STAT_LINKUP then s.warmOrHold .warm 1 env else s)

/-- CRU_RST_CTL, live (R675). -/
def State.rstCtl (s : State) (m : Master) (val : Nat) (env : BootEnv) : State :=
  if bitsOf val 16 16 ≠ 0x5253 then s.errComp m .badkey 0x200400
  else if !s.rstReach then s
  else if bitB val 1 then s.warmDo .chn 3 true env
  else if bitB val 0 then s.warmDo .warm 3 true env
  else s

def State.rstCtlWrite (s : State) (m : Master) (val : Nat) (env : BootEnv) : State :=
  s.ownerWrite m 0x200400 val false fun s => s.rstCtl m val env

def execCruRstWarm (m : Master) (key : BitVec 16) (env : BootEnv) (s : State) : Host.Outcome State Fault Refusal :=
  .next (s.rstCtlWrite m (key.toNat * 2 ^ 16 + 1) env)

/-- A write with CHN set; `both` sets WARM too. -/
def execCruRstChn (m : Master) (key : BitVec 16) (both : Bool) (env : BootEnv) (s : State) : Host.Outcome State Fault Refusal :=
  .next (s.rstCtlWrite m (key.toNat * 2 ^ 16 + 2 + b2n both) env)

/-- The second stage expires: the reset record and a WDT reset (R639, R642). -/
def execWdtStage2Expiry (env : BootEnv) (s : State) : Host.Outcome State Fault Refusal :=
  .next (if s.get R.WDT_STAT_STAGE = 2 && s.rstReach && s.get R.PWR_STAT_STATE ≠ 2 then s.warmDo .wdt 0 false env else s)

/-! ## Block resets (R658) -/

/-- The registers of a block return to their Reset values, but for those that an ENG reset keeps and those that hold what the Warden
wrote (log entry 45). -/
def State.engRegs (s : State) (b : Nat) : State :=
  s.regsFilter fun off f => engOf off != some b || f.kept &&& 16 != 0 || f.src == .b

/-- HIF (R461): windows, configuration space, requests to host memory, M0's ownership; `link` is what the link trains to. -/
def State.engHif (s : State) (link : Option (Nat × Nat)) : State :=
  let s := (s.dtuFail 4).engRegs 0
  let s := { s with
    ap := []
    raw := s.raw.filter fun c => !(0x8000 ≤ c.1 && c.1 < 0xA000)
    dtu := { s.dtu with priEnable := false, priAlloc := 0 }
    sin := { s.sin with fills := s.sin.fills.filter fun f => !f.host } }
  let s := if 2 ≤ s.get R.OWN_STAT_STATE && s.get R.OWN_STAT_OWNER = 0 then (s.ownLose 7 false).ownElect else s
  match link with
  | some (sp, w) => ((s.set R.HIF_STAT_LINKUP 1).set R.HIF_STAT_SPEED sp).set R.HIF_STAT_WIDTH w
  | none => s

/-- Logical Ember n: its blocks end without save records, one fault record each (R60). -/
def State.engEmber (s : State) (n : Nat) : State :=
  let s := (s.em n).blocks.foldl (fun (s : State) b =>
    let s := s.terminate n b.1 { cause := 8 }
    match s.blk? n b.1 with
    | some k => s.release n b.1 k { cause := 8 }
    | none => s) s
  { s with emb := Cells.del s.emb n }.engRegs (16 + n)

/-- The effect of an ENG reset on its block: 0 HIF, 1 TXN, 2 DTU, 3 SIN, 4 DCO, 5 CIF, 6 PAD, 7 FUM, 16 + n Ember n. -/
def State.engDo (s : State) (b : Nat) : State :=
  match b with
  | 0 => s.engHif (if s.flag R.HIF_STAT_LINKUP then some (s.get R.HIF_STAT_SPEED, s.get R.HIF_STAT_WIDTH) else none)
  | 1 => (s.txnRollAll 7 false).engRegs 1
  | 2 => s.dtuEng.engRegs 2
  | 3 => (s.sinPurge.engRegs 3).sinWayInit
  | 4 => s.dcoEng.engRegs 4
  | 5 =>
    let t := s.cifHalt
    { t.engRegs 5 with cif := {} }.padUpdate
  | 6 =>
    let t := [0, 1, 2].foldl State.serAbort s
    let t := { t.engRegs 6 with pad := { s.pad with ser := s.pad.ser.filter fun x => x.1 == 3 } }
    t.padUpdate.padDriven s
  | 7 =>
    let t := (s.serAbort 3).mcuStop.engRegs 7
    { t with
      fum := { bad := s.fum.bad, minimal := s.fum.minimal, gen := s.fum.gen, lmem := s.fum.lmem }
      pad := { t.pad with ser := Cells.del t.pad.ser 3 } }
  | _ => s.engEmber (b - 16)

/-- An ENG reset starts: its effect, and its bit in CRU_RST_ENG, which the next tick clears (log entry 45). One that runs absorbs
another; bits of Embers that do not exist are ignored. -/
def State.engReset (s : State) (b : Nat) : State :=
  if s.engRuns b || (16 ≤ b && s.embCount ≤ b - 16) then s
  else if b < 16 then (s.engDo b).set R.CRU_RST_ENG_BLK (putBit (s.get R.CRU_RST_ENG_BLK) b true)
  else (s.engDo b).set R.CRU_RST_ENG_EMB (putBit (s.get R.CRU_RST_ENG_EMB) (b - 16) true)

/-- A write of CRU_RST_ENG, live: each bit set starts its reset, in bit order. -/
def State.engWrite (s : State) (val : Nat) : State :=
  ((List.range 8 ++ (List.range 16).map (16 + ·)).filter fun b => bitB val b).foldl State.engReset s

/-- A write of one bit of CRU_RST_ENG by a master. -/
def State.engBit (s : State) (m : Master) (b : Nat) : State :=
  s.ownerWrite m 0x200404 (2 ^ b) false fun s => s.engWrite (2 ^ b)

def execEngResetHif (m : Master) (s : State) : Host.Outcome State Fault Refusal := .next (s.engBit m 0)
def execEngResetTxn (m : Master) (s : State) : Host.Outcome State Fault Refusal := .next (s.engBit m 1)
def execEngResetDtu (m : Master) (s : State) : Host.Outcome State Fault Refusal := .next (s.engBit m 2)
def execEngResetSin (m : Master) (s : State) : Host.Outcome State Fault Refusal := .next (s.engBit m 3)
def execEngResetDco (m : Master) (s : State) : Host.Outcome State Fault Refusal := .next (s.engBit m 4)
def execEngResetCif (m : Master) (s : State) : Host.Outcome State Fault Refusal := .next (s.engBit m 5)
def execEngResetPad (m : Master) (s : State) : Host.Outcome State Fault Refusal := .next (s.engBit m 6)
def execEngResetFum (m : Master) (s : State) : Host.Outcome State Fault Refusal := .next (s.engBit m 7)
def execEngResetEmber (m : Master) (n : Fin 16) (s : State) : Host.Outcome State Fault Refusal := .next (s.engBit m (16 + n))

/-- An event of the host link starts the HIF's ENG reset. -/
def State.linkReset (s : State) (link : Option (Nat × Nat)) : State :=
  if s.engRuns 0 then s else (s.engHif link).set R.CRU_RST_ENG_BLK (putBit (s.get R.CRU_RST_ENG_BLK) 0 true)

/-- PERST# (0), hot reset (1) or link disable (2) on a link that is up or down (R461, R659): a hot reset is held in S2. `up`, `speed`
and `width` say what the link trains to. -/
def execHifLinkReset (kind : Fin 3) (up : Bool) (speed width : BitVec 4) (s : State) : Host.Outcome State Fault Refusal :=
  .next (
    let link := if up then some (speed.toNat, width.toNat) else none
    if !s.rstReach || !s.domOn 7 then s
    else if kind = 1 && s.get R.PWR_STAT_STATE = 2 then
      { s with rst := { s.rst with held := s.rst.held ++ [(6, { link })] } }
    else s.wakeS1.linkReset link)

/-! ## The end of S2 (R533, R659) -/

/-- The resets that S2 held: the highest-ranked takes place, the others are absorbed (R655). -/
def State.heldRun (s : State) : State :=
  let l := s.rst.held
  let s := { s with rst := { s.rst with held := [] } }
  match l.find? (fun h => h.1 == 4 || h.1 == 5) with
  | some h => s.warmDo .chn h.1 false h.2
  | none => match l.find? (fun h => h.1 == 1) with
    | some h => s.warmDo .warm 1 false h.2
    | none => match l with
      | h :: _ => s.linkReset h.2.link
      | [] => s

end Sys2Proof.Machine
end

