-- ==== Sys2Proof/Machine/Mbx.lean ====
section
/-!
DEFINITION. The Warden mailbox (R584, R585) and BOOT_CTL (R557, R558, R581).
-/

namespace Sys2Proof.Machine

/-! ## The mailbox -/

/-- Byte i of the request buffer, and a little-endian number in it. -/
def State.mbxByte (s : State) (i : Nat) : Nat := bitsOf (s.rawGet (0x4000 + i / 4 * 4)) (8 * (i % 4)) 8
def State.mbxNum (s : State) (i n : Nat) : Nat := ofBytes ((List.range n).map fun k => s.mbxByte (i + k))

def State.mbxBusy (s : State) : Bool := bitB (s.rawGet 0x4FF4) 31

/-- MBX_CTL, live: IEN is stored; a SEND while BUSY is dropped and sets REJ. -/
def State.mbxCtl (s : State) (val : Nat) : State :=
  let s := s.rawSet 0x4FF0 (bitsOf val 31 1 * 2 ^ 31)
  if !bitB val 0 then s
  else if s.mbxBusy then s.rawSet 0x4FF4 (putBit (s.rawGet 0x4FF4) 29 true)
  else s.rawSet 0x4FF4 (putBit (s.rawGet 0x4FF4) 31 true)

/-- Write bytes into the response buffer, whole words at a time. -/
def State.mbxPut (s : State) : Nat → List Nat → State
  | i, a :: b :: c :: d :: l => (s.rawSet (0x4800 + i) (ofBytes [a, b, c, d])).mbxPut (i + 4) l
  | _, _ => s

/-- The response: header with the opcode, length, sequence number and status, then the payload; BUSY ends, DONE is set. -/
def State.mbxAnswer (s : State) (status : Nat) (pay : List Nat) : State :=
  let s := s.mbxPut 0 (toBytes 2 (s.mbxNum 0 2) ++ toBytes 2 pay.length ++ toBytes 4 (s.mbxNum 4 4) ++ toBytes 4 status ++
    toBytes 4 0 ++ pay ++ List.replicate ((4 - pay.length % 4) % 4) 0)
  let s := s.rawSet 0x4FF4 (putBit (putBit (s.rawGet 0x4FF4) 31 false) 30 true)
  s.vectorIf (bitB (s.rawGet 0x4FF0) 31) 14

/-- What INFO reports: BOOT_STAT, versions and SVNs of both slots, the interface generation, every step's journal state. The
layout and length of the payload are not stated; they are uninterpreted functions of these (log entry 46). -/
def State.mbxInfo (s : State) : State :=
  let img := fun t => match s.dirEnt t with
    | some e => [s.fl (e.off + 8) 4, s.fl (e.off + 12) 4]
    | none => [0, 0]
  let v := [s.regWord R.BOOT_STAT 0 0] ++ img 1 ++ img 2 ++ [s.get R.CHL_GEN_GEN] ++
    s.boot.hist.flatMap fun h => [h.1, h.2.1, h.2.2.1, h.2.2.2]
  let n := (Config.fixedBits 11 (0x4D :: v)).toNat % 2017
  s.mbxAnswer 0 (toBytes n (Config.fixedBits 16128 (0x4E :: v)).toNat)

/-- The directory entry that a request names, when the Warden may write its region: neither running slot (R556). -/
def State.mbxRegion (s : State) (ty : Nat) : Option (Option DirEnt) :=
  if ty = 1 + s.get R.BOOT_STAT_SLOT || (ty = 3 + s.get R.BOOT_COMPAT_FSLOT && s.flag R.BOOT_COMPAT_PAIROK) then none
  else some (s.dirEnt ty)

/-- FLASH_WRITE: type, offset and data from payload bytes 0, 4 and 8 (log entry 46); `ok`: the flash takes it. -/
def State.mbxWrite (s : State) (ok : Bool) : State :=
  let len := s.mbxNum 2 2
  let n := len - 8
  let off := s.mbxNum 20 4
  if len < 8 || len > 2016 then s.mbxAnswer 2 []
  else match s.mbxRegion (s.mbxNum 16 4) with
    | none => s.mbxAnswer 4 []
    | some none => s.mbxAnswer 2 []
    | some (some e) =>
      if off + n > e.len then s.mbxAnswer 2 []
      else if !ok then s.mbxAnswer 3 []
      else (s.flProg (e.off + off) ((List.range n).map fun k => s.mbxByte (24 + k))).mbxAnswer 0 []

/-- FLASH_ERASE: type and 64 KiB sector index from payload bytes 0 and 4. -/
def State.mbxErase (s : State) (ok : Bool) : State :=
  let i := s.mbxNum 20 4
  match s.mbxRegion (s.mbxNum 16 4) with
  | none => s.mbxAnswer 4 []
  | some none => s.mbxAnswer 2 []
  | some (some e) =>
    if 65536 * (i + 1) > e.len then s.mbxAnswer 2 []
    else if !ok then s.mbxAnswer 3 []
    else (s.flErase (e.off + 65536 * i) 65536).mbxAnswer 0 []

/-- SET_TRIAL: Warden slot 0 or 1 from payload byte 0. -/
def State.mbxTrial (s : State) (ok : Bool) : State :=
  let v := s.mbxNum 16 4
  if v > 1 then s.mbxAnswer 2 []
  else if v = s.get R.BOOT_STAT_SLOT then s.mbxAnswer 4 []
  else match s.dirEnt (1 + v) with
    | none => s.mbxAnswer 2 []
    | some e =>
      if !ok then s.mbxAnswer 3 []
      else (s.dirFlags (1 + v) (putBit (putBit e.flags 0 true) 1 false)).mbxAnswer 0 []

/-- RESTART: FORCECOLD, the response, then a WARM reset. -/
def State.mbxRestart (s : State) (env : BootEnv) : State :=
  let s := if bitB (s.mbxByte 16) 0 then s.set R.BOOT_CTL_FORCECOLD 1 else s
  (s.mbxAnswer 0 []).warmDo .warm 2 true env

/-- The Warden serves a message: one is waiting, and the Warden runs (R560, R580). -/
def State.mbxServes (s : State) : Bool :=
  s.mbxBusy && s.rstReach && s.get R.PWR_STAT_STATE < 2 && (s.ready || (s.get R.BOOT_STAT_PHASE == 4 && !s.boot.failedOnly))

/-- The Warden serves the message that waits, by its opcode; one of no opcode gets BADOP. -/
def State.mbxServe (s : State) (ok : Bool) (env : BootEnv) : State :=
  if !s.mbxServes then s
  else
    let s := s.wakeS1
    match s.mbxNum 0 2 with
    | 1 => s.mbxInfo
    | 2 => s.mbxWrite ok
    | 3 => s.mbxErase ok
    | 4 => s.mbxTrial ok
    | 5 => s.mbxRestart env
    | _ => s.mbxAnswer 1 []

/-- The Warden serves the message when it is of one opcode. -/
def State.mbxIf (s : State) (op : Nat) (ok : Bool) (env : BootEnv) : State := if s.mbxNum 0 2 = op then s.mbxServe ok env else s

def execMbxInfo (s : State) : Host.Outcome State Fault Refusal := .next (s.mbxIf 1 true {})
def execMbxFlashWrite (ok : Bool) (s : State) : Host.Outcome State Fault Refusal := .next (s.mbxIf 2 ok {})
def execMbxFlashErase (ok : Bool) (s : State) : Host.Outcome State Fault Refusal := .next (s.mbxIf 3 ok {})
def execMbxSetTrial (ok : Bool) (s : State) : Host.Outcome State Fault Refusal := .next (s.mbxIf 4 ok {})
def execMbxRestart (env : BootEnv) (s : State) : Host.Outcome State Fault Refusal := .next (s.mbxIf 5 true env)
def execMbxDone (ok : Bool) (env : BootEnv) (s : State) : Host.Outcome State Fault Refusal := .next (s.mbxServe ok env)

/-! ## BOOT_CTL -/

/-- CONFIRM after READY: the Warden clears BAD and TRIAL of the running slot (R557). -/
def State.bootConfirm (s : State) : State :=
  if s.ready && s.flag R.BOOT_STAT_TRIAL then
    let ty := 1 + s.get R.BOOT_STAT_SLOT
    match s.dirEnt ty with
    | some e => (s.dirFlags ty (putBit (putBit e.flags 0 false) 1 false)).set R.BOOT_STAT_TRIAL 0
    | none => s.set R.BOOT_STAT_TRIAL 0
  else s

/-- SVNADV: the counter is burnt up to the running image's SVN, but for an image on trial (R558). -/
def State.svnAdvance (s : State) : State :=
  if s.flag R.BOOT_STAT_TRIAL then s else s.set R.BOOT_SVN_FUSED (max (s.get R.BOOT_SVN_FUSED) (min 64 (s.get R.BOOT_SVN_IMG)))

/-- BOOT_CTL, live. KEY guards SVNADV. -/
def State.bootCtl (s : State) (m : Master) (val : Nat) : State :=
  if bitB val 2 && bitsOf val 16 16 ≠ 0xB007 then s.errComp m .badkey 0x100014
  else
    let s := s.set R.BOOT_CTL_FORCECOLD (val % 2)
    let s := if bitB val 1 then s.bootConfirm else s
    if bitB val 2 then s.svnAdvance else s

/-- A write of CONFIRM, with FORCECOLD as it stands. -/
def execBootConfirm (m : Master) (s : State) : Host.Outcome State Fault Refusal :=
  let v := 2 + s.get R.BOOT_CTL_FORCECOLD
  .next (s.ownerWrite m 0x100014 v false fun s => s.bootCtl m v)

def execBootSvnadv (m : Master) (key : BitVec 16) (s : State) : Host.Outcome State Fault Refusal :=
  let v := key.toNat * 2 ^ 16 + 4 + s.get R.BOOT_CTL_FORCECOLD
  .next (s.ownerWrite m 0x100014 v false fun s => s.bootCtl m v)

end Sys2Proof.Machine
end

