-- ==== Sys2Proof/Machine/Bus.lean ====
section
/-!
DEFINITION. Register accesses as a master makes them (R9 to R16, R465 to R470): what a write to each register does, what a read gives,
the chain window (R25 to R27), the debug access port (R674), BAR4 (R459, R460) and the apply of a transaction (R485).
-/

namespace Sys2Proof.Machine

/-! ## BAR4 windows (R459, R492) -/

/-- The memory object of a handle for an aperture: outcome by the codes of APERR 1 to 3, BASE, SIZE, HOSTVIS, RDONLY. -/
def State.apObj (s : State) (h : Nat) (e : BusEnv) : Nat × Nat × Nat × Bool × Bool :=
  match s.objCheck 3 h with
  | 0 =>
    if hDie h = s.die then
      let w := s.recNat 3 (hIdx h) 8 4
      (0, bitsOf (s.recNat 3 (hIdx h) 0 4) 0 25, bitsOf (s.recNat 3 (hIdx h) 4 4) 0 20, bitB w 22, bitB w 23)
    else e.obj
  | c => (c, 0, 0, false, false)

/-- HIF_APn is written, and its window resolved. -/
def State.apWrite (s : State) (n val : Nat) (e : BusEnv) : State :=
  let s := { s.putReg R.HIF_AP n 0 val with ap := Cells.del s.ap n }
  let a := s.get R.HIF_AP_ADDR n
  let ro := s.flag R.HIF_AP_WRO n
  let fail := fun (c : Nat) => (s.set R.HIF_AP_MODE 0 n).set R.HIF_STAT_APERR c
  match s.get R.HIF_AP_MODE n with
  | 1 => { s with ap := Cells.put s.ap n { base := a * 65536, limit := 2 ^ 24, ro } }
  | 2 =>
    let h := s.get R.HIF_AP_HANDLE n
    let o := s.apObj h e
    if o.1 ≠ 0 then fail o.1
    else if !o.2.2.2.1 then fail 4
    else if a ≥ o.2.2.1 then fail 5
    else { s with ap := Cells.put s.ap n {
      base := hDie h * 2 ^ 41 + (o.2.1 + a) * 65536, limit := min (2 ^ 24) ((o.2.2.1 - a) * 65536), ro := ro || o.2.2.2.2 } }
  | _ => s

/-- The high-word write of HIF_APn, the low word held. -/
def execHifApertureResolve (m : Master) (n : Fin 16) (val : DWord) (e : BusEnv) (s : State) : Host.Outcome State Fault Refusal :=
  .next (s.ownerWrite m (0x1104 + 8 * n) val.toNat true fun s => s.apWrite n val.toNat e)

/-- The die answers its host. -/
def State.hostOpen (s : State) : Bool := s.flag R.HIF_STAT_LINKUP && !s.engRuns 0

/-- The window of a BAR4 access and its offset; none where nothing is mapped, or an access that writes is refused. -/
def State.apFind (s : State) (off n : Nat) (wr : Bool) : Option Nat :=
  let a := off % 2 ^ 24
  match Cells.get none (s.ap.map fun w => (w.1, some w.2)) (off / 2 ^ 24) with
  | none => none
  | some w => if a + n > w.limit || (wr && w.ro) then none else some (w.base + a)

/-- The checks before BAR4's own: R560, a FAB that is off, the window (R519, R458). -/
inductive ApGate where
  | early | off | refused | asleep | to_ (l : Loc)
  deriving DecidableEq, Repr

def State.apGate (s : State) (off n : Nat) (wr : Bool) : ApGate :=
  if s.get R.BOOT_STAT_PHASE ≠ 3 then .early
  else if !s.domLive 0 then .off
  else match s.apFind off n wr with
    | none => .refused
    | some dpa =>
      let l := s.dpaLoc dpa
      if s.locStatus l == .domainAsleep then .asleep else .to_ l

/-- n bytes of ones, as the answer to a read. -/
def State.onesReply (s : State) (n : Nat) : State := s.emit (.reply true (2 ^ (8 * n) - 1))

/-- What an access that BAR4 does not serve leaves: the log or count of its reason. -/
def State.apDrop (s : State) (off : Nat) (wr : Bool) : ApGate → State
  | .early => if wr then s.incSat R.BOOT_EARLY_COUNT else s
  | .off => s.incSat R.PWR_DROP_COUNT
  | .refused => s.elog .m0 .aperture off true
  | .asleep => s.elog .m0 .domainOff off true
  | .to_ _ => s

/-- A host read of n bytes through BAR4: answered at once from this die's memory, or by the home die's RDR. -/
def State.bar4Read (s : State) (off n : Nat) : State :=
  match s.apGate off n false with
  | .to_ (.remote a) =>
    if s.locStatus (.remote a) == .ok then
      let d := bitsOf a 41 3
      s.chlAs 0 (some (16, a % 128 * 8192 + n)) fun s => s.chlOut (s.portTo d) d 2 [lineOf a, (a % 128 + n + 127) / 128 - 1]
    else
      let r := s.sinLoad .hif (.remote a) n 0 []
      r.1.onesReply n
  | .to_ l =>
    let r := s.sinLoad .hif l n 0 []
    -- poisoned data goes with the EP bit
    r.1.emit (.reply (r.2.2 == .ok) (ofBytes r.2.1))
  | g => (s.apDrop off false g).onesReply n

/-- A host write through BAR4. A poisoned TLP is discarded. -/
def State.bar4Write (s : State) (off : Nat) (bs : List Nat) (poison : Bool) : State :=
  match s.apGate off bs.length true with
  | .to_ l => if poison then s else s.sinStore .hif l bs
  | g => s.apDrop off true g

/-- A host read (of `n` bytes) or write (of `data`) through BAR4. -/
def execBar4Access (off : BitVec 28) (write : Bool) (n : BitVec 13) (data : List Byte) (poison : Bool) (s : State) :
    Host.Outcome State Fault Refusal :=
  .next (
    if !s.hostOpen then s
    else if write then s.wakeS1.bar4Write off.toNat (data.map BitVec.toNat) poison
    else s.wakeS1.bar4Read off.toNat n.toNat)

/-- A host AtomicOp to BAR4: 0 FetchAdd, 1 Swap, 2 CAS with operands b (add, swap) and c (compare). One that is refused gets an
answer that the spec does not state. -/
def State.bar4Atomic (s : State) (off op : Nat) (w64 : Bool) (b c : Nat) : State :=
  let n := if w64 then 8 else 4
  let code := match op with | 0 => 0 | 1 => 6 | _ => 7
  match s.apGate off n true with
  | .to_ (.remote a) =>
    if s.locStatus (.remote a) == .ok then s.chlAs 0 (some (16, n)) fun s => s.atomSend (.remote a) code w64 false true b c
    else ((s.sinLoad .hif (.remote a) n 0 []).1).onesReply n
  | .to_ (.loc a) =>
    let r := s.atomAt .hif a code w64 false b c 0xFF
    r.1.emit (.reply (r.2.2 == .ok) r.2.1)
  | .to_ l => ((s.sinLoad .hif l n 0 []).1).onesReply n
  | g =>
    let s := s.apDrop off true g
    let (v, s) := s.free (8 * n)
    s.emit (.reply false v)

def execBar4Atomicop (off : BitVec 28) (op : Fin 3) (w64 : Bool) (b c : DWord) (s : State) : Host.Outcome State Fault Refusal :=
  .next (
    if s.hostOpen then
      let w := if w64 then 64 else 32
      s.wakeS1.bar4Atomic off.toNat op w64 (b.toNat % 2 ^ w) (c.toNat % 2 ^ w)
    else s)

/-! ## What a write does, by block -/

/-- A write with no effect beyond its fields. -/
def State.plainWrite (s : State) (m : Master) (off val : Nat) (r : Reg) (i k : Nat) : State := s.lockedWrite m off val r i k id

/-- CHIP, HIF and BOOT windows. -/
def State.liveChip (s : State) (m : Master) (off val : Nat) (r : Reg) (i k : Nat) (e : BusEnv) : State :=
  if off = 0x208 then s.heartbeat (bitB val 0) e.m1dies
  else if off = 0x20C then s.ownRel m (bitsOf val 16 16) (bitB val 4) (bitsOf val 0 2)
  else if r.off = 0x1100 then s.apWrite i val e
  else if off = 0x100014 then s.bootCtl m val
  else s.plainWrite m off val r i k

/-- CRU window. -/
def State.liveCru (s : State) (m : Master) (off val : Nat) (r : Reg) (i k : Nat) (e : BusEnv) : State :=
  if off = 0x200010 then (s.set R.CRU_ECLK_REQ_STEP val).eclkUpdate
  else if off = 0x200108 then s.tbSet m val
  else if off = 0x200400 then s.rstCtl m val e.boot
  else if off = 0x200404 then s.engWrite val
  else s.plainWrite m off val r i k

/-- PWR window. -/
def State.livePwr (s : State) (m : Master) (off val : Nat) (r : Reg) (i k : Nat) : State :=
  if off = 0x300000 then s.pwrReq (bitsOf val 0 3)
  else if off = 0x300020 then s.domReqWrite (bitsOf val 1 5)
  else s.plainWrite m off val r i k

/-- FUM window; the microcontroller and the Warden each write their count of FUM_MBOX. -/
def State.liveFum (s : State) (m : Master) (off val : Nat) (r : Reg) (i k : Nat) : State :=
  if off = 0x380000 then (if bitB val 0 then s.rtcCapture else s)
  else if off = 0x380008 then s.mcuCtl val
  else if off = 0x38000C then
    match m with
    | .m3 =>
      let t := s.set R.FUM_MBOX_M2W (bitsOf val 0 16)
      if t.get R.FUM_MBOX_M2W = s.get R.FUM_MBOX_M2W then t else t.emit (.irqWarden 2)
    | .warden =>
      let t := s.set R.FUM_MBOX_W2M (bitsOf val 16 16)
      if t.get R.FUM_MBOX_W2M = s.get R.FUM_MBOX_W2M then t else t.emit (.irqMcu 0)
    | _ => s
  else if r.off = 0x380040 then s.acmpCfg i val
  else if off = 0x38005C then s.wdacWrite val
  else if off = 0x380080 then s.aocCtl m val
  else if off = 0x3800A0 then s.meCfg m val
  else if off = 0x3800C0 then s.fieCtl m val
  else if off = 0x380400 then (s.putReg r i k val).serCtlPost s 3
  else if off = 0x380404 then s.serCmdWrite m 3 val
  else s.plainWrite m off val r i k

/-- PAD window: a change of what the die drives or of a pin's function makes its events. -/
def State.livePad (s : State) (m : Master) (off val : Nat) (r : Reg) (i k : Nat) : State :=
  if off = 0x400F00 then (if bitB val 0 then s.padRelease else s)
  else if r.off = 0x400400 then (s.putReg r i k val).serCtlPost s i
  else if r.off = 0x400404 then s.serCmdWrite m i val
  else if r.off = 0x400020 || r.off = 0x400038 || r.off = 0x400060 || r.off = 0x400100 then (s.putReg r i k val).padUpdate.padDriven s
  else s.plainWrite m off val r i k

/-- SYN window. -/
def State.liveSyn (s : State) (m : Master) (off val : Nat) (r : Reg) (i k : Nat) : State :=
  if off = 0x600000 then
    let t := s.putReg r i k val
    if bitB val 31 then t.synShadow else t
  else if off = 0x600050 then s.synCmd (bitsOf val 0 4) (bitsOf val 16 16)
  else if off = 0x600084 then s.synAbort (bitsOf val 0 2)
  else s.plainWrite m off val r i k

/-- DTU and SIN windows. -/
def State.liveDtu (s : State) (m : Master) (off val : Nat) (r : Reg) (i k : Nat) (e : BusEnv) : State :=
  if off = 0x700010 then s.dmwinWrite false val
  else if off = 0x700018 then s.dmwinWrite true val
  else if off = 0x700028 then s.dtuInv (bitsOf val 30 2) (bitsOf val 20 5) (bitsOf val 0 20)
  else if off = 0x700058 then (if bitB val 0 then s.acFlushCmd else s)
  else if off = 0x700068 then s.mnCfg m val
  else if off = 0x700070 then s.mnCons m val
  else if off = 0x700074 then
    let t := s.putReg r i k val
    if bitB val 31 then t.set R.DTU_MN_STAT_DROP 0 else t
  else if off = 0x800000 then s.sinCtl m val
  else if r.off = 0x800108 then s.sinAttr m i val
  else if off = 0x800050 then s.sinMaint (bitsOf val 0 3) (bitsOf val 4 2) (bitB val 8) e.unc
  else s.plainWrite m off val r i k

/-- CHL, DCO, CIF and GFX windows. CHL_CTL.ROLLREQ acts on die 0 (R453). -/
def State.liveLink (s : State) (m : Master) (off val : Nat) (r : Reg) (i k : Nat) : State :=
  if off = 0x900000 then (if bitB val 0 && s.isDie0 then s.set R.CHL_STAT_ROLLBUSY 1 else s)
  else if r.off = 0x901000 then s.chlCtlWrite i val
  else if r.off = 0xA01000 then s.dcoCtl i val
  else if r.off = 0xA01040 then s.dcoSubmit i (val % 2 ^ 44)
  else if r.off = 0xA01078 then s.dcoMeshCfg i val
  else if r.off = 0xA01180 then s.dcsHdr m i val
  else if r.off = 0xB01000 then s.cifCtl m i val
  else if r.off = 0xB01030 || r.off = 0xB01040 then (s.putReg r i k val).cifArm i
  else if off = 0xC00008 then s.calResPut m (bitsOf val 0 4)
  else s.plainWrite m off val r i k

/-- WDT, FLT, TXN and Ember windows. -/
def State.liveSys (s : State) (m : Master) (off val : Nat) (r : Reg) (i k : Nat) (e : BusEnv) : State :=
  if off = 0xD00000 then s.wdtCtl m val
  else if off = 0xD0000C then s.wdtKickWrite m (bitsOf val 16 16)
  else if off = 0xD00010 then s.wdtStopWrite m (bitsOf val 16 16)
  else if off = 0xE00008 then s.fqCfg m val
  else if off = 0xE00010 then s.fqConsWrite m val e.ack
  else if off = 0xE00200 then
    let s := if bitB val 0 then s.telSnap else s
    if bitB val 1 then { s with tel := { s.tel with cnt := [] } } else s
  else if off = 0xF00000 then s.txnBegin (bitsOf val 0 17)
  else if off = 0xF00008 then (if bitB val 31 then s.txnCommit (bitsOf val 0 2) (bitsOf val 4 3) (bitsOf val 8 2) else s)
  else if off = 0xF0000C then (if bitB val 31 then s.txnAbort (bitsOf val 0 2) else s)
  else if r.off = 0x1000108 then s.tphSeed i val
  else if r.off = 0x1000200 then s.l1Ctl i val
  else s.plainWrite m off val r i k

/-- A write reaches the register at an offset (for a 64-bit register its low word's, with both words). -/
def State.liveWrite (s : State) (m : Master) (off val : Nat) (r : Reg) (i k : Nat) (e : BusEnv) : State :=
  if off < 0x200000 then s.liveChip m off val r i k e
  else if off < 0x300000 then s.liveCru m off val r i k e
  else if off < 0x380000 then s.livePwr m off val r i k
  else if off < 0x400000 then s.liveFum m off val r i k
  else if off < 0x500000 then s.livePad m off val r i k
  else if 0x600000 ≤ off && off < 0x700000 then s.liveSyn m off val r i k
  else if 0x700000 ≤ off && off < 0x900000 then s.liveDtu m off val r i k e
  else if 0x900000 ≤ off && off < 0xD00000 then s.liveLink m off val r i k
  else if 0xD00000 ≤ off then s.liveSys m off val r i k e
  else s.plainWrite m off val r i k

/-! ## Writes -/

/-- Stores of 32-bit words that the register tables do not hold: mailbox, MSI-X table, AO SRAM, the aliases of PAD_OUT. -/
def State.rawWrite (s : State) (m : Master) (off val : Nat) : Option State :=
  let own := fun (f : State → State) => s.ownerWrite m off val false f
  if 0x4000 ≤ off && off < 0x4800 then some (own fun s => s.rawSet off val)
  else if off = 0x4FF0 then some (own fun s => s.mbxCtl val)
  else if off = 0x4FF4 then some (own fun s =>
    let v := s.rawGet 0x4FF4
    s.rawSet 0x4FF4 (putBit (putBit v 30 (bitB v 30 && !bitB val 30)) 29 (bitB v 29 && !bitB val 29)))
  else if 0x8000 ≤ off && off < 0x8400 then some (s.openWrite m off fun s =>
    if !(m == .m0 || s.owns m) then s.errComp m .nonowner off
    else if off % 16 ≠ 12 then s.rawSet off val
    else
      let n := (off - 0x8000) / 16
      let p := 0x9000 + 4 * (n / 32)
      let s := s.rawSet off (val % 2)
      -- unmasking sends what is pending
      if !bitB val 0 && bitB (s.rawGet p) (n % 32) then (s.rawSet p (putBit (s.rawGet p) (n % 32) false)).emit (.msix n) else s)
  else if 0x3C0000 ≤ off && off < 0x400000 then some (own fun s => { s with ao := putBytes 0 s.ao (off - 0x3C0000) (toBytes 4 val) })
  else if 0x400028 ≤ off && off < 0x400038 then
    let k := off / 4 % 2
    some (own fun s =>
      let v := s.get R.PAD_OUT_OUT k
      (s.set R.PAD_OUT_OUT (if off < 0x400030 then v ||| val else v - (v &&& val)) k).padUpdate.padDriven s)
  else none

/-- The low word of a 64-bit register: held for the high word, unless it is dropped (R10). In a block of an open slot its locks are
checked with the slot's apply (R485). -/
def State.lowWrite (s : State) (m : Master) (off val : Nat) (r : Reg) (i k : Nat) : State :=
  let hold := fun (s : State) => { s with latch := Cells.set {} s.latch m.idx { wr := some (off, val) } }
  if r.off = 0x600108 then s.openWrite m off hold
  else s.gated m off fun n s =>
    if n.isNone && s.lockHolds off && s.changesLocked r i k (val + s.regWord r i k / 2 ^ 32 * 2 ^ 32) then s.errComp m .locked off else hold s

/-- The high word, with the low word held or, when none is held, as it stands. -/
def State.highWrite (s : State) (m : Master) (off val : Nat) (r : Reg) (i k : Nat) (e : BusEnv) : State :=
  let lo := match (Cells.get {} s.latch m.idx).wr with
    | some (o, v) => if o = off - 4 then v else s.regWord r i k % 2 ^ 32
    | none => s.regWord r i k % 2 ^ 32
  let v := val * 2 ^ 32 + lo
  if r.off = 0x600108 then s.openWrite m off fun s => s.synXsig i v
  else s.ownerWrite m off v true fun s => s.liveWrite m (off - 4) v r i k e

/-- A write where no register lies: ignored, but for the domain's answer (R12, R13); an owner's takes an entry of the open slot that
holds its block, or is dropped where the slot is past that (R483, R484). -/
def State.emptyWrite (s : State) (m : Master) (off val : Nat) : State := s.openWrite m off fun s =>
  match if s.owns m && m != .warden then s.txnHolder off else none with
  | none => s
  | some n => match s.get R.TXN_S_STAT_STATE n with
    | 1 => s.stage m n off val false
    | 2 => s.errComp m .txnHeld off
    | _ => s.errComp m .txnFull off

/-- What the microcontroller's local bus calls an offset, as BAR0 calls it (R468, R469); for the other masters the mirrors do not
exist. -/
def mirrorOff (m : Master) (off : Nat) : Nat :=
  if !(0x38F000 ≤ off && off < 0x38F014) then off
  else if m = .m3 then (if off < 0x38F010 then off - 0x38F000 + 0x200 else off)
  else 0x38FFF0

/-- A write by a master within the die's own windows. -/
def State.regWrite (s : State) (m : Master) (off0 size val : Nat) (e : BusEnv) : State :=
  let off := mirrorOff m off0
  if size ≠ 4 || off % 4 ≠ 0 then s.openWrite m off fun s => s.errComp m .unaligned off
  else if off = 0x38F010 then s.pwrReqWrite m (bitsOf val 0 3)
  else match s.rawWrite m off val with
  | some t => t
  | none =>
    if off = 0x204 then s.ownClaimWrite m (bitsOf val 16 16) (bitB val 0)
    else match findReg off with
    | some (r, i, k) => if r.wide then s.lowWrite m off val r i k else s.ownerWrite m off val false fun s => s.liveWrite m off val r i k e
    | none => match findReg (off - 4) with
      | some (r, i, k) => if r.wide then s.highWrite m off val r i k e else s.emptyWrite m off val
      | none => s.emptyWrite m off val

/-! ## Reads -/

/-- Fields that follow the state of their unit, put into the word read. -/
def State.withFields (s : State) (r : Reg) (i k : Nat) (l : List (Field × Nat)) : Nat :=
  (l.foldl (fun (s : State) p => s.set p.1 p.2 i k) s).regWord r i k

/-- The word of a register as a master reads it. -/
def State.readReg (s : State) (m : Master) (r : Reg) (i k : Nat) : Nat :=
  let x := s.em i
  if r.off = 0x200 then s.withFields r 0 0 [
    (R.OWN_STAT_MINE, b2n (s.owns m && m != .warden)),
    (R.OWN_STAT_LEASE, if s.get R.OWN_STAT_STATE ≥ 2 then min 255 ((s.own.leaseEnd - s.tb) / msC) else 0)]
  else if r.off = 0x200114 && s.tbRef then s.withFields r 0 0 [(R.CRU_TB_STAT_LOCK, 1), (R.CRU_TB_STAT_STATE, 0)]
  else if r.off = 0x200108 || r.off = 0x300000 then 0
  else if r.off = 0x30000C then s.pwrQuiet
  else if r.off = 0x380004 then s.withFields r 0 0 [
    (R.FUM_STAT_AOCLK, b2n (s.flag R.FUM_MCU_CTL_RUN || s.flag R.FUM_AOC_CTL_EN || s.flag R.FUM_ME_CFG_EN || s.fum.fie.isSome)),
    (R.FUM_STAT_CAMON, s.get R.FUM_AOC_CTL_EN)]
  else if r.off = 0x400010 then s.padIn i
  else if r.off = 0x500004 then s.withFields r 0 0 [
    (R.WSP_STAT_IDLE, b2n s.wsp.win.isEmpty), (R.WSP_STAT_WIN, min 256 s.wsp.win.length), (R.WSP_STAT_RUNNABLE, min 0xFFFF s.wsp.runq.length)]
  else if r.off = 0x500100 then
    match s.wsp.qs.find? fun q => q.2.slot == some i with
    | none => 0
    | some q => s.withFields r i 0 [
      (R.WSP_QSTAT_STATE, if s.qState q.1 == 1 then 1 else 2),
      (R.WSP_QSTAT_DLW, b2n (q.2.subs.any fun u => u.dl != 0 && !u.missed)),
      (R.WSP_QSTAT_WIN, (s.pkOf q.1).length), (R.WSP_QSTAT_QINDEX, q.1)]
  else if r.off = 0x600004 then s.withFields r 0 0 [
    (R.SYN_STAT_RCTX, s.wsp.ctxs.length), (R.SYN_STAT_RQUE, (s.wsp.qs.filter fun q => q.2.slot.isSome).length),
    (R.SYN_STAT_RSYNC, s.syn.res.length)]
  else if r.off = 0x700004 then s.withFields r 0 0 [
    (R.DTU_STAT_INVQ, (s.dtu.invq.filter fun v => v.itag.isSome).length), (R.DTU_STAT_PINNED, s.dtu.pins.length),
    (R.DTU_STAT_PARKED, s.dtu.park.length), (R.DTU_STAT_HBUSY, s.dtu.hnd.length)]
  else if r.off = 0x700400 then
    let parks := (s.dtu.park.filter fun p => p.stream == i).length
    s.withFields r i 0 [
      (R.DTU_SSTAT_STALL, b2n (parks != 0)), (R.DTU_SSTAT_PARK, parks),
      (R.DTU_SSTAT_HELD, (s.dtu.hnd.filter fun h => h.miss.stream == i).length),
      (R.DTU_SSTAT_SLOTS, (s.dtu.pins.filter fun p => p.refs.contains i).length)]
  else if r.off = 0xC00004 then s.withFields r 0 0 [
    (R.GFX_STAT_BINNING, b2n s.binPass.isSome), (R.GFX_STAT_SPILL, b2n (s.gfx.passes.any fun p => p.phase == .spill)),
    (R.GFX_STAT_TILING, s.tiling), (R.GFX_STAT_RTILES, s.rtiles)]
  else if r.off = 0xD00014 then s.withFields r 0 0 [(R.WDT_STAT_REMAIN, s.wdtRemain)]
  else if r.off = 0xE00014 then s.withFields r 0 0 [
    (R.FQ_STAT_STAGED, s.flt.staged.length), (R.FQ_STAT_SUMPEND, b2n s.flt.sum.isSome)]
  else if r.off = 0x1000008 then s.withFields r i 0 [
    (R.EMB_STAT_IDLE, b2n x.blocks.isEmpty), (R.EMB_STAT_HALTED, s.get R.EMB_CTL_HALT i), (R.EMB_STAT_PREEMPT, b2n x.pre.isSome),
    (R.EMB_STAT_COHORTS, x.residents.length), (R.EMB_STAT_BLOCKS, x.blocks.length)]
  else if r.off = 0x100000C then s.withFields r i 0 [
    (R.EMB_RES_REG_FREE, (((List.range 4).map fun n => (16384 - x.schedRegs n) / 256).min?).getD 0),
    (R.EMB_RES_BASIN_FREE, 16 - x.basinUsed), (R.EMB_RES_CAL_FREE, (262144 - s.calRes - x.calUsed) / 1024)]
  else if r.off = 0x1000100 then s.withFields r i 0 [
    (R.TPH_STAT_TBUSY, b2n (!x.tq.isEmpty)), (R.TPH_STAT_GBUSY, b2n (!x.gq.isEmpty)), (R.TPH_STAT_TQ, x.tq.length),
    (R.TPH_STAT_GQ, x.gq.length), (R.TPH_STAT_COST, x.charge)]
  else s.regWord r i k

/-- A word that no register table holds. -/
def State.readRaw (s : State) (off : Nat) : Option (Nat × State) :=
  if 0x4000 ≤ off && off < 0x5000 || 0x8000 ≤ off && off < 0x8400 || off = 0x9000 || off = 0x9004 then some (s.rawGet off, s)
  else if 0x3FC000 ≤ off && off < 0x400000 && !s.fum.log.isEmpty then some (s.free 32)
  else if 0x3C0000 ≤ off && off < 0x400000 then some (ofBytes (bytesAt 0 s.ao (off - 0x3C0000) 4), s)
  else if 0x400028 ≤ off && off < 0x400038 then some (s.get R.PAD_OUT_OUT (off / 4 % 2), s)
  else if 0x101000 ≤ off && off < 0x102000 then
    let w := Cells.get (0, 0) s.boot.crumbs ((off - 0x101000) / 16)
    some (bitsOf (if off % 16 < 8 then w.1 else w.2) (8 * (off % 8)) 32, s)
  else none

/-- A read of one aligned word, with the master's latch (R10). -/
def State.readWord (s : State) (m : Master) (off : Nat) : Nat × State :=
  let held := (Cells.get {} s.latch m.idx).rd
  let s := { s with latch := Cells.set {} s.latch m.idx {} }
  match s.readRaw off with
  | some r => r
  | none => match findReg off with
    | some (r, i, k) =>
      let v := s.readReg m r i k
      if r.wide then (v % 2 ^ 32, { s with latch := Cells.set {} s.latch m.idx { rd := some (off, v / 2 ^ 32) } }) else (v, s)
    | none => match findReg (off - 4) with
      | some (r, i, k) =>
        if !r.wide then (0, s)
        else match held with
          | some (o, v) => if o = off - 4 then (v, s) else (s.readReg m r i k / 2 ^ 32, s)
          | none => (s.readReg m r i k / 2 ^ 32, s)
      | none => (0, s)

/-- Ones in every byte of a read. -/
def onesOf (size : Nat) : Nat := 2 ^ (8 * size) - 1

/-- A read by a master within the die's own windows (R9, R12, R13, R560): the value and the state. -/
def State.regRead (s : State) (m : Master) (off0 size : Nat) : Nat × State :=
  let off := mirrorOff m off0
  let s0 := s
  let s := if m == .m3 then s else s.wakeS1
  let s := { s with busErr := false }
  let drop := fun (s : State) => { s with latch := Cells.set {} s.latch m.idx {} }
  if m == .m3 && !m3Reach off then (onesOf size, (drop s).errMark m)
  else if s.early m off false then (onesOf size, drop s)
  else if !s.domLive 0 && (domOf off).isSome then (onesOf size, (drop s).incSat R.PWR_DROP_COUNT)
  else if (engOf off).any s0.engRuns || (domOf off).any (fun d => !s.domLive d) then (onesOf size, (drop s).elog m .domainOff off)
  else if size = 8 && off % 8 = 0 then
    let a := s.readWord m off
    let b := a.2.readWord m (off + 4)
    (a.1 + b.1 * 2 ^ 32, b.2)
  else if (size = 1 || size = 2 || size = 4) && off % size = 0 then
    let a := s.readWord m (off / 4 * 4)
    (bitsOf a.1 (8 * (off % 4)) (8 * size), a.2)
  else (onesOf size, (drop s).elog m .unaligned off)

/-! ## The chain window (R25 to R27) -/

/-- A forwarded access ends: ERR, and with an error its entry in CHIP_ELOG; the spec gives that error no KIND. -/
def State.winEnd (s : State) (m : Nat) (err : Bool) : State :=
  let s := s.setB R.CHIP_RWIN_ERR err
  if !err then s
  else
    let was := s.flag R.CHIP_ELOG_VALID
    let s := s.elog (match m with | 1 => .m1 | 2 => .m2 | 3 => .m3 | _ => .m0) .aperture 0x1800000
    if was then s
    else
      let (v, s) := s.free 4
      s.set R.CHIP_ELOG_KIND v

/-- What a window access gives at once: a value (for a write 0), or nothing while another die is asked. -/
def State.winAccess_ (s : State) (m : Master) (w size : Nat) (wr : Option Nat) (e : BusEnv) : Option Nat × State :=
  let s := s.access m
  let off := 0x1800000 + w
  if m == .m3 then (some (onesOf size), s.errMark m)
  else if s.early m off wr.isSome then (some (onesOf size), if wr.isSome then s.incSat R.BOOT_EARLY_COUNT else s)
  else if !s.domLive 0 then (some (onesOf size), (s.incSat R.PWR_DROP_COUNT))
  else if !s.isDie0 || !s.flag R.CHIP_RWIN_EN || s.get R.CHIP_RWIN_SEG = 3 then (some 0, s)
  else
    let d := s.get R.CHIP_RWIN_DIE
    let t := s.get R.CHIP_RWIN_SEG * 0x800000 + w
    if d = 0 then
      match wr with
      | some v =>
        let s := s.regWrite .m1 t size v e
        (some 0, s.setB R.CHIP_RWIN_ERR s.busErr)
      | none =>
        let r := s.regRead .m1 t size
        (some r.1, r.2.set R.CHIP_RWIN_ERR 0)
    else if size ≠ 4 && (wr.isSome || !(size = 1 || size = 2)) || w % size ≠ 0 then (some (onesOf size), s.elog m .unaligned off)
    else if !s.mgmtReach d then (some (onesOf size), s.winEnd m.idx true)
    else
      let s := s.mgmt d 0x05 (toBytes 4 (wr.getD 0)) (t / 4 * 4 + 2 ^ 25 * b2n wr.isSome)
      (none, { s with chl := { s.chl with win := s.chl.win ++ [(d, wr.isSome, m.idx)] } })

/-- A read or write at window offset w by a master; a read's answer goes to the master. -/
def State.winDo (s : State) (m : Master) (w size : Nat) (wr : Option Nat) (e : BusEnv) : State :=
  match s.winAccess_ m w size wr e with
  | (some v, s) => if wr.isNone then s.emit (.reply true v) else s
  | (none, s) => s

def execRwinWindowAccess (m : Master) (w : BitVec 23) (size : Fin 9) (write : Bool) (val : Word) (e : BusEnv) (s : State) :
    Host.Outcome State Fault Refusal :=
  .next (if m = .warden || m = .m1 then s
    else if write then s.winDo m w.toNat size (some val.toNat) e
    else s.winDo m w.toNat size none e)

/-- A debug-port operation that another die has been asked for ends. -/
def State.dapEnd (s : State) (err : Bool) (v : Nat) : State :=
  { s with jtag := { s.jtag with dapStat := if err then 3 else 2, dapData := v } }

/-- The answer to the oldest forwarded access of a die, or the end of its wait: for a read its value goes to the master. -/
def State.winAnswer (s : State) (d : Nat) (err : Bool) (v : Nat) : State :=
  match s.chl.win.find? fun w => w.1 == d with
  | none => s
  | some w =>
    let s := { s with chl := { s.chl with win := s.chl.win.erase w } }
    let s := s.winEnd w.2.2 err
    let v := if err then 2 ^ 32 - 1 else v
    if w.2.2 = 2 then (s.dapEnd false (if w.2.1 then s.jtag.dapData else v))
    else if w.2.1 then s else s.emit (.reply true v)

/-- The die asked gives no answer within 5 ms. -/
def execRwinForwardTimeout (s : State) : Host.Outcome State Fault Refusal :=
  .next (match s.chl.win with
    | [] => s
    | w :: _ => s.winAnswer w.1 true 0)

/-- A write by a master to a BAR0 offset, `size` bytes wide. -/
def State.busWrite (s : State) (m : Master) (off size val : Nat) (e : BusEnv) : State :=
  if 0x1800000 ≤ off && m != .warden then s.winDo m (off - 0x1800000) size (some val) e else s.regWrite m off size val e

def execRegisterWrite (m : Master) (off : BitVec 25) (size : Fin 9) (val : Word) (e : BusEnv) (s : State) :
    Host.Outcome State Fault Refusal :=
  .next (s.busWrite m off.toNat size val.toNat e)

/-! ## The debug access port (R674) -/

/-- DAPREG as captured. -/
def State.dapCapture (s : State) : Nat := s.jtag.dapStat * 2 ^ 64 + s.jtag.dapData * 2 ^ 32 + s.jtag.dapOff

/-- A scan of DAPREG: what it captured goes out; at Update-DR the operation starts if the port is idle. -/
def State.dapOp (s : State) (off : Nat) (wr : Option Nat) (e : BusEnv) : State :=
  if !s.tapLive then s
  else
    let t := s.irLoad irDapreg
    if s.irActs irDapreg ≠ irDapreg then t.emit (.tdo 0)
    else
      let t := t.emit (.tdo s.dapCapture)
      if s.jtag.dapStat = 1 then t
      else
        let t := { t with jtag := { t.jtag with dapOff := off } }
        if !s.domOn 0 || s.rst.asserted.isSome then t.dapEnd true t.jtag.dapData
        else if 0x1800000 ≤ off then
          match t.winAccess_ .m2 (off - 0x1800000) 4 wr e with
          | (some v, t) => t.dapEnd false (if wr.isSome then t.jtag.dapData else v)
          | (none, t) => { t with jtag := { t.jtag with dapStat := 1 } }
        else match wr with
          | some v => let u := t.regWrite .m2 off 4 v e; u.dapEnd u.busErr u.jtag.dapData
          | none => let r := t.regRead .m2 off 4; r.2.dapEnd false r.1

def execDapregRead (off : Word) (e : BusEnv) (s : State) : Host.Outcome State Fault Refusal := .next (s.dapOp (off.toNat % 2 ^ 25) none e)

def execDapregWrite (off data : Word) (e : BusEnv) (s : State) : Host.Outcome State Fault Refusal :=
  .next (s.dapOp (off.toNat % 2 ^ 25) (some data.toNat) e)

/-! ## Applying a transaction (R484, R485) -/

/-- The boundary of a committed slot has come, as far as the state tells: the frame boundaries are the command's own moment. -/
def State.txnDue (s : State) (n : Nat) : Bool :=
  let x := Cells.get {} s.txn n
  match x.bound with
  | 1 => s.tb ≥ x.at_
  | 4 => s.wsp.win.isEmpty && s.gfx.passes.isEmpty &&
    (!bitB (s.get R.TXN_S_BLK_MASK n) 16 || s.emb.all fun e => e.2.blocks.isEmpty)
  | _ => true

/-- Fields by which a block says that it refused a write (R185, R282, R367, R384, R397, R530). -/
def verdictFields : List Field :=
  [R.DCO_C_CSTAT_REJ, R.DCO_C_STAT_CFGERR, R.DTU_INV_STAT_REJ, R.SIN_MAINT_STAT_REJ, R.CIF_P_STAT_CFGERR, R.PWR_EVT_REFUSED]

/-- The master that owns the die. -/
def State.ownMaster (s : State) : Master := match s.get R.OWN_STAT_OWNER with | 1 => .m1 | 2 => .m2 | 3 => .m3 | _ => .m0

/-- One staged write performed. -/
def State.txnEntry (s : State) (x : TxnEntry) (e : BusEnv) : State :=
  let s := { s with busErr := false }
  let off := if x.wide then x.off - 4 else x.off
  if 0x400028 ≤ off && off < 0x400038 then
    let k := off / 4 % 2
    let v := s.get R.PAD_OUT_OUT k
    (s.set R.PAD_OUT_OUT (if off < 0x400030 then v ||| x.val else v - (v &&& x.val)) k).padUpdate.padDriven s
  else match findReg off with
  | some (r, i, k) => s.liveWrite s.ownMaster off x.val r i k e
  | none => s

/-- The write would be refused or dropped: an error answer, a domain that does not serve it, or the block's verdict. -/
def State.txnRefuses (s : State) (x : TxnEntry) (e : BusEnv) : Bool :=
  (engOf x.off).any s.engRuns || (domOf x.off).any (fun d => !s.domLive d) ||
  (let r := findReg (if x.wide then x.off - 4 else x.off)
   let ik := match r with | some (_, i, k) => (i, k) | none => (0, 0)
   let mine := verdictFields.filter fun f => (txnBlock f.off) == txnBlock x.off
   let t := (mine.foldl (fun (s : State) f => s.set f 0 ik.1 ik.2) s).txnEntry x e
   t.busErr || mine.any fun f => t.get f ik.1 ik.2 != 0)

/-- The entries in order: the first that fails, or the state with all applied. -/
def State.txnRun (s : State) (e : BusEnv) : Nat → List TxnEntry → Nat ⊕ State
  | _, [] => .inr s
  | n, x :: l => if s.txnRefuses x e then .inl n else (s.txnEntry x e).txnRun e (n + 1) l

/-- The boundary of a committed slot: all its entries apply, or none. -/
def State.txnApply (s : State) (n : Nat) (e : BusEnv) : State :=
  if s.get R.TXN_S_STAT_STATE n ≠ 2 || !s.txnDue n then s
  else
    let s := s.wakeS1
    match s.txnRun e 0 (s.staged.filter fun x => x.slot == n) with
    | .inr t => { t with busErr := false }.txnEnd n 1
    | .inl i => (s.txnEnd n 5).set R.TXN_S_STAT_FAILIDX i n

def execTxnBoundaryApply (slot : Fin 4) (e : BusEnv) (s : State) : Host.Outcome State Fault Refusal := .next (s.txnApply slot e)

/-! ## CHL_CTL (R453) -/

/-- A write of CHL_CTL with ROLLREQ = 1: on die 0 a roll call is due. -/
def execChlRollreq (m : Master) (s : State) : Host.Outcome State Fault Refusal :=
  .next (s.ownerWrite m 0x900000 1 false fun s => if s.isDie0 then s.set R.CHL_STAT_ROLLBUSY 1 else s)

end Sys2Proof.Machine
end

