-- ==== Sys2Proof/Machine/ChlMsg.lean ====
section
/-!
DEFINITION. What a die does with the messages that reach its chain ports (R429 to R431, R440 to R450, R519, R520, R566 to R571).
-/

namespace Sys2Proof.Machine

/-! ## The parts of a message -/

/-- Little-endian number in the data of a message. -/
def ChlMsg.num (m : ChlMsg) (i n : Nat) : Nat := ofBytes ((m.data.drop i).take n)

/-- A message of this die's own making on a port, whatever its state lets it queue. -/
def State.chlReply (s : State) (p : Nat) (m : ChlMsg) : State := s.chlPost p { m with src := s.die }

/-- Count a dropped entry (R445, R449). -/
def State.chlDropped (s : State) (p : Nat) : State := s.incSat R.CHLP_DROP_COUNT p

/-- A protocol violation (R448, R449): the entry is dropped; more than 64 in 1 ms end the link. -/
def State.chlViolate (s : State) (p : Nat) : State :=
  let s := s.chlDropped p
  let viol := s.tb :: (s.chlPort p).viol.filter fun t => s.tb - t < msC
  if viol.length > 64 then s.chlDown p 6 true else s.chlUpd p fun x => { x with viol }

/-- NDATA that an opcode takes, where it is fixed; for management the subtypes whose length R431 gives. -/
def ndOf (m : ChlMsg) : Option Nat :=
  match m.op with
  | 1 | 2 | 5 | 9 => some 0
  | 3 => some m.lines
  | 4 => some 1
  | 8 => none
  | 0x20 => match m.sub with | 1 => some 3 | 7 => some 32 | _ => none
  | _ => some 1

/-- An opcode of R430 that is not link control. -/
def opKnown (op : Nat) : Bool := (1 ≤ op && op ≤ 5) || op == 8 || op == 9 || (0x10 ≤ op && op ≤ 0x1A) || op == 0x20

/-- The entry by itself is a protocol violation: opcode, subtype, VC, NDATA. -/
def ChlRx.bad (r : ChlRx) : Bool :=
  !opKnown r.msg.op || (r.msg.op == 0x20 && !(1 ≤ r.msg.sub && r.msg.sub ≤ 15)) || r.vc ≠ chlVc r.msg.op || r.nd > 32 ||
  (match ndOf r.msg with | some n => n != r.nd | none => false)

/-- A message as an entry with its flits. -/
def ChlMsg.rx (m : ChlMsg) : ChlRx := { msg := m, vc := chlVc m.op, nd := m.nd, need := 0 }

/-! ## Memory requests at the home die (R164, R174, R196) -/

/-- The response status of an access (R430). -/
def rspStatus (st : Status) (poisoned : Bool) : Nat :=
  match st with
  | .ok => 0
  | .error => if poisoned then 2 else 1
  | .domainAsleep => 3
  | .linkDown => 4
  | .timeout => 5
  | .unreachable => 6

/-- Some line of the range is poisoned. -/
def State.anyPoison (s : State) (dpa n : Nat) : Bool := (List.range n).any fun i => (s.poisoned (dpa + 128 * i) false).isSome

/-- Runs of bytes that a mask selects in a line: offset and bytes. -/
def maskRuns : Nat → Nat → Nat → List Nat → List (Nat × List Nat) → List (Nat × List Nat)
  | 0, _, _, _, acc => acc.reverse
  | fuel + 1, i, mask, data, acc =>
    let b := data.getD i 0
    if !bitB mask i then maskRuns fuel (i + 1) mask data acc
    else match acc with
      | (o, l) :: rest =>
        if o + l.length = i then maskRuns fuel (i + 1) mask data ((o, l ++ [b]) :: rest) else maskRuns fuel (i + 1) mask data ((i, [b]) :: acc)
      | [] => maskRuns fuel (i + 1) mask data [(i, [b])]

/-- RD and RDB: the lines, by RDR. -/
def State.homeRead (s : State) (p : Nat) (m : ChlMsg) : State :=
  let n := m.lines
  let bad := s.anyPoison m.dpa n
  let r := s.sinLoad .die (s.dpaLoc m.dpa) (128 * n) 0 []
  let st := rspStatus r.2.2 bad
  r.1.chlAnswer p m.src m.tag m.op st 0 r.2.1 (st == 2)

/-- WR and WRP: the store, by RSP. Poisoned data makes its lines poisoned. -/
def State.homeWrite (s : State) (p : Nat) (m : ChlMsg) : State :=
  let l := s.dpaLoc m.dpa
  let st := s.locStatus l
  let t :=
    if st ≠ .ok then s.sinStore .die l []
    else if m.op = 3 then
      let u := s.sinStore .die l m.data
      if m.poison then (List.range m.lines).foldl (fun s i => s.poison (m.dpa + 128 * i) false) u else u
    else
      let u := (maskRuns 128 0 (ofBytes m.raw) m.data []).foldl (fun s r => s.sinStore .die (s.dpaLoc (m.dpa + r.1)) r.2) s
      if m.poison then u.poison m.dpa false else u
  t.chlAnswer p m.src m.tag m.op (rspStatus st false + (if st == .ok && m.op == 4 && s.anyPoison m.dpa 1 then 2 else 0)) 0 []

/-- ATM: the old value, by RSP. -/
def State.homeAtom (s : State) (p : Nat) (m : ChlMsg) : State :=
  let w64 := bitB m.arg 48
  match s.dpaLoc m.dpa with
  | .loc a =>
    let bad := s.anyPoison (lineOf m.dpa) 1
    let w := if w64 then 64 else 32
    let r := s.atomAt .die a (bitsOf m.arg 44 4) w64 (bitB m.arg 49) (ofBytes (m.raw.take 8) % 2 ^ w)
      (ofBytes ((m.raw.drop 8).take 8) % 2 ^ w) 0xFF
    r.1.chlAnswer p m.src m.tag 5 (rspStatus r.2.2 bad) r.2.1 []
  | l =>
    let r := s.sinLoad .die l (if w64 then 8 else 4) 0 []
    r.1.chlAnswer p m.src m.tag 5 (rspStatus r.2.2 false) (ofBytes r.2.1) []

/-! ## Responses (R448, R519) -/

/-- A response to a request of this die. One that says DOMAIN_ASLEEP leaves the request waiting for WAKE, but for the host's. -/
def State.rspTake (s : State) (p : Nat) (m : ChlMsg) : State :=
  match s.chl.req.find? fun r => r.msg.tag == m.tag && r.msg.dst == m.src && (r.msg.op < 3) == (m.op == 8) with
  | none => s.chlViolate p
  | some r =>
    if m.op = 8 && m.st = 0 && m.nd ≠ r.lines then s.chlViolate p
    else if m.st = 3 && r.acc.map (·.1) != some 16 then
      { s with chl := { s.chl with req := s.chl.req.map fun x => if x.msg.tag == m.tag then { x with wait := true } else x } }
    else
      let s := if m.st = 3 then s.elog .m0 .domainOff 0 true else s
      s.chlFinish r (if m.poison && m.st = 0 then 2 else m.st) (bitsOf m.arg 0 64) m.data m.poison

/-- WAKE from a die: what waits for it goes out again (R520). -/
def State.reissue (s : State) (to_ : Nat → Bool) : State :=
  let l := s.chl.req.filter fun r => r.wait && to_ r.msg.dst
  let s := { s with chl := { s.chl with req := s.chl.req.map fun r => if r.wait && to_ r.msg.dst then { r with wait := false } else r } }
  l.foldl (fun s r => s.chlPost (s.portTo r.msg.dst) r.msg) s

/-! ## SYN class (R431) -/

/-- A signal or wait at the object's home die, when its handle passes R250; one that fails is dropped, counted and recorded. -/
def State.synHome (s : State) (h v : Nat) (f : State → State) : State :=
  match s.objCheck 0 h with
  | 0 => if hDie h = s.die then f s else s
  | e => s.objFail 3 0xFF h v e

/-- The result of a handle check reaches the packets that asked. -/
def State.objRes (s : State) (h res : Nat) : State :=
  { s with wsp := { s.wsp with win := s.wsp.win.map fun p =>
    { p with chk := p.chk.map fun c => if c.1 == h && c.2.isNone then (h, some res) else c } } }

/-- INVDONE at die 0. -/
def State.invDoneFrom (s : State) (d seq : Nat) : State :=
  { s with dtu := { s.dtu with invq := s.dtu.invq.map fun v => if v.seq == seq then { v with wait := v.wait.filter (· != d) } else v } }

/-- PRXREQ at die 0 (R234): a free proxy entry, at most 16 for one die, and the request under die 0's own Requester ID. -/
def State.prxTake (s : State) (d : Nat) (a : List Nat) : State :=
  if !s.isDie0 || (s.dtu.prx.filter fun x => x.2.die == d).length ≥ 16 then s
  else match (List.range 64).find? fun i => (s.dtu.prx.lookup i).isNone with
    | none => s
    | some i =>
      let page := a.getD 0 0 ≥ 128
      let s := { s with dtu := { s.dtu with prx := Cells.put s.dtu.prx i { die := d, tag := a.getD 0 0 % 128, page } } }
      if page then s.emit (.pageReq (128 + i) (a.getD 1 0) (a.getD 2 0) true (a.getD 3 0 != 0))
      else s.emit (.atsReq (32 + i) (a.getD 1 0) (a.getD 2 0) (a.getD 3 0 != 0))

/-- PRXRSP at the die that asked. -/
def State.prxAnswer (s : State) (a : List Nat) : State :=
  let x := fun i => a.getD i 0
  if x 0 = 0 then s.atsDone (x 1) {
    ok := x 2 != 0, tbase := x 3, lg := x 4, r := x 5 != 0, w := x 6 != 0, u := x 7 != 0, g := x 8 != 0 }
  else s.prgDone (x 1) (x 2)

/-- A SYN-class message at its destination. -/
def State.synMsg (s : State) (m : ChlMsg) : State :=
  let h := m.num 0 4
  match m.op with
  | 0x10 => s.synHome h (m.num 8 8) fun s => s.synPendHere (hIdx h) m.src (m.num 8 8)
  | 0x11 => s.synHome h (m.num 8 8) fun s => (s.synUnpend (hIdx h) m.src (m.num 8 8)).synApply (hIdx h) (m.num 8 8) (m.num 4 2)
  | 0x12 =>
    match s.objCheck 0 h with
    | 0 => if hDie h = s.die then s.synWaitHere (hIdx h) (m.num 8 8) m.src (m.num 4 4) else s
    | _ => s.synDeliver m.src (m.num 4 4) (9, true)
  | 0x13 => s.synSat (m.num 4 4) (m.num 8 2) (bitB (m.num 10 1) 0)
  | 0x14 => s.bellHere h (m.num 4 4) (m.num 8 1)
  | 0x15 => s.chlOut (s.portTo m.src) m.src 0x16 [h, m.num 4 1, objResult (s.objCheck (m.num 4 1) h)]
  | 0x16 => s.objRes h (m.num 5 1)
  | 0x17 =>
    let pasid := m.num 8 4
    let sz := 4096 * 2 ^ (min 52 (m.num 12 1))
    let lo := m.num 0 8 / sz * sz
    s.invAccept lo (lo + sz) (if bitB pasid 31 then none else some (bitsOf pasid 0 20)) (bitB (m.num 13 1) 0) none (some (m.num 16 4))
  | 0x18 => s.invDoneFrom m.src (m.num 16 4)
  | 0x19 => s.prxTake m.src m.tlp
  | _ => s.prxAnswer m.tlp

/-! ## Joining (R440 to R442, R446) -/

/-- The die's certificate (R440). The keys and the signature are the die's own, uninterpreted functions of its UID (log entry 43). -/
def State.dieCert (s : State) : List Nat :=
  toBytes 4 0x43484C43 ++ toBytes 2 1 ++ [s.get R.CHIP_ID_VARIANT, 0] ++ toBytes 16 s.uid ++
  toBytes 72 (Config.fixedBits 576 [0x43, s.uid]).toNat ++ toBytes 32 0 ++ toBytes 64 (Config.fixedBits 512 [0x44, s.uid]).toNat

/-- HELLO goes out: certificate, nonce, ephemeral key, encryption requested. The nonce and the key are fresh free values. -/
def State.sendHello (s : State) (p : Nat) : State :=
  let (n, s) := s.free 256
  let (k, s) := s.free 512
  let bs := s.dieCert ++ toBytes 32 n ++ toBytes 64 k ++ [s.get R.CHLP_CTL_ENC p]
  (s.chlUpd p fun x => { x with mine := bs }).mgmtLocal p 1 bs

/-- The first flit or entry ends FLITUP (R425): AUTH, and this die's HELLO. -/
def State.chlFlitUp (s : State) (p : Nat) : State :=
  if (s.chlPort p).flitup then ((s.chlUpd p fun x => { x with flitup := false }).chlState p 3).sendHello p else s

/-- UID in a HELLO. -/
def helloUid (h : List Nat) : Nat := ofBytes ((h.drop 8).take 16)

/-- HELLO arrives in AUTH: the partner's UID is shown; checks that fail end the link; encryption and PROOF. -/
def State.helloIn (s : State) (p : Nat) (bs : List Nat) (ok : Bool) : State :=
  if s.get R.CHLP_STAT_STATE p ≠ 3 then s.chlViolate p
  else
    let uid := helloUid bs
    let s := (List.range 4).foldl (fun s k => s.set R.CHLP_PEER_UID_UID (bitsOf uid (32 * k) 32) p k) s
    if !ok then s.authFail p
    else
      let s := s.chlUpd p fun x => { x with hello := bs }
      let x := s.chlPort p
      let s := s.setB R.CHLP_STAT_ENCON (bitB (x.mine.getD 288 0) 0 || bitB (bs.getD 288 0) 0) p
      let lohi := if s.uid < uid then x.mine ++ bs else bs ++ x.mine
      s.mgmtLocal p 2 (toBytes 64 (Config.fixedBits 512 (0x50 :: s.uid :: lohi)).toNat)

/-- The Warden runs and holds a verified image to broadcast (R566). -/
def State.hasBundle (s : State) : Bool := s.get R.BOOT_STAT_PHASE == 2 || s.ready

/-- A CHAIN die in RECEIVE: its image is pending. -/
def State.receiving (s : State) : Bool := s.isChainDie && s.get R.BOOT_STAT_PHASE == 1 && s.get R.BOOT_STAT_STEP == 22 && !s.hung

/-- ROLLINFO of this die (R431). -/
def State.rollInfo (s : State) : List Nat :=
  toBytes 16 s.uid ++ [s.get R.CHL_STAT_ROOT + 2 * s.get R.CHL_ROLL_VALID + 4 * s.die + 32 * b2n (bitB (s.get R.BOOT_LICSTAT_EN) 0) +
    64 * b2n s.receiving, 0, 0, 0] ++ toBytes 4 (s.get R.CHL_GEN_GEN) ++ toBytes 4 (s.get R.BOOT_WGENMIN_VALUE) ++
    toBytes 4 (s.get R.BOOT_WGENMAX_VALUE)

def State.sendRollInfo (s : State) (p : Nat) : State := s.mgmtLocal p 3 s.rollInfo

/-- PROOF arrives. A port whose partner sleeps takes back only the UID it recorded, and waits for its WAKE (R446). -/
def State.proofIn (s : State) (p : Nat) (ok : Bool) : State :=
  let x := s.chlPort p
  if s.get R.CHLP_STAT_STATE p ≠ 3 || x.hello.isEmpty then s.chlViolate p
  else if !ok then s.authFail p
  else
    let uid := helloUid x.hello
    if x.asleep && uid ≠ x.uid then s.chlDown p 7 false
    else
      let s := s.chlPut p { x with proved := true, tries := 0, uid }
      if x.asleep then s.chlState p 7
      else
        let s := (s.chlState p 4).sendRollInfo p
        if s.chl.wake.contains p then { s with chl := { s.chl with wake := s.chl.wake.filter (· != p) } }.mgmtLocal p 0x0A [3] else s

/-! ## The bundle (R566, R567; log entry 48) -/

/-- Cut bytes into blocks of 4 KiB, the last filled with zeros. -/
def blocksOf : Nat → List Nat → List (List Nat)
  | 0, _ => []
  | _, [] => []
  | fuel + 1, bs => (bs.take 4096 ++ List.replicate (4096 - min 4096 bs.length) 0) :: blocksOf fuel (bs.drop 4096)

/-- The parts of this die's bundle, by directory type. -/
def State.bundleParts (s : State) : List (Nat × DirEnt) :=
  [1 + s.get R.BOOT_STAT_SLOT, 3 + s.get R.BOOT_COMPAT_FSLOT, 5, 6, 7].filterMap fun t => (s.dirEnt t).map fun e => (t, e)

/-- The blocks of the bundle: the header, then the parts. -/
def State.bundle (s : State) : List (List Nat) :=
  let parts := s.bundleParts
  let body := parts.flatMap fun p => blocksOf (p.2.len / 4096 + 1) (s.flBytes p.2.off p.2.len)
  let ents := (List.range 5).flatMap fun i => match parts[i]? with
    | some (t, e) => toBytes 4 t ++ toBytes 4 e.off ++ toBytes 4 e.len ++ toBytes 4 e.flags ++ toBytes 16 0
    | none => toBytes 32 0
  let digs := body.flatMap fun b => toBytes 32 (Config.fixedBits 256 (0x53 :: b)).toNat
  let head := toBytes 4 0x42554E44 ++ toBytes 28 0 ++ ents ++ digs
  (head.take 4096 ++ List.replicate (4096 - min 4096 head.length) 0) :: body

/-- Send the bundle on a port. -/
def State.sendBundle (s : State) (p : Nat) : State :=
  let b := s.bundle
  (List.range b.length).foldl (fun s i => s.mgmtLocal p 7 (b.getD i []) i) s

/-- The parts that a header names: type, offset, length, flags. -/
def bundleEnts (h : List Nat) : List (Nat × Nat × Nat × Nat) :=
  let w := fun i => ofBytes ((h.drop i).take 4)
  ((List.range 5).map fun i => (w (32 + 32 * i), w (36 + 32 * i), w (40 + 32 * i), w (44 + 32 * i))).filter fun e => e.1 != 0

/-- Blocks of a bundle with this header. -/
def bundleLen (h : List Nat) : Nat := 1 + ((bundleEnts h).map fun e => (e.2.2.1 + 4095) / 4096).sum

/-- The parts of a complete bundle stand as the flash regions that its directory names, with a directory of their own. -/
def State.bundleStore (s : State) : State :=
  let blk := fun i => (s.boot.blocks.lookup i).getD []
  let ents := bundleEnts (blk 0)
  let dir := toBytes 4 0x43444952 ++ toBytes 4 1 ++ toBytes 4 ents.length ++ toBytes 4 0 ++
    ents.flatMap fun e => toBytes 4 e.1 ++ toBytes 4 e.2.1 ++ toBytes 4 e.2.2.1 ++ toBytes 4 e.2.2.2 ++ toBytes 16 0
  let dir := dir ++ List.replicate (0xFFC - dir.length) 0
  let s := { s with flash := putBytes 0xFF s.flash 0 (dir ++ toBytes 4 (crc32 dir)) }
  (ents.foldl (fun (x : State × Nat) e =>
    let n := (e.2.2.1 + 4095) / 4096
    let bs := ((List.range n).flatMap fun i => blk (x.2 + i)).take e.2.2.1
    ({ x.1 with flash := putBytes 0xFF x.1.flash e.2.1 bs }, x.2 + n)) (s, 1)).1

/-- Every block has come: the image runs from WARDEN, or the bundle is asked for again, twice, and then the die is FAILED. -/
def State.bundleDone (s : State) (ok : Bool) : State :=
  let t := s.bundleStore
  let w := match (bundleEnts ((s.boot.blocks.lookup 0).getD [])).find? fun e => e.1 = 1 || e.1 = 2 with
    | some e => if ok && t.wardenOk e.2.1 then some e else none
    | none => none
  match w with
  | some e =>
    let t := ({ t with boot := { t.boot with warden := e.2.1, blocks := [], recvPort := none } }.stepOk 22 0 0 0).setB R.BOOT_STAT_SLOT (e.1 == 2)
    t.bootWarden
  | none =>
    let n := s.boot.tries + 1
    let u := { s with boot := { s.boot with blocks := [], recvPort := none, tries := n } }
    if n > 2 then (u.stepFail 22 0 0x0200).bootFatal 22 0x0200
    else match s.boot.recvPort with
      | some p => u.sendRollInfo p
      | none => u

/-- FWBLK on a port: taken in RECEIVE, relayed to a partner whose image is pending. -/
def State.blockIn (s : State) (p idx : Nat) (data : List Nat) (ok : Bool) : State :=
  if !s.receiving || !(s.boot.recvPort.all (· == p)) then s
  else
    let s := if (s.chlPort (1 - p)).pend then s.mgmtLocal (1 - p) 7 data idx else s
    let s := { s with boot := { s.boot with recvPort := some p, blocks := Cells.put s.boot.blocks idx data } }
    match s.boot.blocks.lookup 0 with
    | some h => if s.boot.blocks.length ≥ bundleLen h then s.bundleDone ok else s
    | none => s

/-- ROLLINFO from the partner: generation, number, image pending; a bundle that this die holds goes out. -/
def State.rollInfoIn (s : State) (p : Nat) (bs : List Nat) : State :=
  let w := fun i n => ofBytes ((bs.drop i).take n)
  let s := (s.set R.CHLP_PEER_GEN_GEN (w 20 4) p).set R.CHLP_PEER_GEN_MIN (w 24 4) p
  let f := w 16 1
  let s := if bitB f 1 then s.set R.CHLP_STAT_PEERDIE (bitsOf f 2 3) p else s
  let s := s.chlUpd p fun x => { x with pend := bitB f 6 }
  if bitB f 6 && s.hasBundle && 5 ≤ s.get R.CHLP_STAT_STATE p then s.sendBundle p else s

/-! ## Numbers and routes (R443 to R445) -/

/-- What follows when the dies that memory traffic reaches have changed: copies and requests of those lost, and on a die that die 0
serves again an empty ATC (R186, R236, R450). -/
def State.routesMoved (s old : State) : State :=
  let gone := fun d => d != s.die && old.memReach d && !s.memReach d
  let s := if (List.range 8).any gone then
      let s := s.sinLinkLost gone
      let mine := s.chl.req.filter fun r => gone r.msg.dst
      let s := mine.foldl (fun s r => s.chlFinish r 4 0 []) s
      ((s.synLinkLost gone).dtuLinkLost gone).chkLost gone
    else s
  if !old.memReach 0 && s.memReach 0 && s.flag R.DTU_CTL_PROXY then
    { s with dtu := { s.dtu with atc := [], pins := s.dtu.pins.map fun p => { p with ent := none } } }
  else s

/-- A port enters ACTIVE. A die whose image is pending says so. -/
def State.portActive (s : State) (p : Nat) : State :=
  let was := s.get R.CHLP_STAT_STATE p
  let s := (s.chlState p 5).set R.CHLP_STAT_QREASON 0 p
  let s := if s.receiving && was ≠ 5 then s.sendRollInfo p else s
  s.chlPump p

/-- A port enters or stays in QUARANTINE: its reason, and at the entry the LINK record, with CHAIN_GEN's for GEN (R605). -/
def State.portQuar (s : State) (p r : Nat) : State :=
  let new := s.get R.CHLP_STAT_STATE p ≠ 6 || s.get R.CHLP_STAT_QREASON p ≠ r
  let s := (s.chlState p 6).set R.CHLP_STAT_QREASON r p
  if !new then s
  else
    let s := s.fault { cls := 7, cause := 0x10, sub := r, src := p, d0 := (s.chlPort p).uid % 2 ^ 64 }
    if r = 1 then s.fault { cls := 10, cause := 0x0A, d0 := p + s.get R.CHLP_PEER_GEN_GEN p * 2 ^ 32 } else s

/-- The ports follow a roll call: `q` is each port's quarantine reason, 0 for none. A port over which no die is routed stays as it is. -/
def State.portsSet (s : State) (q : Nat → Nat) : State :=
  [0, 1].foldl (fun (s : State) p =>
    let st := s.get R.CHLP_STAT_STATE p
    if !(4 ≤ st && st ≤ 6) then s
    else if q p ≠ 0 then s.portQuar p (q p)
    else if (List.range 8).any fun d => s.routedBy p d then s.portActive p
    else s) s

/-- What a die does once it has its number: messages held for die 0, and after S3 the WAKE to every die (R520, R567). -/
def State.numbered (s : State) : State :=
  let l := s.chl.held
  let s := { s with chl := { s.chl with held := [] } }
  let s := l.foldl (fun s m => s.mgmt 0 m.1 m.2) s
  if s.chl.wake.contains 2 then { s with chl := { s.chl with wake := s.chl.wake.filter (· != 2) } }.wakeDies 3 else s

/-- ROLLSET: number, die count, routes, hops, epoch; `q` is what this die's ports find of their links. -/
def State.rollSet (s : State) (num : Nat) (quar : Bool) (count routes hops epoch : Nat) (q : Nat → Nat) : State :=
  let old := s
  let s := ((s.set R.CHL_ROLL_DIE num).set R.CHL_ROLL_VALID 1).set R.CHL_ROLL_COUNT count
  let s := (s.set R.CHL_ROLL_EPOCH epoch).setB R.CHL_STAT_QDIE quar
  let s := (List.range 8).foldl (fun s d => s.setRoute d (bitsOf routes (4 * d) 4) (bitsOf hops (4 * d) 4)) s
  (((s.portsSet q).routesMoved old).tbJoin old).numbered

/-! ## Boot reports and flash records (R567 to R570) -/

/-- A test slot is granted: the window begins; a grant that comes late goes back. -/
def State.slotGrant (s : State) : State :=
  if s.boot.waitSlot then
    let s := s.crumb 12 5 0 0 ((s.tb - s.boot.waitFrom) / usC)
    { s with boot := { s.boot with hasSlot := true } }.bootWindow
  else s.mgmtZero 0x0E (s.bootRep 3 s.die)

/-- A die asks die 0 for a slot. -/
def State.slotReq (s : State) (d : Nat) : State := { s with boot := { s.boot with slotQ := s.boot.slotQ ++ [d] } }.slotPump 9

/-- A die returns its slot. -/
def State.slotRet (s : State) (d : Nat) : State := { s with boot := { s.boot with slots := s.boot.slots.filter (· != d) } }.slotPump 9

/-- A die reports its PHASE: BOOT_CHAIN, vector 14, and READY where die 0 waited for it. -/
def State.bootRepIn (s : State) (d phase : Nat) : State :=
  let r := s.get R.BOOT_CHAIN_READY
  let f := s.get R.BOOT_CHAIN_FAILED
  let s := (s.set R.BOOT_CHAIN_READY (putBit r d (phase == 3))).set R.BOOT_CHAIN_FAILED (putBit f d (phase == 4))
  let s := if s.boot.waitChain || s.get R.BOOT_CHAIN_WAIT ≠ 0 then s.chainWait else s
  let s := s.vectorIf (phase == 3 && s.ready) 14
  if s.boot.waitChain && s.chainReported then s.bootReady else s

/-- BOOTREP: by its kind. -/
def State.bootRepMsg (s : State) (m : ChlMsg) : State :=
  match m.num 0 1 with
  | 1 => if s.isDie0 then s.slotReq m.src else s
  | 2 => s.slotGrant
  | 3 => if s.isDie0 then s.slotRet m.src else s
  | 4 => if s.isDie0 then s.bootRepIn m.src (m.num 2 1) else s
  | _ => s

/-- FLASHREC: the record goes into the broadcaster's own flash. -/
def State.flashRec (s : State) (ty : Nat) (bs : List Nat) : State :=
  if s.isChainDie then s
  else match ty, s.dirEnt ty with
    | 7, some e =>
      let n := s.supCount e
      if n < e.len / 32 then s.flProg (e.off + 32 * n) (bs.take 32) else s
    | 8, some e => let p := s.jslot e; p.1.flProg p.2 (bs.take 256)
    | _, _ => s

/-! ## Management (R431) -/

/-- REGREQ: an access of master M1, answered by REGRSP. -/
def State.regReq (s : State) (src marg val : Nat) (e : ChlEnv) : State :=
  let off := marg % 2 ^ 25
  let go := fun (s : State) (err : Bool) (v : Nat) =>
    if s.mgmtReach src then s.chlPost (s.portTo src) { mgtMsg 6 marg false (toBytes 4 v) with src := s.die, dst := src, st := b2n err } else s
  if 0x1800000 ≤ off then go { s with busErr := false } false 0
  else if bitB marg 25 then
    let t := s.regWrite .m1 off 4 val e.bus
    go t t.busErr 0
  else
    let r := s.regRead .m1 off 4
    go r.2 false r.1

/-- SLEEP on a port (R446). -/
def State.sleepIn (s : State) (p : Nat) : State :=
  let st := s.get R.CHLP_STAT_STATE p
  if !(st = 5 || st = 6) then s
  else
    let s := (s.chlUpd p fun x => { x with was := st, asleep := true }).chlState p 7
    (List.range 8).foldl (fun s d => if s.routedBy p d then s.setRoute d (s.route d % 8 + 8) (s.hops d) else s) s

/-- WAKE from the partner of a port: the link is ACTIVE again. -/
def State.wakePort (s : State) (p : Nat) : State :=
  let x := s.chlPort p
  let back := s.get R.CHLP_STAT_STATE p = 7 && x.asleep && x.proved
  let s := if back then (s.chlPut p { x with asleep := false }).chlState p x.was else s
  let s := if back then
      (List.range 8).foldl (fun s d => if s.routedBy p d then s.setRoute d (s.route d % 8) (s.hops d) else s) s
    else s
  (s.reissue fun d => s.routedBy p d).chlPump p

/-- DMWIN on a die other than 0 (R212). -/
def State.dmwinIn (s : State) (base lim : Nat) : State :=
  if s.isDie0 then s
  else ((s.set R.DTU_DMWIN_BASE_ADDR (base / 2 ^ 30)).set R.DTU_DMWIN_BASE_EN (base % 2)).set R.DTU_DMWIN_LIM_ADDR (lim / 2 ^ 30)

/-- IRQ at die 0 (R464, R489). -/
def State.irqIn (s : State) (v d : Nat) : State :=
  if s.isDie0 && s.flag R.HIF_CTL_FWD then (s.idieSet (v % 16) (d % 8)).msix (v % 16) else s

/-- TSYNC: REQ is answered with RSP and FOLLOW; RSP and FOLLOW go on with the exchange (R506, R507). -/
def State.tsyncIn (s : State) (p : Nat) (m : ChlMsg) (e : ChlEnv) : State :=
  let q := m.num 1 1
  match m.num 0 1 with
  | 0 => s.tsyncReq p q e.t2 e.t3
  | 1 => s.tsyncRsp q (bitB (m.num 2 1) 0) (m.num 8 10) e.t2
  | _ => s.tsyncFollow q (m.num 8 10)

/-- A management message for this die. -/
def State.mgtMsgIn (s : State) (p : Nat) (m : ChlMsg) (e : ChlEnv) : State :=
  match m.sub with
  | 1 => s.helloIn p m.data (e.certOk && e.hashOk)
  | 2 => s.proofIn p e.proofOk
  | 3 => if m.local_ then s.rollInfoIn p m.data else s
  | 4 =>
    let routes := m.num 4 4
    let mgmtOnly := fun (q : Nat) => (List.range 8).any fun d => bitsOf routes (4 * d) 2 == q && bitB (bitsOf routes (4 * d) 4) 2
    let r := s.free 4
    let s := if mgmtOnly 0 || mgmtOnly 1 then r.2 else s
    s.rollSet (bitsOf (m.num 0 1) 0 3) (bitB (m.num 1 1) 0) (m.num 2 1 - 1) routes (m.num 8 4) (m.num 36 4) fun q => if mgmtOnly q then r.1 else 0
  | 5 => s.regReq m.src m.marg (m.num 0 4) e
  | 6 => s.winAnswer m.src (m.st != 0) (m.num 0 4)
  | 7 => s.blockIn p m.marg m.data e.bundleOk
  | 8 => s.tsyncIn p m e
  | 9 => s.sleepIn p
  | 0x0A => if m.local_ then s.wakePort p else s.reissue (· == m.src)
  | 0x0B => s.dmwinIn (m.num 0 8) (m.num 8 8)
  | 0x0C => s.warmOrHold .chn (4 + p) e.bus.boot
  | 0x0D => s.irqIn (m.num 0 1) (m.num 1 1)
  | 0x0E => s.bootRepMsg m
  | _ => s.flashRec (m.num 0 1) (m.data.drop 16)

/-! ## Taking a message -/

/-- Forward a message along its destination's route (R445, R446, R450): a request without one is answered. -/
def State.chlForward (s : State) (p : Nat) (m : ChlMsg) : State :=
  let mg := m.op == 0x20
  let to_ := s.portTo m.dst
  if mg then (if s.mgmtReach m.dst then s.chlPost to_ m else s.chlDropped p)
  else if !s.memReach m.dst then (if m.op < 8 then s.chlAnswer p m.src m.tag m.op 6 0 [] else s.chlDropped p)
  else if m.op < 8 && bitB (s.route m.dst) 3 then s.chlAnswer p m.src m.tag m.op 3 0 []
  else
    let s := if m.op < 8 then { s with chl := { s.chl with fwd := s.chl.fwd ++ [ChlFwd.mk m.src m.tag m.op to_] } }
      else if m.op < 0x10 then { s with chl := { s.chl with fwd := s.chl.fwd.filter fun f => !(f.src == m.dst && f.tag == m.tag) } }
      else s
    s.chlPost to_ m

/-- This die's part of FAB does not serve SYN messages now: they wait, and a doorbell is dropped (R519; log entry 47). -/
def State.synAsleep (s : State) : Bool := s.get R.PWR_STAT_STATE == 2

/-- A message for this die. -/
def State.chlAct (s : State) (p : Nat) (m : ChlMsg) (e : ChlEnv) : State :=
  match m.op with
  | 1 | 2 => s.homeRead p m
  | 3 | 4 => s.homeWrite p m
  | 5 => s.homeAtom p m
  | 8 | 9 => s.rspTake p m
  | 0x20 => s.mgtMsgIn p m e
  | 0x19 | 0x1A => (let m := if m.tlp.isEmpty then { m with tlp := e.tlp } else m
    if s.synAsleep then { s with chl := { s.chl with defer := s.chl.defer ++ [(p, m)] } } else s.synMsg m)
  | 0x14 => if s.synAsleep then s else s.synMsg m
  | _ => if s.synAsleep then { s with chl := { s.chl with defer := s.chl.defer ++ [(p, m)] } } else s.synMsg m

/-- Credits for a message that has left its buffer (R435). -/
def State.chlFree (s : State) (p : Nat) (m : ChlMsg) : State :=
  if s.chlOpen p then s.chlCtl p 0xF3 (chlVc m.op + m.cost * 2 ^ 16) else s

/-- The port takes messages: it is through FLITUP and not down. -/
def State.chlTakes (s : State) (p : Nat) : Bool :=
  let st := s.get R.CHLP_STAT_STATE p
  3 ≤ st && st ≤ 7

/-- A message has come whole on a port. -/
def State.chlTake (s : State) (p : Nat) (r : ChlRx) (e : ChlEnv) : State :=
  let s := s.chlFlitUp p
  let m := r.msg
  let st := s.get R.CHLP_STAT_STATE p
  if !s.chlTakes p then s
  else
    let s := s.wakeS1
    let local_ := m.local_ || (m.op == 0x20 && m.sub == 4 && !s.flag R.CHL_ROLL_VALID)
    if r.bad then (s.chlViolate p).chlFree p m
    else if local_ then (s.chlAct p m e).chlFree p m
    else if st < 5 && m.op ≠ 0x20 then (s.chlDropped p).chlFree p m
    else if st = 6 && chlVc m.op ≠ 2 then
      let s := s.chlDropped p
      (if m.op < 8 then s.chlAnswer p m.src m.tag m.op 6 0 [] else s).chlFree p m
    else if s.flag R.CHL_ROLL_VALID && (m.src == s.die || s.portTo m.src ≠ p) then (s.chlViolate p).chlFree p m
    else if m.dst ≠ s.die then
      let t := s.chlForward p m
      -- the credit of a forwarded message returns when the message leaves
      if (t.chlPort (s.portTo m.dst)).q.contains m then t else t.chlFree p m
    else (s.chlAct p m e).chlFree p m

/-- A message of a row of the command table, on a port. -/
def State.chlRow (s : State) (p : Nat) (m : ChlMsg) (e : ChlEnv := {}) : Host.Outcome State Fault Refusal := .next (s.chlTake p m.rx e)

/-- SYN messages that came during S2 are acted on (R519). -/
def State.deferRun (s : State) : State :=
  let l := s.chl.defer
  let s := { s with chl := { s.chl with defer := [] } }
  l.foldl (fun s x => s.synMsg x.2) s

def execS2ExitComplete (s : State) : Host.Outcome State Fault Refusal :=
  .next (if (s.pwr.exit.map (·.2)) = some 2 then s.exitS2.deferRun.heldRun else s)

end Sys2Proof.Machine
end

