-- ==== Sys2Proof/Machine/Flit.lean ====
section
/-!
DEFINITION. Flits (R428, R429, R436, R437, R442) and the commands that bring one message or entry on a chain port.
-/

namespace Sys2Proof.Machine

/-! ## Flits -/

/-- One byte of CRC-16 (R428), most significant bit first. -/
def crc16Bit : Nat → Nat → Nat
  | 0, c => c
  | n + 1, c => crc16Bit n (if c ≥ 0x8000 then (c * 2) % 65536 ^^^ 0x8BB7 else c * 2)

/-- The CRC of a flit: over its sequence number in two bytes, then its body. -/
def flitCrc (seq : Nat) (body : List Nat) : Nat := (toBytes 2 seq ++ body).foldl (fun c b => crc16Bit 8 (c ^^^ (b * 256))) 0xFFFF

/-- Encryption is in force for the flits that come (R442). -/
def State.chlSecret (s : State) (p : Nat) : Bool := s.flag R.CHLP_STAT_ENCON p && (s.chlPort p).proved

/-- A link-control entry acts (R430). -/
def State.chlControl (s : State) (p op arg : Nat) : State :=
  let s := s.chlFlitUp p
  if !s.chlTakes p then s
  else match op with
    | 0xF1 => s.chlAck p (arg % 4096)
    | 0xF2 => s.chlReplay p (arg % 4096)
    | 0xF3 => s.chlCredit p (arg % 4) (bitsOf arg 16 10)
    | _ => s

/-- A complete message or a link-control entry is acted on. -/
def State.chlGive (s : State) (p : Nat) (e : ChlEnv) (r : ChlRx) : State :=
  if 0xF0 ≤ r.msg.op && r.msg.op ≤ 0xF3 then s.chlControl p r.msg.op r.msg.arg else s.chlTake p r e

/-- GTAG (R442): the group's messages are acted on once its tag verifies; a tag that does not ends the link. -/
def State.chlGroup (s : State) (p g : Nat) (e : ChlEnv) : State :=
  if !s.chlSecret p then s
  else
    let x := s.chlPort p
    if !e.tagOk || g ≠ x.rxg then s.chlDown p 8 true
    else x.grp.foldl (fun s r => s.chlGive p e r) (s.chlPut p { x with rxg := g + 1, grp := [] })

/-- Entries of a header flit, in order; a raw entry belongs to the entry before it. -/
def flitEntries : Nat → List Nat → List ChlRx
  | 0, _ => []
  | n + 1, bs =>
    let w := fun i k => ofBytes ((bs.drop i).take k)
    let op := w 0 1
    let b1 := w 1 1
    let b4 := w 4 1
    let raw := min n (chlRaw op)
    let m : ChlMsg := {
      op, src := bitsOf b1 5 3, dst := bitsOf b1 2 3, tag := w 2 2, poison := bitB b4 6, st := w 5 1,
      arg := if op = 0xF4 then w 6 8 else w 6 10, raw := (bs.drop 16).take (16 * chlRaw op) }
    let nd := if op ≥ 0xF0 then 0 else bitsOf b4 0 6
    -- a raw entry that the flit has no room for makes the entry one that cannot be
    { msg := m, vc := if raw < chlRaw op then 4 else b1 % 4, nd, need := nd } :: flitEntries (n - raw) (bs.drop (16 * (1 + raw)))

/-- The entries of a header flit, an ACK before a NAK of the same flit. Those of one that announces too many data flits are all
violations (R449). -/
def flitHeader (body : List Nat) : List ChlRx :=
  let l := flitEntries 8 body
  let l := l.filter (fun r => r.msg.op == 0xF1) ++ l.filter fun r => r.msg.op != 0xF1
  if (l.map ChlRx.nd).sum > 256 then l.map fun r => if r.msg.op ≥ 0xF0 then r else { r with vc := 4 } else l

/-- A data flit goes to the first message that needs one. -/
def flitData (body : List Nat) : List ChlRx → List ChlRx
  | [] => []
  | r :: l => if r.need = 0 then r :: flitData body l else { r with need := r.need - 1, msg := { r.msg with data := r.msg.data ++ body } } :: l

/-- Messages at the front that are complete, and the rest. -/
def flitReady : List ChlRx → List ChlRx × List ChlRx
  | [] => ([], [])
  | r :: l => if r.need = 0 then let q := flitReady l; (r :: q.1, q.2) else ([], r :: l)

/-- A flit accepted in sequence: ACK, and its entries or data. -/
def State.flitTake (s : State) (p : Nat) (body : List Nat) (e : ChlEnv) : State :=
  let s := s.chlFlitUp p
  let x := s.chlPort p
  let s := (s.chlPut p { x with rx := (x.rx + 1) % 4096, naked := false }).chlCtl p 0xF1 x.rx
  let part := if x.part.any fun r => r.need != 0 then flitData body x.part else x.part ++ flitHeader body
  let q := flitReady part
  let s := s.chlUpd p fun x => { x with part := q.2 }
  q.1.foldl (fun s r =>
    if r.msg.op = 0xF4 then s.chlGroup p r.msg.arg e
    else if s.chlSecret p then s.chlUpd p fun x => { x with grp := x.grp ++ [r] }
    else s.chlGive p e r) s

/-- A flit on a port: its body as sent, its CRC, and the body in clear where encryption is in force. -/
def State.flitIn (s : State) (p : Nat) (body : List Nat) (crc : Nat) (plain : List Nat) (e : ChlEnv) : State :=
  let x := s.chlPort p
  if !(s.chlTakes p || x.flitup) then s
  else if flitCrc x.rx body ≠ crc then
    let s := s.incSat R.CHLP_CRCERR_COUNT p
    if x.naked then s else (s.chlUpd p fun x => { x with naked := true }).chlCtl p 0xF2 x.rx
  else s.flitTake p (if s.chlSecret p then plain else body) e

def execFlitReceive (p : Fin 2) (body : List Byte) (crc : BitVec 16) (plain : List Byte) (e : ChlEnv) (s : State) :
    Host.Outcome State Fault Refusal :=
  .next (s.flitIn p (body.map BitVec.toNat) crc.toNat (plain.map BitVec.toNat) e)

/-! ## Link control -/

def execIdle (p : Fin 2) (s : State) : Host.Outcome State Fault Refusal := .next (s.chlControl p 0xF0 0)
def execAck (p : Fin 2) (seq : BitVec 12) (s : State) : Host.Outcome State Fault Refusal := .next (s.chlControl p 0xF1 seq.toNat)
def execNak (p : Fin 2) (seq : BitVec 12) (s : State) : Host.Outcome State Fault Refusal := .next (s.chlControl p 0xF2 seq.toNat)

def execCredit (p : Fin 2) (vc : Fin 4) (n : BitVec 10) (s : State) : Host.Outcome State Fault Refusal :=
  .next (s.chlControl p 0xF3 (vc + n.toNat * 2 ^ 16))

def execGtag (p : Fin 2) (g : DWord) (e : ChlEnv) (s : State) : Host.Outcome State Fault Refusal :=
  .next (if s.chlTakes p then s.chlGroup p g.toNat e else s)

/-! ## Memory class -/

/-- The fields that every request and response carries. -/
def chlWith (m : ChlMsg) (src dst : Fin 8) (tag : BitVec 16) (poison : Bool := false) (st : Nat := 0) : ChlMsg :=
  { m with src, dst, tag := tag.toNat, poison, st }

/-- n lines of data, cut or filled with zeros. -/
def chlLines (n : Nat) (data : List Byte) : List Nat := (data.map BitVec.toNat ++ List.replicate (128 * n) 0).take (128 * n)

def execRd (p : Fin 2) (src dst : Fin 8) (tag : BitVec 16) (line : BitVec 37) (s : State) : Host.Outcome State Fault Refusal :=
  s.chlRow p (chlWith (chlPack 1 [line.toNat * 128]) src dst tag)

def execRdb (p : Fin 2) (src dst : Fin 8) (tag : BitVec 16) (line : BitVec 37) (n : BitVec 5) (s : State) : Host.Outcome State Fault Refusal :=
  s.chlRow p (chlWith (chlPack 2 [line.toNat * 128, n.toNat]) src dst tag)

def execWr (p : Fin 2) (src dst : Fin 8) (tag : BitVec 16) (line : BitVec 37) (n : BitVec 5) (data : List Byte) (poison : Bool) (s : State) :
    Host.Outcome State Fault Refusal :=
  s.chlRow p (chlWith (chlPack 3 (line.toNat * 128 :: chlLines (n.toNat + 1) data)) src dst tag poison)

def execWrp (p : Fin 2) (src dst : Fin 8) (tag : BitVec 16) (line : BitVec 37) (mask : BitVec 128) (data : List Byte) (poison : Bool)
    (s : State) : Host.Outcome State Fault Refusal :=
  s.chlRow p (chlWith (chlPack 4 (line.toNat * 128 :: mask.toNat :: chlLines 1 data)) src dst tag poison)

def execAtm (p : Fin 2) (src dst : Fin 8) (tag : BitVec 16) (dpa : BitVec 44) (op : Fin 10) (w64 sgn : Bool) (b c : DWord) (s : State) :
    Host.Outcome State Fault Refusal :=
  s.chlRow p (chlWith (chlPack 5 [dpa.toNat, op, b2n w64, b2n sgn, b.toNat, c.toNat]) src dst tag)

def execRdr (p : Fin 2) (src dst : Fin 8) (tag : BitVec 16) (st : Fin 7) (n : BitVec 6) (data : List Byte) (poison : Bool) (s : State) :
    Host.Outcome State Fault Refusal :=
  s.chlRow p (chlWith (chlPack 8 (chlLines n.toNat data)) src dst tag poison st)

def execRsp (p : Fin 2) (src dst : Fin 8) (tag : BitVec 16) (st : Fin 7) (old : DWord) (s : State) : Host.Outcome State Fault Refusal :=
  s.chlRow p (chlWith (chlPack 9 [old.toNat]) src dst tag false st)

/-! ## SYN class -/

/-- A SYN-class message between two dies. -/
def synOf (op : Nat) (src dst : Fin 8) (a : List Nat) : ChlMsg := { chlPack op a with src, dst }

def execSigpend (p : Fin 2) (src dst : Fin 8) (h : Word) (v : DWord) (s : State) : Host.Outcome State Fault Refusal :=
  s.chlRow p (synOf 0x10 src dst [h.toNat, v.toNat])

def execSig (p : Fin 2) (src dst : Fin 8) (h : Word) (code : BitVec 16) (v : DWord) (s : State) : Host.Outcome State Fault Refusal :=
  s.chlRow p (synOf 0x11 src dst [h.toNat, code.toNat, v.toNat])

def execWait (p : Fin 2) (src dst : Fin 8) (h id : Word) (w : DWord) (s : State) : Host.Outcome State Fault Refusal :=
  s.chlRow p (synOf 0x12 src dst [h.toNat, id.toNat, w.toNat])

def execWaitsat (p : Fin 2) (src dst : Fin 8) (id : Word) (err : BitVec 16) (e : Bool) (s : State) : Host.Outcome State Fault Refusal :=
  s.chlRow p (synOf 0x13 src dst [id.toNat, err.toNat, b2n e])

def execDb (p : Fin 2) (src dst : Fin 8) (h tail : Word) (page : Byte) (s : State) : Host.Outcome State Fault Refusal :=
  s.chlRow p (synOf 0x14 src dst [h.toNat, tail.toNat, page.toNat])

def execObjchk (p : Fin 2) (src dst : Fin 8) (h : Word) (kind : Fin 4) (s : State) : Host.Outcome State Fault Refusal :=
  s.chlRow p (synOf 0x15 src dst [h.toNat, kind])

def execObjres (p : Fin 2) (src dst : Fin 8) (h : Word) (kind : Fin 4) (res : Byte) (s : State) : Host.Outcome State Fault Refusal :=
  s.chlRow p (synOf 0x16 src dst [h.toNat, kind, res.toNat])

def execInv (p : Fin 2) (src dst : Fin 8) (va : DWord) (pasid : Word) (npg : BitVec 6) (global : Bool) (seq : Word) (s : State) :
    Host.Outcome State Fault Refusal :=
  s.chlRow p (synOf 0x17 src dst [va.toNat, pasid.toNat, 4096 * 2 ^ npg.toNat, b2n global, seq.toNat])

def execInvdone (p : Fin 2) (src dst : Fin 8) (seq : Word) (s : State) : Host.Outcome State Fault Refusal :=
  s.chlRow p (synOf 0x18 src dst [seq.toNat])

/-- A proxied Translation Request (`page` false: tag, PASID, VA, No Write) or Page Request (PRG index, PASID, VA, write). -/
def execPrxreq (p : Fin 2) (src dst : Fin 8) (page : Bool) (tag : BitVec 7) (pasid : BitVec 20) (va : DWord) (w : Bool) (s : State) :
    Host.Outcome State Fault Refusal :=
  s.chlRow p (synOf 0x19 src dst [tag.toNat + 128 * b2n page, pasid.toNat, va.toNat, b2n w])

/-- The completion of a translation, as `c` has it, or (`page`) a PRG Response with its code. -/
def execPrxrsp (p : Fin 2) (src dst : Fin 8) (page : Bool) (tag : BitVec 7) (ok : Bool) (tbase : DWord) (lg : BitVec 6) (r w u g : Bool)
    (code : BitVec 4) (s : State) : Host.Outcome State Fault Refusal :=
  s.chlRow p (synOf 0x1A src dst (if page then [1, tag.toNat, code.toNat]
    else [0, tag.toNat, b2n ok, tbase.toNat, max 12 lg.toNat, b2n r, b2n w, b2n u, b2n g]))

/-! ## Management -/

/-- A LOCAL management message from the partner of a port. -/
def State.chlLocal (s : State) (p sub : Nat) (data : List Nat) (e : ChlEnv) (marg : Nat := 0) : Host.Outcome State Fault Refusal :=
  s.chlRow p (mgtMsg sub marg true data) e

/-- A management message from a die. -/
def State.chlMgmt (s : State) (p : Nat) (src dst : Fin 8) (sub : Nat) (data : List Nat) (e : ChlEnv := {}) (marg : Nat := 0) (st : Nat := 0) :
    Host.Outcome State Fault Refusal :=
  s.chlRow p { mgtMsg sub marg false data with src, dst, st } e

/-- HELLO: the UID of its certificate, its 32-byte nonce and 64-byte key, encryption requested. -/
def execHello (p : Fin 2) (uid : BitVec 128) (nonce key : List Byte) (enc : Bool) (e : ChlEnv) (s : State) : Host.Outcome State Fault Refusal :=
  let cert := toBytes 4 0x43484C43 ++ toBytes 2 1 ++ [0, 0] ++ toBytes 16 uid.toNat ++ toBytes 168 0
  s.chlLocal p 1 (cert ++ (nonce.map BitVec.toNat ++ List.replicate 32 0).take 32 ++
    (key.map BitVec.toNat ++ List.replicate 64 0).take 64 ++ [b2n enc]) e

def execProof (p : Fin 2) (sig : BitVec 512) (e : ChlEnv) (s : State) : Host.Outcome State Fault Refusal :=
  s.chlLocal p 2 (toBytes 64 sig.toNat) e

def execRollinfo (p : Fin 2) (uid : BitVec 128) (root : Bool) (num : Option (Fin 8)) (chain8 pending : Bool) (gen min max : Word) (s : State) :
    Host.Outcome State Fault Refusal :=
  let n := match num with | some k => 2 + 4 * k.val | none => 0
  s.chlLocal p 3 (toBytes 16 uid.toNat ++ [b2n root + n + 32 * b2n chain8 + 64 * b2n pending, 0, 0, 0] ++ toBytes 4 gen.toNat ++
    toBytes 4 min.toNat ++ toBytes 4 max.toNat) {}

/-- ROLLSET, with what each port's link is found to be held in quarantine for (0: nothing). -/
def execRollset (p : Fin 2) (num : Fin 8) (quar : Bool) (count : Fin 8) (routes hops : Word) (epoch : BitVec 16) (q0 q1 : Fin 7) (s : State) :
    Host.Outcome State Fault Refusal :=
  .next (if s.chlTakes p then
      s.wakeS1.rollSet num quar count routes.toNat hops.toNat epoch.toNat fun p => if p = 0 then q0 else q1
    else s)

def execRegreq (p : Fin 2) (src dst : Fin 8) (off : BitVec 25) (write : Bool) (val : Word) (e : ChlEnv) (s : State) : Host.Outcome State Fault Refusal :=
  s.chlMgmt p src dst 5 (toBytes 4 val.toNat) e (off.toNat + 2 ^ 25 * b2n write)

def execRegrsp (p : Fin 2) (src dst : Fin 8) (off : BitVec 25) (write err : Bool) (val : Word) (s : State) : Host.Outcome State Fault Refusal :=
  s.chlMgmt p src dst 6 (toBytes 4 val.toNat) {} (off.toNat + 2 ^ 25 * b2n write) (b2n err)

def execFwblk (p : Fin 2) (idx : BitVec 16) (data : List Byte) (e : ChlEnv) (s : State) : Host.Outcome State Fault Refusal :=
  s.chlLocal p 7 (chlLines 32 data) e idx.toNat

def execSleep (p : Fin 2) (s : State) : Host.Outcome State Fault Refusal := s.chlLocal p 9 [3] {}

/-- WAKE from the partner of the port (`from_` none), or from a die. -/
def execWake (p : Fin 2) (from_ : Option (Fin 8 × Fin 8)) (left : Fin 4) (s : State) : Host.Outcome State Fault Refusal :=
  match from_ with
  | none => s.chlLocal p 0x0A [left] {}
  | some d => s.chlMgmt p d.1 d.2 0x0A [left]

def execDmwin (p : Fin 2) (src dst : Fin 8) (base lim : DWord) (s : State) : Host.Outcome State Fault Refusal :=
  s.chlMgmt p src dst 0x0B (toBytes 8 base.toNat ++ toBytes 8 lim.toNat)

def execChnrst (p : Fin 2) (e : ChlEnv) (s : State) : Host.Outcome State Fault Refusal := s.chlLocal p 0x0C [] e

def execIrq (p : Fin 2) (src dst : Fin 8) (v : Fin 16) (die : Fin 8) (s : State) : Host.Outcome State Fault Refusal :=
  s.chlMgmt p src dst 0x0D [v, die]

/-- A BOOTREP message: kind, the die it concerns, PHASE, STEP, SUB, CLASS, UID. -/
def State.chlBoot (s : State) (p : Nat) (src dst : Fin 8) (kind die : Nat) (phase : BitVec 3) (step sub cls : Byte) (uid : BitVec 128) :
    Host.Outcome State Fault Refusal :=
  s.chlMgmt p src dst 0x0E ([kind, die, phase.toNat, step.toNat, sub.toNat, cls.toNat, 0, 0] ++ toBytes 16 uid.toNat)

def execSlotreq (p : Fin 2) (src dst : Fin 8) (phase : BitVec 3) (step sub cls : Byte) (uid : BitVec 128) (s : State) :
    Host.Outcome State Fault Refusal := s.chlBoot p src dst 1 src phase step sub cls uid

def execSlotgrant (p : Fin 2) (src dst : Fin 8) (phase : BitVec 3) (step sub cls : Byte) (uid : BitVec 128) (s : State) :
    Host.Outcome State Fault Refusal := s.chlBoot p src dst 2 dst phase step sub cls uid

def execSlotret (p : Fin 2) (src dst : Fin 8) (phase : BitVec 3) (step sub cls : Byte) (uid : BitVec 128) (s : State) :
    Host.Outcome State Fault Refusal := s.chlBoot p src dst 3 src phase step sub cls uid

def execBootrepReport (p : Fin 2) (src dst : Fin 8) (phase : BitVec 3) (step sub cls : Byte) (uid : BitVec 128) (s : State) :
    Host.Outcome State Fault Refusal := s.chlBoot p src dst 4 src phase step sub cls uid

/-- FLASHREC: a supplement record (type 7) or a journal entry (type 8). -/
def execFlashrec (p : Fin 2) (src dst : Fin 8) (journal : Bool) (rec_ : List Byte) (s : State) : Host.Outcome State Fault Refusal :=
  let n := if journal then 256 else 32
  s.chlMgmt p src dst 0x0F ([if journal then 8 else 7, 0, 0, 0] ++ toBytes 2 n ++ toBytes 10 0 ++
    (rec_.map BitVec.toNat ++ List.replicate n 0).take n)

end Sys2Proof.Machine
end

