-- ==== Sys2Proof/Machine/Roll.lean ====
section
/-!
DEFINITION. Roll call (R443 to R445) as die 0 runs it: numbers, quarantine, routes.
-/

namespace Sys2Proof.Machine

/-- What a link's check of generations needs of one side: generation, accepted range. -/
structure GenOf where
  gen : Nat
  min : Nat
  max : Nat
  deriving DecidableEq, Repr

/-- Each side's generation lies in the other's range. -/
def GenOf.fits (a b : GenOf) : Bool := b.min ≤ a.gen && a.gen ≤ b.max && a.min ≤ b.gen && b.gen ≤ a.max

/-- This die's own. -/
def State.genOwn (s : State) : GenOf := ⟨s.get R.CHL_GEN_GEN, s.get R.BOOT_WGENMIN_VALUE, s.get R.BOOT_WGENMAX_VALUE⟩

/-- The generations along one side; a die whose image is pending counts with its broadcaster's. -/
def sideGens : GenOf → List RollDie → List GenOf
  | _, [] => []
  | g, d :: l => let h : GenOf := if d.pending then g else ⟨d.gen, d.min, d.max⟩; h :: sideGens h l

/-- The numbers that dies keep (R443): the first in walk order that claims one. -/
def rollKeep : List Nat → List RollDie → List (Option Nat)
  | _, [] => []
  | used, d :: l =>
    match d.held with
    | some n => if n ≠ 0 && n < 8 && !used.contains n then some n :: rollKeep (n :: used) l else none :: rollKeep used l
    | none => none :: rollKeep used l

/-- The number for a die that holds none. -/
def rollPick (names : List (Nat × Nat)) (used : List Nat) (uid : Nat) : Nat :=
  match names.find? fun e => e.2 == uid && !used.contains e.1 with
  | some e => e.1
  | none =>
    let free := (List.range 8).filter fun n => n != 0 && !used.contains n
    match free.find? fun n => !(names.any fun e => e.1 == n) with
    | some n => n
    | none => free.headD 0

/-- Numbers in walk order: those kept, then those given, with the record of UIDs as it grows. -/
def rollAssign : List (Nat × Nat) → List Nat → List (RollDie × Option Nat) → List Nat
  | _, _, [] => []
  | names, used, (d, k) :: l =>
    let n := match k with | some n => n | none => rollPick names used d.uid
    n :: rollAssign (Cells.put names n d.uid) (n :: used) l

/-- Numbers of the dies of a walk: walk order at the first roll call. -/
def rollNumbers (names : List (Nat × Nat)) (walk : List RollDie) : List Nat :=
  if names.isEmpty then (List.range walk.length).map (· + 1)
  else
    let keep := rollKeep [] walk
    rollAssign names (keep.filterMap id) (walk.zip keep)

/-- Chain limit of this die's variant (R5). -/
def State.chainLimit (s : State) : Nat := match s.get R.CHIP_ID_VARIANT with | 0 => 1 | 1 => 2 | _ => 8

/-- Quarantine reason of the link that leads to the die at a place of the walk (R444). `pos` counts from 1; `lic`: some numbered die
lacks CHAIN8; `lim`: the smallest chain limit. -/
def linkReason (a b : GenOf) (pos lim : Nat) (lic root : Bool) : Nat :=
  if !a.fits b then 1
  else if lic && pos > 1 then 2
  else if pos > 7 then 3
  else if root then 4
  else if pos ≥ lim then 6
  else 0

/-- One die of the chain in a row from the end of port 1's side to the end of port 0's: number (none beyond the eighth), the ports
toward the left and the right, UID. -/
structure RollNode where
  num : Option Nat
  left : Nat
  right : Nat
  uid : Nat
  deriving DecidableEq, Repr

/-- A route from place i to place j of the row: over the links to the right or the left, those without quarantine first, then fewest
hops, then port 0; CHL_ROUTE's code and the hops. `links` has the reason of the link to the right of each place. -/
def rollRoute (nodes : List RollNode) (links : List Nat) (ring : Bool) (i j : Nat) : Nat × Nat :=
  let n := nodes.length
  let a := nodes.getD i ⟨none, 1, 0, 0⟩
  let hopsR := (j + n - i) % n
  let hopsL := (i + n - j) % n
  let ok := fun (from_ h : Nat) => (List.range h).all fun k => links.getD ((from_ + k) % n) 0 == 0
  let cand := (if ring || i < j then [(ok i hopsR, hopsR, a.right)] else []) ++ (if ring || j < i then [(ok j hopsL, hopsL, a.left)] else [])
  let best := fun (l : List (Bool × Nat × Nat)) => l.foldl (fun (b : Option (Bool × Nat × Nat)) c => match b with
    | none => some c
    | some x => some (if c.2.1 < x.2.1 || (c.2.1 == x.2.1 && c.2.2 < x.2.2) then c else x)) none
  if i = j then (2, 0)
  else match best (cand.filter (·.1)) with
    | some c => (c.2.2, c.2.1)
    | none => match best cand with
      | some c => (c.2.2 + 4, c.2.1)
      | none => (3, 0)

/-- Routes and hops of the die at a place, by die number. -/
def rollTable (nodes : List RollNode) (links : List Nat) (ring : Bool) (i : Nat) : List (Nat × Nat) :=
  (List.range 8).map fun d => match nodes.findIdx? fun x => x.num == some d with
    | some j => rollRoute nodes links ring i j
    | none => (3, 0)

/-- The image of CHL_ROUTE or CHL_HOPS. -/
def rollImage (l : List Nat) : Nat := (List.range l.length).foldl (fun v i => v + l.getD i 0 % 16 * 2 ^ (4 * i)) 0

/-- The plan of a roll call: the dies in a row, the reason of the link to the right of each, the place of die 0, the record of UIDs. -/
structure RollPlan where
  nodes : List RollNode
  links : List Nat
  zero : Nat
  names : List (Nat × Nat)
  deriving DecidableEq, Repr

def State.rollPlan (s : State) (walk : List RollDie) (ring : Bool) : RollPlan :=
  -- a die met a second time, over the other port, is no further die (R421)
  let a := walk.filter fun d => !d.side
  let b := walk.filter fun d => d.side && !(a.any fun x => x.uid == d.uid)
  let w := a ++ b
  let counted := w.take 7
  let nums := rollNumbers s.chl.names counted
  let lim := counted.foldl (fun m d => Nat.min m d.limit) s.chainLimit
  let lic := !bitB (s.get R.BOOT_LICSTAT_EN) 0 || counted.any fun d => !d.chain8
  let ga := sideGens s.genOwn a
  let gb := sideGens s.genOwn b
  let reasons := fun (l : List RollDie) (g : List GenOf) (base : Nat) => (List.range l.length).map fun i =>
    linkReason (if i = 0 then s.genOwn else g.getD (i - 1) s.genOwn) (g.getD i s.genOwn) (base + i + 1) lim lic ((l.map (·.root)).getD i false)
  let ra := reasons a ga 0
  let rb := reasons b gb a.length
  -- the link that closes a ring leads from die 0 to the last die of the walk
  let close := linkReason s.genOwn ((ga.getLast?).getD s.genOwn) a.length lim lic ((a.getLast?.map (·.root)).getD false)
  let numAt := fun (i : Nat) => nums[i]?
  let na := (List.range a.length).map fun i => match a[i]? with
    | some d => (⟨numAt i, d.inPort, 1 - d.inPort, d.uid⟩ : RollNode)
    | none => ⟨none, 1, 0, 0⟩
  let nb := (List.range b.length).map fun i => match b[i]? with
    | some d => (⟨numAt (a.length + i), 1 - d.inPort, d.inPort, d.uid⟩ : RollNode)
    | none => ⟨none, 1, 0, 0⟩
  { nodes := nb.reverse ++ [⟨some 0, 1, 0, s.uid⟩] ++ na
    links := rb.reverse ++ ra ++ (if ring then [close] else [])
    zero := b.length
    names := (counted.zip nums).foldl (fun l x => Cells.put l x.2 x.1.uid) (Cells.put s.chl.names 0 s.uid) }

/-- Quarantine reason of a port of die 0: its link's, or DUPLICATE for the second link to one partner. -/
def State.rollPort (_s : State) (walk : List RollDie) (ring : Bool) (pl : RollPlan) (p : Nat) : Nat :=
  let a := walk.filter fun d => !d.side
  if p = 0 then pl.links.getD pl.zero 0
  else match walk.find? (·.side) with
    | some d => if a.any fun x => x.uid == d.uid then 5 else pl.links.getD (pl.zero - 1) 0
    | none => if ring then (pl.links.getLast?).getD 0 else 0

/-- The number of the partner on a port of die 0. -/
def RollPlan.peer (pl : RollPlan) (ring : Bool) (p : Nat) : Option Nat :=
  let at_ := fun (i : Nat) => (pl.nodes[i]?).bind (·.num)
  if p = 0 then at_ (pl.zero + 1)
  else if pl.zero > 0 then at_ (pl.zero - 1) else if ring then (pl.nodes.getLast?).bind (·.num) else none

/-- A roll call (R443): numbers, routes and reasons, ROLLSET to every numbered die and the device-memory window, EPOCH. -/
def State.rollCall (s : State) (walk : List RollDie) (ring : Bool) : State :=
  let pl := s.rollPlan walk ring
  let old := s
  let n := (pl.nodes.filter fun x => x.num.isSome).length
  let own := rollTable pl.nodes pl.links ring pl.zero
  let epoch := (s.get R.CHL_ROLL_EPOCH + 1) % 65536
  let quar := fun (d : Nat) => (own.getD d (3, 0)).1 / 4 % 2
  let qmask := (List.range 8).foldl (fun m d => m + quar d * 2 ^ d) 0
  let s := (((s.set R.CHL_ROLL_DIE 0).set R.CHL_ROLL_VALID 1).set R.CHL_ROLL_COUNT (n - 1)).set R.CHL_ROLL_EPOCH epoch
  let s := (s.set R.CHL_ROLL_QMASK qmask).set R.CHL_STAT_ROLLBUSY 0
  let s := (List.range 8).foldl (fun s d => let r := own.getD d (3, 0); s.setRoute d r.1 r.2) s
  let s := { s with chl := { s.chl with names := pl.names, uids := pl.nodes.map (·.uid), ring } }
  let s := [0, 1].foldl (fun (s : State) p => match pl.peer ring p with | some d => s.set R.CHLP_STAT_PEERDIE d p | none => s) s
  let s := s.portsSet fun p => s.rollPort walk ring pl p
  let s := (List.range pl.nodes.length).foldl (fun (s : State) i => match (pl.nodes[i]?).bind (·.num) with
    | some d =>
      if d = 0 then s
      else
        let t := rollTable pl.nodes pl.links ring i
        let s := s.mgmt d 0x04 ([d, quar d, n, 0] ++ toBytes 4 (rollImage (t.map (·.1))) ++ toBytes 4 (rollImage (t.map (·.2))) ++
          toBytes 24 0 ++ toBytes 4 epoch)
        s.mgmt d 0x0B (toBytes 8 (s.get R.DTU_DMWIN_BASE_ADDR * 2 ^ 30 + s.get R.DTU_DMWIN_BASE_EN) ++
          toBytes 8 (s.get R.DTU_DMWIN_LIM_ADDR * 2 ^ 30))
    | none => s) s
  let s := (s.routesMoved old).numbered
  if s.boot.waitChain && s.chainReported then s.bootReady else s

/-- A link of the chain entered ACTIVE, QUARANTINE or DOWN, or ROLLREQ was written: die 0 walks the chain, and finds these dies. -/
def execRollCall (walk : List RollDie) (ring : Bool) (s : State) : Host.Outcome State Fault Refusal :=
  .next (if s.flag R.CHL_STAT_ROOT && s.domLive 0 && s.rst.asserted.isNone then s.rollCall walk (ring && 2 ≤ walk.length) else s)

end Sys2Proof.Machine
end

