-- ==== Sys2Proof/Machine/Dispatch.lean ====
section
/-!
DEFINITION. The dispatch: one arm per command, each a direct call of its meaning.
-/

namespace Sys2Proof.Machine

def exec (i : Instr) (s : State) : Host.Outcome State Fault Refusal :=
  match i with
  | .registerWrite m off size val e => Sys2Proof.Machine.execRegisterWrite m off size val e s
  | .rwinWindowAccess m w size write val e => Sys2Proof.Machine.execRwinWindowAccess m w size write val e s
  | .rwinForwardTimeout => Sys2Proof.Machine.execRwinForwardTimeout s
  | .blockPlacement => Sys2Proof.Machine.execBlockPlacement s
  | .issueAgeLimit e slot => Sys2Proof.Machine.execIssueAgeLimit e slot s
  | .reconvergence e b c => Sys2Proof.Machine.execReconvergence e b c s
  | .repack e sched => Sys2Proof.Machine.execRepack e sched s
  | .cohortDeadlock e b c => Sys2Proof.Machine.execCohortDeadlock e b c s
  | .preemptRequest e => Sys2Proof.Machine.execPreemptRequest e s
  | .preemptSave e => Sys2Proof.Machine.execPreemptSave e s
  | .blockRestore e n ext => Sys2Proof.Machine.execBlockRestore e n ext s
  | .blockTermination e b fetched => Sys2Proof.Machine.execBlockTermination e b fetched s
  | .blockRetire e b => Sys2Proof.Machine.execBlockRetire e b s
  | .loadCompletion e id ext => Sys2Proof.Machine.execLoadCompletion e id ext s
  | .atomicCompletion e id old ok => Sys2Proof.Machine.execAtomicCompletion e id old ok s
  | .xferCopyComplete e id ext => Sys2Proof.Machine.execXferCopyComplete e id ext s
  | .iadd e slot w => Sys2Proof.Machine.execIadd e slot w s
  | .isub e slot w => Sys2Proof.Machine.execIsub e slot w s
  | .imul e slot w => Sys2Proof.Machine.execImul e slot w s
  | .imad e slot w => Sys2Proof.Machine.execImad e slot w s
  | .imin e slot w => Sys2Proof.Machine.execImin e slot w s
  | .imax e slot w => Sys2Proof.Machine.execImax e slot w s
  | .iand e slot w => Sys2Proof.Machine.execAnd e slot w s
  | .ior e slot w => Sys2Proof.Machine.execOr e slot w s
  | .ixor e slot w => Sys2Proof.Machine.execXor e slot w s
  | .shl e slot w => Sys2Proof.Machine.execShl e slot w s
  | .shr e slot w => Sys2Proof.Machine.execShr e slot w s
  | .popc e slot w => Sys2Proof.Machine.execPopc e slot w s
  | .clz e slot w => Sys2Proof.Machine.execClz e slot w s
  | .bfe e slot w => Sys2Proof.Machine.execBfe e slot w s
  | .setpI e slot w => Sys2Proof.Machine.execSetpI e slot w s
  | .sel e slot w => Sys2Proof.Machine.execSel e slot w s
  | .fadd e slot w => Sys2Proof.Machine.execFadd e slot w s
  | .fmul e slot w => Sys2Proof.Machine.execFmul e slot w s
  | .ffma e slot w => Sys2Proof.Machine.execFfma e slot w s
  | .fmin e slot w => Sys2Proof.Machine.execFmin e slot w s
  | .fmax e slot w => Sys2Proof.Machine.execFmax e slot w s
  | .setpF e slot w => Sys2Proof.Machine.execSetpF e slot w s
  | .frnd e slot w => Sys2Proof.Machine.execFrnd e slot w s
  | .hadd2 e slot w => Sys2Proof.Machine.execHadd2 e slot w s
  | .hmul2 e slot w => Sys2Proof.Machine.execHmul2 e slot w s
  | .hfma2 e slot w => Sys2Proof.Machine.execHfma2 e slot w s
  | .hmin2 e slot w => Sys2Proof.Machine.execHmin2 e slot w s
  | .hmax2 e slot w => Sys2Proof.Machine.execHmax2 e slot w s
  | .setpH2 e slot w => Sys2Proof.Machine.execSetpH2 e slot w s
  | .hdot2 e slot w => Sys2Proof.Machine.execHdot2 e slot w s
  | .cvt e slot w => Sys2Proof.Machine.execCvt e slot w s
  | .rcp e slot w => Sys2Proof.Machine.execRcp e slot w s
  | .rsq e slot w => Sys2Proof.Machine.execRsq e slot w s
  | .sqrt e slot w => Sys2Proof.Machine.execSqrt e slot w s
  | .exp2 e slot w => Sys2Proof.Machine.execExp2 e slot w s
  | .log2 e slot w => Sys2Proof.Machine.execLog2 e slot w s
  | .sin e slot w => Sys2Proof.Machine.execSin e slot w s
  | .cos e slot w => Sys2Proof.Machine.execCos e slot w s
  | .tanh e slot w => Sys2Proof.Machine.execTanh e slot w s
  | .ld e slot w => Sys2Proof.Machine.execLd e slot w s
  | .st e slot w => Sys2Proof.Machine.execSt e slot w s
  | .prf e slot w ext => Sys2Proof.Machine.execPrf e slot w ext s
  | .atomAdd e slot w => Sys2Proof.Machine.execAtomAdd e slot w s
  | .atomMin e slot w => Sys2Proof.Machine.execAtomMin e slot w s
  | .atomMax e slot w => Sys2Proof.Machine.execAtomMax e slot w s
  | .atomAnd e slot w => Sys2Proof.Machine.execAtomAnd e slot w s
  | .atomOr e slot w => Sys2Proof.Machine.execAtomOr e slot w s
  | .atomXor e slot w => Sys2Proof.Machine.execAtomXor e slot w s
  | .atomExch e slot w => Sys2Proof.Machine.execAtomExch e slot w s
  | .atomCas e slot w => Sys2Proof.Machine.execAtomCas e slot w s
  | .atomFadd e slot w => Sys2Proof.Machine.execAtomFadd e slot w s
  | .atomInc e slot w => Sys2Proof.Machine.execAtomInc e slot w s
  | .bra e slot w => Sys2Proof.Machine.execBra e slot w s
  | .brx e slot w => Sys2Proof.Machine.execBrx e slot w s
  | .call e slot w => Sys2Proof.Machine.execCall e slot w s
  | .ret e slot w => Sys2Proof.Machine.execRet e slot w s
  | .exit e slot w => Sys2Proof.Machine.execExit e slot w s
  | .barBlock e slot w => Sys2Proof.Machine.execBarBlock e slot w s
  | .nop e slot w => Sys2Proof.Machine.execNop e slot w s
  | .trap e slot w => Sys2Proof.Machine.execTrap e slot w s
  | .shfl e slot w => Sys2Proof.Machine.execShfl e slot w s
  | .vote e slot w => Sys2Proof.Machine.execVote e slot w s
  | .ballot e slot w => Sys2Proof.Machine.execBallot e slot w s
  | .red e slot w => Sys2Proof.Machine.execRed e slot w s
  | .scan e slot w => Sys2Proof.Machine.execScan e slot w s
  | .matchLanes e slot w => Sys2Proof.Machine.execMatch e slot w s
  | .tex e slot w ext => Sys2Proof.Machine.execTex e slot w ext s
  | .surfLd e slot w ext => Sys2Proof.Machine.execSurfLd e slot w ext s
  | .surfSt e slot w ext => Sys2Proof.Machine.execSurfSt e slot w ext s
  | .tileLd e slot w => Sys2Proof.Machine.execTileLd e slot w s
  | .tileSt e slot w => Sys2Proof.Machine.execTileSt e slot w s
  | .xfer e slot w => Sys2Proof.Machine.execXfer e slot w s
  | .xferWait e slot w => Sys2Proof.Machine.execXferWait e slot w s
  | .fragKill e slot w => Sys2Proof.Machine.execFragKill e slot w s
  | .mov e slot w => Sys2Proof.Machine.execMov e slot w s
  | .rdsr e slot w => Sys2Proof.Machine.execRdsr e slot w s
  | .fence e slot w => Sys2Proof.Machine.execFence e slot w s
  | .plop e slot w => Sys2Proof.Machine.execPlop e slot w s
  | .p2r e slot w => Sys2Proof.Machine.execP2r e slot w s
  | .regToPredicate e slot w => Sys2Proof.Machine.execRegToPredicate e slot w s
  | .tmaMm e slot w w2 => Sys2Proof.Machine.execTmaMm e slot w w2 s
  | .accDrain e slot w w2 => Sys2Proof.Machine.execAccDrain e slot w w2 s
  | .accCopy e slot w w2 => Sys2Proof.Machine.execAccCopy e slot w w2 s
  | .tmaMmf e slot w => Sys2Proof.Machine.execTmaMmf e slot w s
  | .accSwap e slot w => Sys2Proof.Machine.execAccSwap e slot w s
  | .accZero e slot w => Sys2Proof.Machine.execAccZero e slot w s
  | .accLd e slot w => Sys2Proof.Machine.execAccLd e slot w s
  | .accSt e slot w => Sys2Proof.Machine.execAccSt e slot w s
  | .accMax e slot w => Sys2Proof.Machine.execAccMax e slot w s
  | .accMin e slot w => Sys2Proof.Machine.execAccMin e slot w s
  | .accTopk e slot w => Sys2Proof.Machine.execAccTopk e slot w s
  | .accFlags e slot w => Sys2Proof.Machine.execAccFlags e slot w s
  | .tmaWait e slot w => Sys2Proof.Machine.execTmaWait e slot w s
  | .fragLd e slot w => Sys2Proof.Machine.execFragLd e slot w s
  | .fragSt e slot w => Sys2Proof.Machine.execFragSt e slot w s
  | .tephraOpStart e => Sys2Proof.Machine.execTephraOpStart e s
  | .tephraOpComplete e => Sys2Proof.Machine.execTephraOpComplete e s
  | .geyserOpStart e => Sys2Proof.Machine.execGeyserOpStart e s
  | .geyserOpComplete e => Sys2Proof.Machine.execGeyserOpComplete e s
  | .tphSeedWrite m e v => Sys2Proof.Machine.execTphSeedWrite m e v s
  | .sinterAccess cl k addr host n hint data ecc sector stream => Sys2Proof.Machine.execSinterAccess cl k addr host n hint data ecc sector stream s
  | .sinterFill line host data => Sys2Proof.Machine.execSinterFill line host data s
  | .wcBufferIdleFlush line => Sys2Proof.Machine.execWcBufferIdleFlush line s
  | .streamTrackerTimeout k => Sys2Proof.Machine.execStreamTrackerTimeout k s
  | .wayWindowRestart slice way => Sys2Proof.Machine.execWayWindowRestart slice way s
  | .sinMaintClean m scope irq unc => Sys2Proof.Machine.execSinMaintClean m scope irq unc s
  | .sinMaintCleanInvalidate m scope irq unc => Sys2Proof.Machine.execSinMaintCleanInvalidate m scope irq unc s
  | .sinMaintDiscard m scope irq => Sys2Proof.Machine.execSinMaintDiscard m scope irq s
  | .sinMaintDone => Sys2Proof.Machine.execSinMaintDone s
  | .sinPolicyWrite m n val => Sys2Proof.Machine.execSinPolicyWrite m n val s
  | .sinTransitionDone => Sys2Proof.Machine.execSinTransitionDone s
  | .vaTranslate id stream va kind => Sys2Proof.Machine.execVaTranslate id stream va kind s
  | .missHandlerGrant => Sys2Proof.Machine.execMissHandlerGrant s
  | .atsCompletion tag ok tbase lg r w u g => Sys2Proof.Machine.execAtsCompletion tag ok tbase lg r w u g s
  | .atsCompletionTimeout tag => Sys2Proof.Machine.execAtsCompletionTimeout tag s
  | .pageRequestSend => Sys2Proof.Machine.execPageRequestSend s
  | .prgResponse prgi code => Sys2Proof.Machine.execPrgResponse prgi code s
  | .priReset enable alloc => Sys2Proof.Machine.execPriReset enable alloc s
  | .atsInvalidateRequest itag va npg pasid global => Sys2Proof.Machine.execAtsInvalidateRequest itag va npg pasid global s
  | .invalidateDone seqs => Sys2Proof.Machine.execInvalidateDone seqs s
  | .dtuInvRange m npg pasid => Sys2Proof.Machine.execDtuInvRange m npg pasid s
  | .dtuInvPasid m pasid => Sys2Proof.Machine.execDtuInvPasid m pasid s
  | .dtuInvAll m => Sys2Proof.Machine.execDtuInvAll m s
  | .dtuAcFlush m => Sys2Proof.Machine.execDtuAcFlush m s
  | .dtuMnEnable m log2sz => Sys2Proof.Machine.execDtuMnEnable m log2sz s
  | .dtuMnConsWrite m cons => Sys2Proof.Machine.execDtuMnConsWrite m cons s
  | .dtuDmwinWrite m lim value => Sys2Proof.Machine.execDtuDmwinWrite m lim value s
  | .synSignal m err => Sys2Proof.Machine.execSynSignal m err s
  | .synQuery m => Sys2Proof.Machine.execSynQuery m s
  | .synClearErr m => Sys2Proof.Machine.execSynClearErr m s
  | .synDestroy m => Sys2Proof.Machine.execSynDestroy m s
  | .synResume m => Sys2Proof.Machine.execSynResume m s
  | .synFlush m => Sys2Proof.Machine.execSynFlush m s
  | .importPortSignal m k value => Sys2Proof.Machine.execImportPortSignal m k value s
  | .teardownQueue m => Sys2Proof.Machine.execTeardownQueue m s
  | .teardownContext m => Sys2Proof.Machine.execTeardownContext m s
  | .teardownComplete res unreach => Sys2Proof.Machine.execTeardownComplete res unreach s
  | .queueMakeResident ext => Sys2Proof.Machine.execQueueMakeResident ext s
  | .queueEvict ext => Sys2Proof.Machine.execQueueEvict ext s
  | .doorbell m k handle tail => Sys2Proof.Machine.execDoorbell m k handle tail s
  | .packetFetch slot ext => Sys2Proof.Machine.execPacketFetch slot ext s
  | .packetParse slot ext => Sys2Proof.Machine.execPacketParse slot ext s
  | .packetCommit slot ext => Sys2Proof.Machine.execPacketCommit slot ext s
  | .packetRetire id ext => Sys2Proof.Machine.execPacketRetire id ext s
  | .pktNop id => Sys2Proof.Machine.execPktNop id s
  | .pktDispatch id => Sys2Proof.Machine.execDispatch id s
  | .pktCond id value err => Sys2Proof.Machine.execPktCond id value err s
  | .pktRecord id => Sys2Proof.Machine.execPktRecord id s
  | .pktWrite id => Sys2Proof.Machine.execPktWrite id s
  | .graphLaunch id => Sys2Proof.Machine.execGraphLaunch id s
  | .graphPatch id ext => Sys2Proof.Machine.execGraphPatch id ext s
  | .emberIdlePowerOff e => Sys2Proof.Machine.execEmberIdlePowerOff e s
  | .preemptDecision => Sys2Proof.Machine.execPreemptDecision s
  | .queueDeadlineMiss slot => Sys2Proof.Machine.execQueueDeadlineMiss slot s
  | .rpBegin id => Sys2Proof.Machine.execRpBegin id s
  | .rpState id => Sys2Proof.Machine.execRpState id s
  | .rpDraw id => Sys2Proof.Machine.execRpDraw id s
  | .rpEnd id => Sys2Proof.Machine.execRpEnd id s
  | .vertexBatch ext => Sys2Proof.Machine.execVertexBatch ext s
  | .primitiveBinning ext => Sys2Proof.Machine.execPrimitiveBinning ext s
  | .binSpill ext => Sys2Proof.Machine.execBinSpill ext s
  | .tileAssign ext => Sys2Proof.Machine.execTileAssign ext s
  | .tvuSegment e b => Sys2Proof.Machine.execTvuSegment e b s
  | .fragmentCohort e b => Sys2Proof.Machine.execFragmentCohort e b s
  | .tileKernelBlock e b => Sys2Proof.Machine.execTileKernelBlock e b s
  | .tileResolve e b => Sys2Proof.Machine.execTileResolve e b s
  | .l1Invalidate m e => Sys2Proof.Machine.execL1Invalidate m e s
  | .gfxCalresWrite m v => Sys2Proof.Machine.execGfxCalresWrite m v s
  | .dcoChannelEnable m c dlen ulps irq => Sys2Proof.Machine.execDcoChannelEnable m c dlen ulps irq s
  | .dcoChannelDisable m c dlen ulps irq => Sys2Proof.Machine.execDcoChannelDisable m c dlen ulps irq s
  | .dcoChannelStop c => Sys2Proof.Machine.execDcoChannelStop c s
  | .dcoFrameStart c late ext => Sys2Proof.Machine.execDcoFrameStart c late ext s
  | .dcoLatch c far => Sys2Proof.Machine.execDcoLatch c far s
  | .dcoCommitSubmit m c dpa => Sys2Proof.Machine.execDcoCommitSubmit m c dpa s
  | .dcoCommitCheck c acqFar relFar ext => Sys2Proof.Machine.execDcoCommitCheck c acqFar relFar ext s
  | .dcoUnderflow c line x => Sys2Proof.Machine.execDcoUnderflow c line x s
  | .dcoMeshLoad m c cell gh gw => Sys2Proof.Machine.execDcoMeshLoad m c cell gh gw s
  | .dcoMeshLoadDone c ext => Sys2Proof.Machine.execDcoMeshLoadDone c ext s
  | .dcsGo m c read p2 p1 dt => Sys2Proof.Machine.execDcsGo m c read p2 p1 dt s
  | .dcsDone c err rd => Sys2Proof.Machine.execDcsDone c err rd s
  | .cifPortEnable m p fsen outfmt vc dt => Sys2Proof.Machine.execCifPortEnable m p fsen outfmt vc dt s
  | .cifPortDisable m p fsen outfmt vc dt => Sys2Proof.Machine.execCifPortDisable m p fsen outfmt vc dt s
  | .csiFrameStartPacket p vc ecc => Sys2Proof.Machine.execCsiFrameStartPacket p vc ecc s
  | .csiLongPacket p vc dt ecc crc full payload => Sys2Proof.Machine.execCsiLongPacket p vc dt ecc crc full payload s
  | .csiFrameEndPacket p vc ecc => Sys2Proof.Machine.execCsiFrameEndPacket p vc ecc s
  | .cifFrameComplete p => Sys2Proof.Machine.execCifFrameComplete p s
  | .fsyncPulse p => Sys2Proof.Machine.execFsyncPulse p s
  | .rtcCapture m => Sys2Proof.Machine.execRtcCapture m s
  | .aocFrame rows => Sys2Proof.Machine.execAocFrame rows s
  | .meResult => Sys2Proof.Machine.execMeResult s
  | .fieGo m auto_ list => Sys2Proof.Machine.execFieGo m auto_ list s
  | .fieRunDone => Sys2Proof.Machine.execFieRunDone s
  | .comparatorTrip trips levels => Sys2Proof.Machine.execComparatorTrip trips levels s
  | .mcuRun m run div => Sys2Proof.Machine.execMcuRun m run div s
  | .extWait => Sys2Proof.Machine.execExtWait s
  | .extWake => Sys2Proof.Machine.execExtWake s
  | .extFieRun list => Sys2Proof.Machine.execExtFieRun list s
  | .extLog code val => Sys2Proof.Machine.execExtLog code val s
  | .extTime => Sys2Proof.Machine.execExtTime s
  | .extMbox off len => Sys2Proof.Machine.execExtMbox off len s
  | .extEntryTimeout => Sys2Proof.Machine.execExtEntryTimeout s
  | .chlPortEnable m p enc maxRate maxWidth => Sys2Proof.Machine.execChlPortEnable m p enc maxRate maxWidth s
  | .chlPortDisable m p enc maxRate maxWidth => Sys2Proof.Machine.execChlPortDisable m p enc maxRate maxWidth s
  | .chlDetectPoll p term => Sys2Proof.Machine.execChlDetectPoll p term s
  | .chlTrainRate p rate pass maxRate maxWidth hash peer inv rev => Sys2Proof.Machine.execChlTrainRate p rate pass maxRate maxWidth hash peer inv rev s
  | .chlRetrain m p => Sys2Proof.Machine.execChlRetrain m p s
  | .chlHoldExpiry p => Sys2Proof.Machine.execChlHoldExpiry p s
  | .lossOfSignal p => Sys2Proof.Machine.execLossOfSignal p s
  | .creditTimeout p => Sys2Proof.Machine.execCreditTimeout p s
  | .requestTimeout tag => Sys2Proof.Machine.execRequestTimeout tag s
  | .authRetry p => Sys2Proof.Machine.execAuthRetry p s
  | .redetectTimer p => Sys2Proof.Machine.execRedetectTimer p s
  | .flitReceive p body crc plain e => Sys2Proof.Machine.execFlitReceive p body crc plain e s
  | .nakResendTimer p => Sys2Proof.Machine.execNakResendTimer p s
  | .replayTimeout p => Sys2Proof.Machine.execReplayTimeout p s
  | .chlIdle p => Sys2Proof.Machine.execIdle p s
  | .chlAck p seq => Sys2Proof.Machine.execAck p seq s
  | .chlNak p seq => Sys2Proof.Machine.execNak p seq s
  | .chlCredit p vc n => Sys2Proof.Machine.execCredit p vc n s
  | .chlGtag p g e => Sys2Proof.Machine.execGtag p g e s
  | .chlRd p src dst tag line => Sys2Proof.Machine.execRd p src dst tag line s
  | .chlRdb p src dst tag line n => Sys2Proof.Machine.execRdb p src dst tag line n s
  | .chlWr p src dst tag line n data poison => Sys2Proof.Machine.execWr p src dst tag line n data poison s
  | .chlWrp p src dst tag line mask data poison => Sys2Proof.Machine.execWrp p src dst tag line mask data poison s
  | .chlAtm p src dst tag dpa op w64 sgn b c => Sys2Proof.Machine.execAtm p src dst tag dpa op w64 sgn b c s
  | .chlRdr p src dst tag st n data poison => Sys2Proof.Machine.execRdr p src dst tag st n data poison s
  | .chlRsp p src dst tag st old => Sys2Proof.Machine.execRsp p src dst tag st old s
  | .sigpend p src dst h v => Sys2Proof.Machine.execSigpend p src dst h v s
  | .chlSig p src dst h code v => Sys2Proof.Machine.execSig p src dst h code v s
  | .chlWait p src dst h id w => Sys2Proof.Machine.execWait p src dst h id w s
  | .chlWaitsat p src dst id err e => Sys2Proof.Machine.execWaitsat p src dst id err e s
  | .chlDb p src dst h tail page => Sys2Proof.Machine.execDb p src dst h tail page s
  | .objchk p src dst h kind => Sys2Proof.Machine.execObjchk p src dst h kind s
  | .objres p src dst h kind res => Sys2Proof.Machine.execObjres p src dst h kind res s
  | .chlInv p src dst va pasid npg global seq => Sys2Proof.Machine.execInv p src dst va pasid npg global seq s
  | .chlInvdone p src dst seq => Sys2Proof.Machine.execInvdone p src dst seq s
  | .prxreq p src dst page tag pasid va w => Sys2Proof.Machine.execPrxreq p src dst page tag pasid va w s
  | .prxrsp p src dst page tag ok tbase lg r w u g code => Sys2Proof.Machine.execPrxrsp p src dst page tag ok tbase lg r w u g code s
  | .hello p uid nonce key enc e => Sys2Proof.Machine.execHello p uid nonce key enc e s
  | .proof p sig e => Sys2Proof.Machine.execProof p sig e s
  | .rollinfo p uid root num chain8 pending gen min max => Sys2Proof.Machine.execRollinfo p uid root num chain8 pending gen min max s
  | .rollset p num quar count routes hops epoch q0 q1 => Sys2Proof.Machine.execRollset p num quar count routes hops epoch q0 q1 s
  | .regreq p src dst off write val e => Sys2Proof.Machine.execRegreq p src dst off write val e s
  | .regrsp p src dst off write err val => Sys2Proof.Machine.execRegrsp p src dst off write err val s
  | .fwblk p idx data e => Sys2Proof.Machine.execFwblk p idx data e s
  | .tsyncReq port seq t2 t3 => Sys2Proof.Machine.execTsyncReq port seq t2 t3 s
  | .tsyncRsp seq locked t2 t4 => Sys2Proof.Machine.execTsyncRsp seq locked t2 t4 s
  | .tsyncFollow seq t3 => Sys2Proof.Machine.execTsyncFollow seq t3 s
  | .chlSleep p => Sys2Proof.Machine.execSleep p s
  | .chlWake p from_ left => Sys2Proof.Machine.execWake p from_ left s
  | .chlDmwin p src dst base lim => Sys2Proof.Machine.execDmwin p src dst base lim s
  | .chnrst p e => Sys2Proof.Machine.execChnrst p e s
  | .chlIrq p src dst v die => Sys2Proof.Machine.execIrq p src dst v die s
  | .slotreq p src dst phase step sub cls uid => Sys2Proof.Machine.execSlotreq p src dst phase step sub cls uid s
  | .slotgrant p src dst phase step sub cls uid => Sys2Proof.Machine.execSlotgrant p src dst phase step sub cls uid s
  | .slotret p src dst phase step sub cls uid => Sys2Proof.Machine.execSlotret p src dst phase step sub cls uid s
  | .bootrepReport p src dst phase step sub cls uid => Sys2Proof.Machine.execBootrepReport p src dst phase step sub cls uid s
  | .flashrec p src dst journal rec_ => Sys2Proof.Machine.execFlashrec p src dst journal rec_ s
  | .rollCall walk ring => Sys2Proof.Machine.execRollCall walk ring s
  | .chlRollreq m => Sys2Proof.Machine.execChlRollreq m s
  | .tsyncInterval t1 => Sys2Proof.Machine.execTsyncInterval t1 s
  | .bar4Access off write n data poison => Sys2Proof.Machine.execBar4Access off write n data poison s
  | .bar4Atomicop off op w64 b c => Sys2Proof.Machine.execBar4Atomicop off op w64 b c s
  | .hifApertureResolve m n val e => Sys2Proof.Machine.execHifApertureResolve m n val e s
  | .flr env => Sys2Proof.Machine.execFlr env s
  | .hifLinkReset kind up speed width => Sys2Proof.Machine.execHifLinkReset kind up speed width s
  | .ownClaim m key => Sys2Proof.Machine.execOwnClaim m key s
  | .ownForcedClaim m key => Sys2Proof.Machine.execOwnForcedClaim m key s
  | .electionWindowEnd => Sys2Proof.Machine.execElectionWindowEnd s
  | .ownHb m beat m1dies => Sys2Proof.Machine.execOwnHb m beat m1dies s
  | .leaseExpiry => Sys2Proof.Machine.execLeaseExpiry s
  | .ownRelease m key => Sys2Proof.Machine.execOwnRelease m key s
  | .ownOffer m key to_ => Sys2Proof.Machine.execOwnOffer m key to_ s
  | .offerLapse => Sys2Proof.Machine.execOfferLapse s
  | .txnBegin m mask => Sys2Proof.Machine.execTxnBegin m mask s
  | .txnCommit m slot bound ch => Sys2Proof.Machine.execTxnCommit m slot bound ch s
  | .txnAbort m slot => Sys2Proof.Machine.execTxnAbort m slot s
  | .txnBoundaryApply slot e => Sys2Proof.Machine.execTxnBoundaryApply slot e s
  | .txnTimeout slot => Sys2Proof.Machine.execTxnTimeout slot s
  | .eclkRequest m step => Sys2Proof.Machine.execEclkRequest m step s
  | .eclkRailSettled pgEmb => Sys2Proof.Machine.execEclkRailSettled pgEmb s
  | .eclkVddTimeout => Sys2Proof.Machine.execEclkVddTimeout s
  | .fclkSwitch => Sys2Proof.Machine.execFclkSwitch s
  | .rpllUnlock rtc => Sys2Proof.Machine.execRpllUnlock rtc s
  | .rpllRelock rtc => Sys2Proof.Machine.execRpllRelock rtc s
  | .tbSet m tbase => Sys2Proof.Machine.execTbSet m tbase s
  | .tbCapture k falling => Sys2Proof.Machine.execTbCapture k falling s
  | .pwrReqS2 m => Sys2Proof.Machine.execPwrReqS2 m s
  | .pwrReqS3 m => Sys2Proof.Machine.execPwrReqS3 m s
  | .pwrReqS4 m => Sys2Proof.Machine.execPwrReqS4 m s
  | .domainDrainDone d => Sys2Proof.Machine.execDomainDrainDone d s
  | .stateEntryComplete rtc => Sys2Proof.Machine.execStateEntryComplete rtc s
  | .s1Entry => Sys2Proof.Machine.execS1Entry s
  | .s1Exit => Sys2Proof.Machine.execS1Exit s
  | .s2ExitComplete => Sys2Proof.Machine.execS2ExitComplete s
  | .s3ExitComplete rtc us env => Sys2Proof.Machine.execS3ExitComplete rtc us env s
  | .pwrGoodRise => Sys2Proof.Machine.execPwrGoodRise s
  | .pwrGoodTimeout => Sys2Proof.Machine.execPwrGoodTimeout s
  | .pwrDomReqWrite m req => Sys2Proof.Machine.execPwrDomReqWrite m req s
  | .rampPass d => Sys2Proof.Machine.execRampPass d s
  | .rampWindowAbort d => Sys2Proof.Machine.execRampWindowAbort d s
  | .rampCurrentAbort d => Sys2Proof.Machine.execRampCurrentAbort d s
  | .powerMeasurement p => Sys2Proof.Machine.execPowerMeasurement p s
  | .thermalControlRead => Sys2Proof.Machine.execThermalControlRead s
  | .thermalSensorConversion k t => Sys2Proof.Machine.execThermalSensorConversion k t s
  | .padHoldRelease m => Sys2Proof.Machine.execPadHoldRelease m s
  | .slotWaitTimeout => Sys2Proof.Machine.execSlotWaitTimeout s
  | .chainwaitExpiry => Sys2Proof.Machine.execChainwaitExpiry s
  | .mbxInfo => Sys2Proof.Machine.execMbxInfo s
  | .mbxFlashWrite ok => Sys2Proof.Machine.execMbxFlashWrite ok s
  | .mbxFlashErase ok => Sys2Proof.Machine.execMbxFlashErase ok s
  | .mbxSetTrial ok => Sys2Proof.Machine.execMbxSetTrial ok s
  | .mbxRestart env => Sys2Proof.Machine.execMbxRestart env s
  | .bootConfirm m => Sys2Proof.Machine.execBootConfirm m s
  | .bootSvnadv m key => Sys2Proof.Machine.execBootSvnadv m key s
  | .padPinEvent pins levels => Sys2Proof.Machine.execPadPinEvent pins levels s
  | .serPrivateTransfer m inst rd len nostop addr => Sys2Proof.Machine.execSerPrivateTransfer m inst rd len nostop addr s
  | .serBroadcastCcc m inst rd len nostop ccc => Sys2Proof.Machine.execSerBroadcastCcc m inst rd len nostop ccc s
  | .serDirectCcc m inst rd len nostop addr ccc => Sys2Proof.Machine.execSerDirectCcc m inst rd len nostop addr ccc s
  | .serEntdaa m inst nostop addr => Sys2Proof.Machine.execSerEntdaa m inst nostop addr s
  | .serCmdEnd inst result count data => Sys2Proof.Machine.execSerCmdEnd inst result count data s
  | .serIbi inst addr payload => Sys2Proof.Machine.execSerIbi inst addr payload s
  | .serSclTimeout inst count => Sys2Proof.Machine.execSerSclTimeout inst count s
  | .wdtKick m key => Sys2Proof.Machine.execWdtKick m key s
  | .wdtStop m key => Sys2Proof.Machine.execWdtStop m key s
  | .wdtStage1Expiry => Sys2Proof.Machine.execWdtStage1Expiry s
  | .wdtStage2Expiry env => Sys2Proof.Machine.execWdtStage2Expiry env s
  | .faultRecordWrite ack => Sys2Proof.Machine.execFaultRecordWrite ack s
  | .fqConsWrite m cons ack => Sys2Proof.Machine.execFqConsWrite m cons ack s
  | .fqEnable m ien log2sz => Sys2Proof.Machine.execFqEnable m ien log2sz s
  | .telSnap m => Sys2Proof.Machine.execTelSnap m s
  | .telClr m => Sys2Proof.Machine.execTelClr m s
  | .porReset => Sys2Proof.Machine.execPorReset s
  | .porRelease env => Sys2Proof.Machine.execPorRelease env s
  | .pinReset => Sys2Proof.Machine.execPinReset s
  | .cruRstWarm m key env => Sys2Proof.Machine.execCruRstWarm m key env s
  | .cruRstChn m key both env => Sys2Proof.Machine.execCruRstChn m key both env s
  | .engResetHif m => Sys2Proof.Machine.execEngResetHif m s
  | .engResetTxn m => Sys2Proof.Machine.execEngResetTxn m s
  | .engResetDtu m => Sys2Proof.Machine.execEngResetDtu m s
  | .engResetSin m => Sys2Proof.Machine.execEngResetSin m s
  | .engResetDco m => Sys2Proof.Machine.execEngResetDco m s
  | .engResetCif m => Sys2Proof.Machine.execEngResetCif m s
  | .engResetPad m => Sys2Proof.Machine.execEngResetPad m s
  | .engResetFum m => Sys2Proof.Machine.execEngResetFum m s
  | .engResetEmber m n => Sys2Proof.Machine.execEngResetEmber m n s
  | .dapregRead off e => Sys2Proof.Machine.execDapregRead off e s
  | .dapregWrite off data e => Sys2Proof.Machine.execDapregWrite off data e s
  | .dapstatClear => Sys2Proof.Machine.execDapstatClear s
  | .jtagExtest rest restIn out en => Sys2Proof.Machine.execJtagExtest rest restIn out en s
  | .jtagSamplePreload rest restIn out en => Sys2Proof.Machine.execJtagSamplePreload rest restIn out en s
  | .jtagClamp => Sys2Proof.Machine.execJtagClamp s
  | .jtagHighz => Sys2Proof.Machine.execJtagHighz s
  | .jtagIdcode => Sys2Proof.Machine.execJtagIdcode s
  | .jtagBypass => Sys2Proof.Machine.execJtagBypass s
  | .tapReset => Sys2Proof.Machine.execTapReset s
  | .pinRelease env => Sys2Proof.Machine.execPinRelease env s
  | .fsyncPulseEnd p => Sys2Proof.Machine.execFsyncPulseEnd p s
  | .flitupTimeout p => Sys2Proof.Machine.execFlitupTimeout p s
  | .authTimeout p => Sys2Proof.Machine.execAuthTimeout p s
  | .dtuAcFlushDone => Sys2Proof.Machine.execDtuAcFlushDone s
  | .mbxDone ok env => Sys2Proof.Machine.execMbxDone ok env s
  | .synCmdDone res q value epoint => Sys2Proof.Machine.execSynCmdDone res q value epoint s

end Sys2Proof.Machine
end

