-- ==== Sys2Proof/Machine/Tick.lean ====
section
/-!
DEFINITION. What one count of TBASE does when no command waits (log entry 20): TBASE, the telemetry counters, the watchdog's
count.
-/

namespace Sys2Proof.Machine

/-- Telemetry counters that advance with TBASE (R651): the power state, throttle, cap, and powered Embers. -/
def State.telTick (s : State) : State :=
  let s := match s.get R.PWR_STAT_STATE with
    | 0 => s.telAdd 1 1
    | 1 => s.telAdd 2 1
    | 2 => s.telAdd 3 1
    | 3 => s.telAdd 4 1
    | _ => s
  let s := if s.get R.PWR_LIMIT_THSTEP > 0 then s.telAdd 5 1 else s
  let s := if s.get R.PWR_LIMIT_CAPSTEP > 0 then s.telAdd 6 1 else s
  let n := popc 16 (s.get R.PWR_DOM_ON_ON_EMB)
  if n = 0 then s else s.telAdd 7 n

/-- FCLK cycles in one TBASE count (R501). -/
def State.fclks (s : State) : Nat := if s.cru.fclkLow then 8 else 12

/-- FCLK counts of the watchdog and of Sinter's event 0x01 (R636, R200); FCLK is stopped outside S0. -/
def State.fclkTick (s : State) : State :=
  if s.get R.PWR_STAT_STATE ≠ 0 then s
  else
    let s := if s.flag R.WDT_STAT_RUN then { s with wdt := { s.wdt with cyc := s.wdt.cyc + s.fclks } } else s
    s.sinEvt 1 s.fclks

/-- The RTC counts crystal cycles: 128 for every 390,625 counts of TBASE of an ideal crystal (R400, R505). -/
def State.rtcTick (s : State) : State :=
  let n := s.cru.rtcFrac + 128
  if n < 390625 then { s with cru := { s.cru with rtcFrac := n } }
  else { s.incWrap R.FUM_RTC_RTC with cru := { s.cru with rtcFrac := n - 390625 } }

/-- TBASE advances, holds while the servo holds it (R507), and stands still while RPLL is unlocked and in S3 (R505). -/
def State.tbTick (s : State) : State :=
  match s.cru.holdTo with
  | some (n + 1) => { s with cru := { s.cru with holdTo := if n = 0 then none else some n } }
  | _ => s.incWrap R.CRU_TB_NOW_TBASE

/-- The ENG resets that run end (R658). -/
def State.engTick (s : State) : State := (s.set R.CRU_RST_ENG_BLK 0).set R.CRU_RST_ENG_EMB 0

/-- One tick. -/
def State.tick (s : State) : State :=
  if s.rst.asserted.isSome || s.get R.PWR_STAT_STATE ≥ 3 || !s.flag R.CRU_RPLL_STAT_LOCK then s
  else s.tbTick.telTick.fclkTick.rtcTick.engTick

end Sys2Proof.Machine
end

