-- ==== Sys2Proof/Safety.lean ====
section
/-!
DEFINITION. The terms in which claims about the machine are stated: completion of a command, when a register write is served, what two
states share, and the form of memory.
-/

namespace Sys2Proof.Machine

/-- The command answers a next state, of which `P` holds. -/
def Completes (c : Instr) (s : State) (P : State → Prop) : Prop := ∃ t, exec c s = .next t ∧ P t

/-- The register cells of `t` are those of `s` but for the listed keys. -/
def SameRegs (s t : State) (keys : List Nat) : Prop :=
  ∀ (d : DWord) (k : Nat), k ∉ keys → Cells.get d t.regs k = Cells.get d s.regs k

/-- A byte store in its one form: addresses strictly rising, no entry equal to what an unlisted address reads as. -/
def Memory.wf (d : Nat) (l : List Host.Cell) : Bool := Cells.wf (BitVec.ofNat 8 d) l

/-- Device memory, flash and AO SRAM are in their one form. -/
def State.Canonical (s : State) : Prop :=
  Memory.wf 0 s.mem = true ∧ Memory.wf 0xFF s.flash = true ∧ Memory.wf 0 s.ao = true

/-- A write of a master to an owner-gated register is served: the die is up and active (R560, R526), the register's domain takes accesses
(R13, R516), no ENG reset covers it (R658), the master owns the die (R466), and no transaction slot holds its block (R483). -/
structure State.Serves (s : State) (m : Master) (off : Nat) : Prop where
  reach : m = .m3 → m3Reach off = true
  ready : s.get R.BOOT_STAT_PHASE = 3
  active : s.get R.PWR_STAT_STATE = 0
  fabric : s.domLive 0 = true
  domain : (domOf off).all s.domLive = true
  noEng : (engOf off).any s.engRuns = false
  owner : s.owns m = true
  unheld : s.txnHolder off = none

/-- A write that any master may make is served (R466): as `Serves`, whoever owns the die and whatever slots are open. -/
structure State.Admits (s : State) (m : Master) (off : Nat) : Prop where
  reach : m = .m3 → m3Reach off = true
  ready : s.get R.BOOT_STAT_PHASE = 3
  active : s.get R.PWR_STAT_STATE = 0
  fabric : s.domLive 0 = true
  domain : (domOf off).all s.domLive = true

/-- The state in which a served write takes effect: the master's latch and holding word are used up (R10). -/
def State.begun (s : State) (m : Master) : State :=
  { s with busErr := false, latch := Cells.set {} s.latch m.idx {} }

end Sys2Proof.Machine
end

