-- ==== Sys2Proof/Claims.lean ====
section
/-!
DEFINITION. The outcomes that the statements of Certificates/Slice0 name, block by block.
-/

namespace Sys2Proof.Machine

/-! ## Ownership and transactions -/

/-- Ownership is granted to the master of index `n` (R473). -/
structure Granted (s t : State) (n : Nat) : Prop where
  state : t.get R.OWN_STAT_STATE = 2
  owner : t.get R.OWN_STAT_OWNER = n % 4
  epoch : t.get R.OWN_STAT_EPOCH = (s.get R.OWN_STAT_EPOCH + 1) % 2 ^ 16
  gained : t.get R.OWN_EVT_GAINED = 1
  lease : t.own.leaseEnd = s.tb + 100 * 100000
  claims : t.own.claims = []

/-- Every transaction slot that was in use is free, with a reason, and its staged writes are gone (R478, R486). -/
def SlotsRolled (s t : State) (reason : Nat) : Prop :=
  ∀ n < 4, t.get R.TXN_S_STAT_STATE n = 0 ∧ (s.get R.TXN_S_STAT_STATE n ≠ 0 →
    t.get R.TXN_S_STAT_REASON n = reason ∧ ∀ e ∈ t.staged, e.slot ≠ n)

/-- A transaction slot has ended with a reason (R485, R486). -/
structure SlotEnded (s t : State) (n reason : Nat) : Prop where
  state : t.get R.TXN_S_STAT_STATE n = 0
  why : t.get R.TXN_S_STAT_REASON n = reason
  mask : t.get R.TXN_S_BLK_MASK n = 0
  count : t.get R.TXN_S_STAT_COUNT n = 0
  staged : t.staged = s.staged.filter (fun e => e.slot != n)
  rolled : reason ≠ 1 → t.get R.TXN_EVT_ROLLED = (s.get R.TXN_EVT_ROLLED ||| 1 <<< n) % 16
  applied : reason = 1 → t.get R.TXN_EVT_APPLIED = (s.get R.TXN_EVT_APPLIED ||| 1 <<< n) % 16
  others : ∀ k < 4, k ≠ n → t.get R.TXN_S_STAT_STATE k = s.get R.TXN_S_STAT_STATE k ∧
    t.get R.TXN_S_BLK_MASK k = s.get R.TXN_S_BLK_MASK k

/-- The poison table is empty (R195). -/
def State.NoPoison (s : State) : Prop := ∀ e < 16, s.flag R.SIN_POISON_VALID e = false

/-! ## Fault records -/

/-- A fault record of which `p` holds is numbered and staged, when FAB is on outside S3 and the staging buffer has room (R645, R646). -/
def Recorded (s t : State) (p : FaultRec → Prop) : Prop :=
  s.domOn 0 = true → s.get R.PWR_STAT_STATE ≠ 3 → s.flt.staged.length < 64 →
    ∃ r ∈ t.flt.staged, r.seq = s.get R.FQ_STAT_NEXTSEQ ∧ r.die = s.die ∧ p r

/-! ## Sync objects -/

/-- Two entries agree in VALUE, ERR, EPOINT and ERRCNT. -/
def SameObj (x y : SyncObj) : Prop := x.value = y.value ∧ x.err = y.err ∧ x.epoint = y.epoint ∧ x.errcnt = y.errcnt

/-- Record i of table t lies in this die's DRAM from `a` on, where memory answers. -/
def State.RecOk (s : State) (t i a : Nat) : Prop := s.recLoc t i = .loc a ∧ s.locStatus (.loc a) = .ok ∧ s.NoPoison

/-! ## Translation -/

/-- Neither the ATC nor a pinned slot holds a translation that an invalidation matches (R230). -/
def NoMatch (t : State) (lo hi : Nat) (pasid : Option Nat) (global : Bool) : Prop :=
  (∀ e ∈ t.dtu.atc, e.matches lo hi pasid global = false) ∧
  (∀ p ∈ t.dtu.pins, ∀ e, p.ent = some e → e.matches lo hi pasid global = false)

/-- A driver's invalidation is accepted: BUSY, and one entry more in the queue (R245). -/
def DriverInvalidates (s t : State) (m : Master) : Prop :=
  t.get R.DTU_INV_STAT_BUSY = 1 ∧ t.dtu.invSeq = s.dtu.invSeq + 1 ∧
  (∃ v ∈ t.dtu.invq, v.seq = s.dtu.invSeq ∧ v.itag = none ∧ v.fwd = none) ∧
  t = { s.begun m with regs := t.regs, dtu := t.dtu, chl := t.chl, out := t.out }

/-! ## Packets and queues -/

/-- Packet `id` is `p`: it has committed, its queue has a slot, every packet it depends on has retired, and every await has its outcome
(R291, R296). -/
structure State.Waited (s : State) (id : Nat) (p : Pkt) : Prop where
  found : p ∈ s.wsp.win
  only : ∀ y ∈ s.wsp.win, y.id = id → y = p
  ident : p.id = id
  stage : p.stage = .committed
  slot : ∃ x k, s.q? p.q = some x ∧ x.slot = some k
  own : p.parent = none
  deps : ∀ d ∈ p.deps, s.pk? d = none
  awaits : ∀ a ∈ p.awaits, a.out.isSome = true

/-- Such a packet that runs: no packet of its queue has failed, and no await without IGNERR received an error (R266). -/
structure State.Runs (s : State) (id : Nat) (p : Pkt) : Prop extends State.Waited s id p where
  sound : ∀ x, s.q? p.q = some x → x.failed = []
  clean : ∀ a ∈ p.awaits, a.ign = true ∨ ∃ c, a.out = some (c, false)

/-- Such a packet that fails with DEP_ERROR: a packet it depends on failed, or an await without IGNERR received an error (R266). -/
structure State.Loses (s : State) (id : Nat) (p : Pkt) : Prop extends State.Waited s id p where
  lost : (∃ x f, s.q? p.q = some x ∧ f ∈ x.failed ∧ f.2 ∈ p.deps) ∨ ∃ a ∈ p.awaits, a.ign = false ∧ ∃ c, a.out = some (c, true)

/-- Packet `id` has become `p`; the other packets, and everything outside the window, stay. -/
structure PkBecomes (s t : State) (id : Nat) (p : Pkt) : Prop where
  now : t.pk? id = some p
  rest : ∀ k, k ≠ id → t.pk? k = s.pk? k
  frame : t = { s with wsp := { s.wsp with win := t.wsp.win } }

/-- No earlier packet of the queue is committed and unretired (R308). -/
def State.FirstOf (s : State) (p : Pkt) : Prop :=
  ∀ y ∈ s.wsp.win, y.q = p.q → y.id < p.id → y.parent = none → y.stage = .fetched ∨ y.stage = .parsed

/-- The packets that wait on the predicate a COND writes have learnt its value `v` (R301, R302). -/
def Resolves (s t : State) (id : Nat) (v : Bool) : Prop :=
  (∀ u ∈ s.wsp.win, u.predBy = some id → u.pred = none → u.id ≠ id → (∀ y ∈ s.wsp.win, y.id = u.id → y = u) →
    ∃ u', t.pk? u.id = some u' ∧ u'.pred = some (v != pkPneg u.bytes) ∧ u'.stage = u.stage) ∧
  (s.flag R.WSP_CTL_SPEC = false → t = { s with wsp := t.wsp })

/-- A message of this die to another left by port `p`, or waits there (R427, R446), when the port takes messages. -/
def Sends (s t : State) (p op dst : Nat) : Prop :=
  s.get R.CHLP_STAT_STATE p ∈ [3, 4, 5, 6, 7, 9] →
    (∃ tag st arg bs, Out.chl p op s.die dst tag st arg bs ∈ t.out) ∨ ∃ m ∈ (t.chlPort p).q, m.op = op ∧ m.src = s.die ∧ m.dst = dst

/-! ## Instructions of an Ember -/

/-- Threads of an entry for which an instruction executes: their guard holds and they have not performed it already (R74, R77). -/
def Entry.active (en : Entry) (k : Block) (w : Nat) : List Thr := en.threads.filter fun t => k.guard w t && !en.done.contains t

/-- An instruction may issue from an entry: the Ember is on and not halted, the block runs, the entry may go first, decoding finds no
fault, no active thread of a memory instruction has an acquire outstanding, and for every active thread its registers exist and
none waits for an outstanding access (R38, R71 to R77, R106, R159). -/
structure State.Issues (s : State) (e slot : Nat) (i : Ins) (en : Entry) (k : Block) (pc : Nat) : Prop where
  entry : (s.em e).entries.lookup slot = some en
  block : s.blk? e en.blk = some k
  first : ∃ t, en.threads.head? = some t ∧ k.pcOf t = pc
  powered : s.embOn e = true
  unhalted : s.flag R.EMB_CTL_HALT e = false
  alive : k.term = none
  unstopped : ∀ p ∈ en.parts, p.1 ∉ k.stopped
  turn : ∀ n, (s.em e).first.lookup (slot / 32) = some n → n = slot
  legal : i.bad = []
  aligned : i.words = 2 → pc % 16 = 0
  calm : i.mem = true → ∀ t ∈ en.active k i.w, k.acquiring t = false
  ready : ∀ t ∈ en.active k i.w, ∀ o ∈ i.ops, selIsV o.sel = true → ∀ j < o.n,
    o.sel + j < (k.infoOf t.1).n ∧ o.sel + j ∉ k.pendRegs t

/-- Two blocks agree in everything but where their lanes stand, and, for the listed threads, their program counters. -/
structure SameData (k k' : Block) : Prop where
  rest : k' = { k with cohorts := k'.cohorts }
  cohort : ∀ c, k'.coh c = { k.coh c with lanes := (k'.coh c).lanes }

/-- An instruction has issued from an entry of block `k` and its threads go on at `pc`: the block is `k'` but for where its lanes stand,
other blocks keep their data, and of the registers only the Ember's event counters change (R38, R68). -/
structure Goes (s t : State) (e : Nat) (en : Entry) (pc : Nat) (k' : Block) : Prop where
  block : ∃ x, t.blk? e en.blk = some x ∧ SameData (en.parts.foldl (fun k p => k.cohMod p.1 fun c => c.setPcs p.2 pc) k') x
  others : ∀ b, b ≠ en.blk → ∀ k, s.blk? e b = some k → ∃ x, t.blk? e b = some x ∧ SameData k x
  embers : ∀ n, n ≠ e → t.em n = s.em n
  regs : SameRegs s t ((List.range 4).map (R.EMB_PERF_COUNT.key e ·))
  frame : t = { s with emb := t.emb, regs := t.regs, fresh := t.fresh }

/-- Register `d` of the active threads holds `f`; every other register, and every predicate, is as it was. Writes to rz are discarded
(R71). -/
structure WroteReg (k k' : Block) (act : List Thr) (d : Nat) (f : Thr → Nat) : Prop where
  new : d < 0x140 → ∀ x ∈ act, k'.rd x d = f x % 2 ^ 32
  vec : ∀ x r, r < 0x100 → x.2 < 32 → (r = d → x ∉ act) → k'.rd x r = k.rd x r
  uni : ∀ x r, 0x100 ≤ r → (r = d → ∀ y ∈ act, y.1 ≠ x.1) → k'.rd x r = k.rd x r
  preds : ∀ x p, k'.pred x p = k.pred x p
  frame : k' = { k with cohorts := k'.cohorts }

/-- Predicates of the active threads: `f` gives those written and their values; every other predicate and every register is as it was. -/
structure WrotePred (k k' : Block) (act : List Thr) (f : Thr → Nat → Option Bool) : Prop where
  new : ∀ x ∈ act, ∀ p v, f x p = some v → k'.pred x p = v
  kept : ∀ x p, (x ∈ act → f x p = none) → k'.pred x p = k.pred x p
  regs : ∀ x r, k'.rd x r = k.rd x r
  frame : k' = { k with cohorts := k'.cohorts }

/-- An instruction completes: it issues, changes the block as `P` says, and goes on to the next instruction. -/
def Executes (c : Instr) (s : State) (e : Nat) (en : Entry) (pc : Nat) (P : Block → Prop) : Prop :=
  Completes c s fun t => ∃ k', P k' ∧ Goes s t e en pc k'

/-- An ALU or ALI instruction of word `w` writes D of each active thread with `f` of its operands A, B and C (R75). -/
def Computes (c : Instr) (s : State) (e slot w : Nat) (h : AluShape) (f : Nat → Nat → Nat → Nat) (more : List Nat := []) : Prop :=
  ∀ en k pc, s.Issues e slot (h.ins w more) en k pc → Executes c s e en ((pc + 8) % 2 ^ 64) fun k' =>
    WroteReg k k' (en.active k w) (iD w) fun t => f (aOf w k t) (bOf w k t) (cOf w k t)

/-- An instruction of word `w` writes predicates of each active thread as `f` says of its operands A and B. -/
def Decides (c : Instr) (s : State) (e slot w : Nat) (i : Ins) (f : Nat → Nat → Nat → Option Bool) : Prop :=
  ∀ en k pc, s.Issues e slot i en k pc → Executes c s e en ((pc + 8) % 2 ^ 64) fun k' =>
    WrotePred k k' (en.active k w) fun t p => f (aOf w k t) (bOf w k t) p

/-- As `Issues`, and no active thread meets an execution-time fault of the instruction's own (R86, R106). -/
structure State.Performs (s : State) (e slot : Nat) (i : Ins) (xf : Block → Thr → Option XFault) (en : Entry) (k : Block) (pc : Nat) : Prop
    extends State.Issues s e slot i en k pc where
  sound : ∀ t ∈ en.active k i.w, xf k t = none

/-- No outstanding access of the block's active threads stands in the way of `p` (R154, R159). -/
def NoneOut (k : Block) (act : List Thr) (p : Thr → PendAcc → Bool) : Prop :=
  ∀ t ∈ act, ∀ a ∈ k.pend, a.coh = t.1 → a.lane = t.2 → p t a = false

/-- The Ember's block `b` has become `k'`; its other blocks, and memory, stay. -/
structure BlockIs (s t : State) (e b : Nat) (k' : Block) : Prop where
  now : t.blk? e b = some k'
  others : ∀ n, n ≠ b → t.blk? e n = s.blk? e n
  embers : ∀ n, n ≠ e → t.em n = s.em n
  mem : t.mem = s.mem

/-- Every thread of an entry stands at its target, whatever entries carry them now; registers and predicates are those of `k`, and of
the registers only the Ember's event counters change. -/
structure Lands (s t : State) (e : Nat) (en : Entry) (k : Block) (target : Thr → Nat) : Prop where
  block : ∃ x, t.blk? e en.blk = some x ∧ (∀ y ∈ en.threads, x.pcOf y = target y % 2 ^ 64) ∧ (∀ y r, x.rd y r = k.rd y r) ∧
    (∀ y p, x.pred y p = k.pred y p) ∧ x.cal = k.cal
  embers : ∀ n, n ≠ e → t.em n = s.em n
  regs : SameRegs s t ((List.range 4).map (R.EMB_PERF_COUNT.key e ·))
  frame : t = { s with emb := t.emb, regs := t.regs }

/-- Lanes of a block that groups waiting for an entry, or arrivals at barriers, name: none of them is among `act`. -/
def Apart (x : Ember) (k : Block) (b : Nat) (act : List Thr) : Prop :=
  (∀ g ∈ x.wants, g.1 = b → ∀ y ∈ act, g.2.1 = y.1 → bitB g.2.2 y.2 = false) ∧
  ∀ g ∈ k.bars, ∀ y ∈ act, g.2.1 = y.1 → bitB g.2.2 y.2 = false

/-- Registers d to d+n−1 of the active threads hold `f`; every other register, and every predicate, is as it was (R72). -/
structure WroteGroup (k k' : Block) (act : List Thr) (d n : Nat) (f : Thr → Nat) : Prop where
  new : d + n ≤ 0x100 → ∀ x ∈ act, k'.rdGroup x d n = f x % 2 ^ (32 * n)
  vec : ∀ x r, r < 0x100 → x.2 < 32 → (d ≤ r → r < d + n → x ∉ act) → k'.rd x r = k.rd x r
  uni : ∀ x r, 0x100 ≤ r → k'.rd x r = k.rd x r
  preds : ∀ x p, k'.pred x p = k.pred x p
  frame : k' = { k with cohorts := k'.cohorts }

/-- The threads of an entry are all the participants of one collective in each of their founding cohorts, and no other thread of those
waits at one: it executes as soon as they arrive (R49, R95). -/
structure Gathers (k : Block) (en : Entry) (w : Nat) : Prop where
  once : (en.parts.map (·.1)).Nodup
  same : ∀ q ∈ en.parts, ∃ m, lanesOf (m &&& (k.coh q.1).live) = lanesOf q.2 ∧ ∀ l ∈ lanesOf q.2, collMask w k (q.1, l) = m
  alone : ∀ q ∈ en.parts, ∀ l v m o, (k.coh q.1).lane l ≠ .coll v m o

/-- Registers d, d+1, … (n of them) of the active threads hold `f`; every other register, and every predicate, is as it was. -/
structure WroteRun (k k' : Block) (act : List Thr) (d n : Nat) (f : Thr → Nat → Nat) : Prop where
  new : d + n ≤ 0x100 → ∀ x ∈ act, ∀ i < n, k'.rd x (d + i) = f x i % 2 ^ 32
  vec : ∀ x r, r < 0x100 → x.2 < 32 → (d ≤ r → r < d + n → x ∉ act) → k'.rd x r = k.rd x r
  uni : d + n ≤ 0x100 ∨ 0x140 ≤ d → ∀ x r, 0x100 ≤ r → k'.rd x r = k.rd x r
  preds : ∀ x p, k'.pred x p = k.pred x p
  frame : k' = { k with cohorts := k'.cohorts }

/-! ## The chain link -/

/-- A port has gone DOWN for a reason (R448): its queues are empty, no die is routed by it, and a link that was past DETECT leaves its
record. -/
structure Downed (s t : State) (p reason : Nat) (held : Bool) : Prop where
  state : t.get R.CHLP_STAT_STATE p = 8
  why : t.get R.CHLP_STAT_DREASON p = reason
  plain : t.get R.CHLP_STAT_ENCON p = 0
  open_ : t.get R.CHLP_STAT_QREASON p = 0
  empty : (t.chlPort p).q = [] ∧ (t.chlPort p).replay = []
  kept : (t.chlPort p).held = held
  routes : ∀ d < 8, t.routedBy p d = false
  record : s.get R.CHLP_STAT_STATE p ∉ [0, 1, 8] →
    Recorded s t fun r => r.cls = 7 ∧ r.cause = reason ∧ r.src = p ∧ r.d0 = (s.chlPort p).uid % 2 ^ 64

/-- A port starts a retrain, or goes DOWN as UNSTABLE when there were more than RTLIM within 1 s (R427, R448). -/
def Retrains (s t : State) (p : Nat) : Prop :=
  let st := s.get R.CHLP_STAT_STATE p
  let l := s.tb :: (s.chlPort p).retr.filter fun x => decide (s.tb - x < 100000000)
  (st < 3 ∨ 6 < st → t = s) ∧
  (3 ≤ st → st ≤ 6 → max 1 (s.get R.CHL_TMO_RTLIM) < l.length → Downed s t p 5 true) ∧
  (3 ≤ st → st ≤ 6 → l.length ≤ max 1 (s.get R.CHL_TMO_RTLIM) → t.get R.CHLP_STAT_STATE p = 9 ∧
    t.get R.CHLP_RETRAIN_COUNT p = min (s.get R.CHLP_RETRAIN_COUNT p + 1) (2 ^ 32 - 1) ∧
    t.chlPort p = { s.chlPort p with was := st, retr := l, tried := [], full := false, since := s.tb } ∧
    (∀ j, j ≠ p → t.chlPort j = s.chlPort j) ∧ (s.tbRef = false → s.upPort = p → st = 5 ∨ st = 6 → t.get R.CRU_TB_STAT_STATE = 4 ∧ t.get R.CRU_TB_STAT_LOCK = 0) ∧
    SameRegs s t [R.CHLP_STAT_STATE.key p 0, R.CHLP_RETRAIN_COUNT.key p 0, R.CRU_TB_STAT_STATE.key 0 0, R.CRU_TB_STAT_LOCK.key 0 0,
      R.CRU_TB_STAT_EVT.key 0 0] ∧
    t = { s with regs := t.regs, chl := { s.chl with port := t.chl.port } })

/-- What the wire carries for messages of the replay buffer. -/
def onWire (p : Nat) (l : List ChlSent) : List Out :=
  l.map fun m => Out.chl p m.msg.op m.msg.src m.msg.dst m.msg.tag m.msg.st m.msg.arg (m.msg.raw ++ m.msg.data)

/-- A port sends again from a sequence number on (R437, R438); a fourth sending starts a retrain. -/
def Replays (s t : State) (p seq : Nat) : Prop :=
  let again := (s.chlPort p).replay.filter fun m => seqLe seq m.last
  ∃ u : State, u.out = s.out ++ onWire p again ∧ (∀ j, j ≠ p → u.chlPort j = s.chlPort j) ∧
    u.chlPort p = { s.chlPort p with
      replay := (s.chlPort p).replay.map fun m => if seqLe seq m.last then { m with sends := m.sends + 1 } else m } ∧
    u.get R.CHLP_REPLAY_COUNT p = min (s.get R.CHLP_REPLAY_COUNT p +
      (again.map fun m => if seqLe seq m.seq then m.flits else (m.last + 4096 - seq) % 4096 + 1).sum) (2 ^ 32 - 1) ∧
    SameRegs s u [R.CHLP_REPLAY_COUNT.key p 0] ∧ u = { s with regs := u.regs, chl := { s.chl with port := u.chl.port }, out := u.out } ∧
    ((∀ m ∈ again, m.sends < 3) → t = u) ∧ ((∃ m ∈ again, 3 ≤ m.sends) → Retrains u t p)

/-- Flits flow again after a retrain: the replay buffer goes out again from its start, then what was held (R427). -/
def Resumes (s t : State) (p : Nat) : Prop :=
  ∃ u : State, u.get R.CHLP_STAT_STATE p = (s.chlPort p).was % 16 ∧ u.out = s.out ++ onWire p (s.chlPort p).replay ∧
    u.get R.CHLP_REPLAY_COUNT p = min (s.get R.CHLP_REPLAY_COUNT p + ((s.chlPort p).replay.map ChlSent.flits).sum) (2 ^ 32 - 1) ∧
    u.chlPort p = { s.chlPort p with tried := [], full := false, naked := false, since := s.tb } ∧
    (∀ j, j ≠ p → u.chlPort j = s.chlPort j) ∧ SameRegs s u [R.CHLP_STAT_STATE.key p 0, R.CHLP_REPLAY_COUNT.key p 0] ∧
    u = { s with regs := u.regs, chl := { s.chl with port := u.chl.port }, out := u.out } ∧ t = u.chlPump p

/-- A message between two dies comes to this die's own part by a port (R445, R449): the link is ACTIVE, the die in S0, the message for this
die, its source routed by this port. -/
structure State.Accepts (s : State) (p : Nat) (src dst : Fin 8) : Prop where
  open_ : (s.chlPort p).flitup = false
  active : s.get R.CHLP_STAT_STATE p = 5
  awake : s.get R.PWR_STAT_STATE = 0
  here : dst.val = s.die
  source : s.flag R.CHL_ROLL_VALID = true → src.val ≠ s.die ∧ s.portTo src = p

/-- This die's message has left by a port, or waits there. -/
def Answered (s t : State) (p op dst tag st arg : Nat) (data : List Nat) : Prop :=
  Out.chl p op s.die dst tag st arg data ∈ t.out ∨
    ∃ m ∈ (t.chlPort p).q, m.op = op ∧ m.src = s.die ∧ m.dst = dst ∧ m.tag = tag ∧ m.st = st ∧ m.arg = arg ∧ m.data = data

/-! ## Register accesses -/

/-- Registers a write of which does more than store fields: commands, counts of two writers, controls that start a transition. -/
def actingOffs : List Nat := [0x204, 0x208, 0x20C, 0x1100, 0x100014, 0x200010, 0x200108, 0x200400, 0x200404, 0x300000, 0x300020, 0x380000, 0x380008,
  0x38000C, 0x380040, 0x38005C, 0x380080, 0x3800A0, 0x3800C0, 0x380400, 0x380404, 0x400020, 0x400028, 0x400030, 0x400038, 0x400060, 0x400100,
  0x400400, 0x400404, 0x400F00, 0x600000, 0x600050, 0x600084, 0x600108, 0x700010, 0x700018, 0x700028, 0x700058, 0x700068, 0x700070, 0x700074,
  0x800000, 0x800050, 0x800108, 0x900000, 0x901000, 0xA01000, 0xA01040, 0xA01078, 0xA01180, 0xB01000, 0xC00008, 0xD00000, 0xD0000C, 0xD00010,
  0xE00008, 0xE00010, 0xE00200, 0xF00000, 0xF00008, 0xF0000C, 0x1000108, 0x1000200]

/-- A field's value after a write of a word to its register, by its access code (R14), bit by bit. -/
def Field.Follows (f : Field) (old word new : Nat) : Prop :=
  ∀ j < f.w, new.testBit j = match f.acc with
    | .own | .rwl | .rw => word.testBit (f.lo + j)
    | .w1c => old.testBit j && !word.testBit (f.lo + j)
    | .w1s => old.testBit j || word.testBit (f.lo + j)
    | .ro | .wo => old.testBit j

/-- A word lands in a register instance: each field follows its access code, and nothing else changes. -/
def Written (s t : State) (r : Reg) (i k word : Nat) : Prop :=
  (∀ f ∈ r.fields, f.Follows (s.get f i k) word (t.get f i k)) ∧ SameRegs s t (r.fields.map fun f => f.key i k) ∧ t = { s with regs := t.regs }

/-- No lock stands against a word for a register instance (R14). -/
def State.Unlocked (s : State) (off : Nat) (r : Reg) (i k word : Nat) : Prop := s.lockHolds off = true → s.changesLocked r i k word = false

end Sys2Proof.Machine
end

