-- ==== Sys2Proof/Certificates/Slice0/Obligations.lean ====
section
/-!
DEFINITION. The statements for the provers.
-/

open Sys2Proof Sys2Proof.Machine

/-- A claim is decided by OWN_STAT.STATE (R471), a grant does what R473 says, and a forced claim is admitted from M2 only (R476). -/
def Obligations.ClaimIsDecidedByOwnershipState : Prop :=
  ∀ (s : State) (m : Master), m ≠ .warden → s.Admits m 0x204 →
    (s.get R.OWN_STAT_STATE = 0 → Completes (.ownClaim m 0xC1A1) s fun t =>
      Granted s t m.idx ∧ t = { s.begun m with regs := t.regs, raw := t.raw, own := t.own, chl := t.chl, out := t.out }) ∧
    (s.get R.OWN_STAT_STATE = 1 → Completes (.ownClaim m 0xC1A1) s fun t =>
      t = { s.begun m with own := { s.own with claims := m.idx :: s.own.claims } }) ∧
    (s.get R.OWN_STAT_STATE = 2 ∨ (s.get R.OWN_STAT_STATE = 3 ∧ s.get R.OWN_STAT_OFFERTO ≠ m.idx) →
      Completes (.ownClaim m 0xC1A1) s fun t => t = s.begun m) ∧
    (s.get R.OWN_STAT_STATE = 3 ∧ s.get R.OWN_STAT_OFFERTO = m.idx → Completes (.ownClaim m 0xC1A1) s fun t =>
      Granted s t m.idx ∧ SlotsRolled s t 4 ∧ t = { s.begun m with
        regs := t.regs, raw := t.raw, own := t.own, txn := t.txn, staged := t.staged, chl := t.chl, out := t.out }) ∧
    (∀ key : BitVec 16, key ≠ 0xC1A1 →
      Completes (.ownClaim m key) s (fun t => t = (s.begun m).errComp m .badkey 0x204) ∧
      Completes (.ownForcedClaim m key) s (fun t => t = (s.begun m).errComp m .badkey 0x204)) ∧
    (m = .m2 ∧ s.get R.BOOT_PROF_DBG = 0 → Completes (.ownForcedClaim m 0xC1A1) s fun t =>
      Granted s t 2 ∧ t.get R.OWN_EVT_FORCED = 1 ∧ (2 ≤ s.get R.OWN_STAT_STATE → SlotsRolled s t 4) ∧ t = { s.begun m with
        regs := t.regs, raw := t.raw, own := t.own, txn := t.txn, staged := t.staged, chl := t.chl, out := t.out }) ∧
    (¬ (m = .m2 ∧ s.get R.BOOT_PROF_DBG = 0) →
      exec (.ownForcedClaim m 0xC1A1) s = exec (.ownClaim m 0xC1A1) s)

/-- The lease (R474, R478), release and offer (R476), and the election window (R472). -/
def Obligations.LeaseReleaseOfferAndElection : Prop :=
  (∀ (s : State) (m : Master) (dies : List Nat), s.Serves m 0x208 →
    Completes (.ownHb m true dies) s (fun t => t.own = { s.own with leaseEnd := s.tb + 100 * 100000 } ∧
      t = { s.begun m with own := t.own, chl := t.chl, out := t.out } ∧
      ((s.isDie0 && s.flag R.OWN_CFG_CHAINHB) = false → t = { s.begun m with own := t.own })) ∧
    Completes (.ownHb m false dies) s (fun t => t = s.begun m)) ∧
  (∀ s : State, 2 ≤ s.get R.OWN_STAT_STATE → s.get R.PWR_STAT_STATE < 2 → Completes .leaseExpiry s fun t =>
    t.get R.OWN_STAT_STATE = 1 ∧ t.get R.OWN_EVT_EXPIRED = 1 ∧ t.own.electEnd = s.tb + 100000 ∧ t.own.claims = [] ∧
    SlotsRolled s t 4 ∧
    Recorded s t (fun r => r.cls = 9 ∧ r.cause = 1 ∧ r.src = s.get R.OWN_STAT_OWNER) ∧
    t = { s with
      regs := t.regs, raw := t.raw, own := t.own, txn := t.txn, staged := t.staged, flt := t.flt, tel := t.tel, chl := t.chl,
      out := t.out }) ∧
  (∀ (s : State) (m : Master), s.Serves m 0x20C →
    Completes (.ownRelease m 0x5245) s (fun t =>
      t.get R.OWN_STAT_STATE = 1 ∧ t.get R.OWN_EVT_RELEASED = 1 ∧ t.own.electEnd = s.tb + 100000 ∧ t.own.claims = [] ∧
      SlotsRolled s t 4 ∧ t = { s.begun m with
        regs := t.regs, raw := t.raw, own := t.own, txn := t.txn, staged := t.staged, chl := t.chl, out := t.out }) ∧
    (∀ to_ : BitVec 2, Completes (.ownOffer m 0x5245 to_) s fun t =>
      t.get R.OWN_STAT_STATE = 3 ∧ t.get R.OWN_STAT_OFFERTO = to_.toNat ∧ t.own = { s.own with offerEnd := s.tb + 100 * 100000 } ∧
      SameRegs s t [R.OWN_STAT_STATE.key 0 0, R.OWN_STAT_OFFERTO.key 0 0] ∧
      t = { s.begun m with regs := t.regs, own := t.own }) ∧
    (∀ (key : BitVec 16) (to_ : BitVec 2), key ≠ 0x5245 →
      Completes (.ownRelease m key) s (fun t => t = (s.begun m).errComp m .badkey 0x20C) ∧
      Completes (.ownOffer m key to_) s (fun t => t = (s.begun m).errComp m .badkey 0x20C))) ∧
  (∀ s : State, s.get R.OWN_STAT_STATE = 3 → Completes .offerLapse s fun t =>
    t.get R.OWN_STAT_STATE = 2 ∧ t.get R.OWN_EVT_LAPSED = 1 ∧
    t = { s with regs := t.regs, raw := t.raw, chl := t.chl, out := t.out }) ∧
  (∀ s : State, s.get R.OWN_STAT_STATE = 1 →
    (s.own.claims = [] → Completes .electionWindowEnd s fun t =>
      t.get R.OWN_STAT_STATE = 0 ∧ SameRegs s t [R.OWN_STAT_STATE.key 0 0] ∧ t = { s with regs := t.regs }) ∧
    (∀ n ∈ s.own.claims, (∀ k ∈ s.own.claims, n ≤ k) → Completes .electionWindowEnd s fun t =>
      Granted s t n ∧ t = { s with regs := t.regs, raw := t.raw, own := t.own, chl := t.chl, out := t.out }))

/-- The life of a transaction slot (R481 to R486). -/
def Obligations.TransactionSlotsOpenCommitEnd : Prop :=
  (∀ (s : State) (m : Master) (mask : BitVec 17), s.Serves m 0xF00000 →
    let blocked := (∃ n < 4, s.get R.TXN_S_STAT_STATE n ≠ 0 ∧ s.get R.TXN_S_BLK_MASK n &&& mask.toNat ≠ 0) ∨
      (mask.getLsbD 10 = true ∧ (s.get R.DCO_C_STAT_PEND ≠ 0 ∨ s.get R.DCO_C_STAT_PEND 1 ≠ 0))
    let legal := mask.toNat ||| txnMaskOk = txnMaskOk
    (mask = 0 → Completes (.txnBegin m mask) s fun t => t = s.begun m) ∧
    (mask ≠ 0 → ¬ legal → Completes (.txnBegin m mask) s fun t => t = (s.begun m).set R.TXN_STAT_RESULT 3) ∧
    (mask ≠ 0 → legal → blocked → Completes (.txnBegin m mask) s fun t => t = (s.begun m).set R.TXN_STAT_RESULT 1) ∧
    (mask ≠ 0 → legal → ¬ blocked → (∀ n < 4, s.get R.TXN_S_STAT_STATE n ≠ 0) →
      Completes (.txnBegin m mask) s fun t => t = (s.begun m).set R.TXN_STAT_RESULT 2) ∧
    (∀ n < 4, mask ≠ 0 → legal → ¬ blocked → s.get R.TXN_S_STAT_STATE n = 0 → (∀ k < n, s.get R.TXN_S_STAT_STATE k ≠ 0) →
      Completes (.txnBegin m mask) s fun t =>
        t.get R.TXN_S_STAT_STATE n = 1 ∧ t.get R.TXN_S_BLK_MASK n = mask.toNat ∧ t.get R.TXN_S_STAT_COUNT n = 0 ∧
        t.get R.TXN_STAT_RESULT = 0 ∧ t.get R.TXN_STAT_SLOT = n ∧
        (Cells.get {} t.txn n).deadline = s.tb + max 1 (s.get R.TXN_CFG_TMO) * 100000 ∧
        SameRegs s t [R.TXN_S_STAT_STATE.key n 0, R.TXN_S_BLK_MASK.key n 0, R.TXN_S_STAT_COUNT.key n 0,
          R.TXN_STAT_RESULT.key 0 0, R.TXN_STAT_SLOT.key 0 0] ∧
        t = { s.begun m with regs := t.regs, txn := t.txn })) ∧
  (∀ (s : State) (m : Master) (n : Fin 4) (bound : BitVec 3) (ch : BitVec 2), s.Serves m 0xF00008 →
    (s.get R.TXN_S_STAT_STATE n = 1 → bound.toNat < 5 → Completes (.txnCommit m n bound ch) s fun t =>
      t.get R.TXN_S_STAT_STATE n = 2 ∧ t.get R.TXN_STAT_RESULT = 0 ∧
      Cells.get {} t.txn n = { Cells.get {} s.txn n with bound := bound.toNat, ch := ch.toNat, at_ := s.get R.TXN_AT_TBASE } ∧
      SameRegs s t [R.TXN_S_STAT_STATE.key n 0, R.TXN_STAT_RESULT.key 0 0] ∧
      t = { s.begun m with regs := t.regs, txn := t.txn }) ∧
    (s.get R.TXN_S_STAT_STATE n = 1 → 5 ≤ bound.toNat → Completes (.txnCommit m n bound ch) s fun t =>
      t = (s.begun m).set R.TXN_STAT_RESULT 5) ∧
    (s.get R.TXN_S_STAT_STATE n = 0 ∨ s.get R.TXN_S_STAT_STATE n = 2 → Completes (.txnCommit m n bound ch) s fun t =>
      t = (s.begun m).set R.TXN_STAT_RESULT 4) ∧
    (s.get R.TXN_S_STAT_STATE n = 3 → Completes (.txnCommit m n bound ch) s fun t =>
      SlotEnded s t n 6 ∧ t.get R.TXN_STAT_RESULT = 0)) ∧
  (∀ (s : State) (m : Master) (n : Fin 4), s.Serves m 0xF0000C →
    (s.get R.TXN_S_STAT_STATE n = 0 → Completes (.txnAbort m n) s fun t => t = (s.begun m).set R.TXN_STAT_RESULT 4) ∧
    (s.get R.TXN_S_STAT_STATE n ≠ 0 → Completes (.txnAbort m n) s fun t =>
      SlotEnded s t n (if s.get R.TXN_S_STAT_STATE n = 3 then 6 else 2) ∧ t.get R.TXN_STAT_RESULT = 0 ∧
      t = { s.begun m with
        regs := t.regs, raw := t.raw, txn := t.txn, staged := t.staged, chl := t.chl, out := t.out })) ∧
  (∀ (s : State) (n : Fin 4), s.get R.TXN_S_STAT_STATE n ≠ 0 → Completes (.txnTimeout n) s fun t =>
    SlotEnded s t n 3 ∧ t = { s with
      regs := t.regs, raw := t.raw, txn := t.txn, staged := t.staged, flt := t.flt, tel := t.tel, chl := t.chl, out := t.out })

/-- The fault ring (R646 to R649). -/
def Obligations.FaultRingTakesStagedRecords : Prop :=
  (∀ (s : State) (ack : Bool), s.flag R.FQ_CFG_EN = true → s.NoPoison →
    (∀ (r : FaultRec) (rs : List FaultRec), s.fqUsed < s.fqSize → s.locStatus s.fqSlot = .ok → ack = true → s.flt.sum = none →
      s.flt.staged = r :: rs → Completes (.faultRecordWrite ack) s fun t =>
        t.flt = { s.flt with staged := rs } ∧ t.get R.FQ_PROD_PROD = (s.get R.FQ_PROD_PROD + 1) % 2 ^ 32 ∧
        (∀ a, s.fqSlot = .loc a → bytesAt 0 t.mem a 32 = r.bytes)) ∧
    (∀ m : FltSum, s.fqUsed < s.fqSize → s.locStatus s.fqSlot = .ok → ack = true → s.flt.sum = some m →
      Completes (.faultRecordWrite ack) s fun t =>
        t.flt = { s.flt with sum := none } ∧ t.get R.FQ_PROD_PROD = (s.get R.FQ_PROD_PROD + 1) % 2 ^ 32 ∧
        t.get R.FQ_STAT_SUMPEND = 0 ∧ t.get R.FQ_STAT_NEXTSEQ = (s.get R.FQ_STAT_NEXTSEQ + 1) % 2 ^ 16 ∧
        (∀ a, s.fqSlot = .loc a → bytesAt 0 t.mem a 32 = (s.fqSummary m).bytes)) ∧
    (∀ (r : FaultRec) (rs : List FaultRec), s.fqSize ≤ s.fqUsed → s.flt.staged = r :: rs →
      Completes (.faultRecordWrite ack) s fun t =>
        t.flt.staged = rs ∧ t.get R.FQ_DROP_COUNT r.cls = min (s.get R.FQ_DROP_COUNT r.cls + 1) (2 ^ 32 - 1) ∧
        t.get R.FQ_STAT_OVERFLOW = 1 ∧ t.get R.FQ_STAT_SUMPEND = 1 ∧ t.flt.sum.isSome = true ∧ t.mem = s.mem) ∧
    (s.fqUsed < s.fqSize → s.locStatus s.fqSlot ≠ .ok ∨ ack = false → Completes (.faultRecordWrite ack) s fun t => t = s)) ∧
  (∀ s ack, s.flag R.FQ_CFG_EN = false → Completes (.faultRecordWrite ack) s fun t => t = s) ∧
  (∀ (s : State) (m : Master) (v : Word) (ack : Bool), s.Serves m 0xE00010 →
    let used := (s.get R.FQ_PROD_PROD + 2 ^ 32 - v.toNat) % 2 ^ 32
    (s.fqSize < used → s.flt.sum = none → Completes (.fqConsWrite m v ack) s fun t => t = (s.begun m).errMark m) ∧
    (used ≤ s.fqSize → s.flt.sum = none ∨ used = s.fqSize → Completes (.fqConsWrite m v ack) s fun t =>
      t.get R.FQ_CONS_CONS = v.toNat ∧ SameRegs s t [R.FQ_CONS_CONS.key 0 0] ∧ t = { s.begun m with regs := t.regs }) ∧
    (∀ x : FltSum, used < s.fqSize → s.flt.sum = some x → s.flag R.FQ_CFG_EN = true → s.NoPoison →
      s.locStatus s.fqSlot = .ok → ack = true → Completes (.fqConsWrite m v ack) s fun t =>
        t.get R.FQ_CONS_CONS = v.toNat ∧ t.flt.sum = none ∧ t.get R.FQ_STAT_SUMPEND = 0 ∧ t.get R.FQ_PROD_PROD = (s.get R.FQ_PROD_PROD + 1) % 2 ^ 32)) ∧
  (∀ (s : State) (m : Master) (ien : Bool) (sz : BitVec 5), s.Serves m 0xE00008 →
    (s.flag R.FQ_CFG_EN = false → Completes (.fqEnable m ien sz) s fun t =>
      t.get R.FQ_CFG_EN = 1 ∧ t.get R.FQ_CFG_IEN = b2n ien ∧ t.get R.FQ_CFG_LOG2SZ = sz.toNat ∧
      t.get R.FQ_PROD_PROD = 0 ∧ t.get R.FQ_CONS_CONS = 0 ∧
      SameRegs s t [R.FQ_CFG_EN.key 0 0, R.FQ_CFG_IEN.key 0 0, R.FQ_CFG_LOG2SZ.key 0 0, R.FQ_PROD_PROD.key 0 0,
        R.FQ_CONS_CONS.key 0 0] ∧ t = { s.begun m with regs := t.regs }) ∧
    (s.flag R.FQ_CFG_EN = true → s.get R.FQ_CFG_LOG2SZ ≠ sz.toNat → Completes (.fqEnable m ien sz) s fun t =>
      t = (s.begun m).errComp m .locked 0xE00008))

/-- Telemetry (R651) and the watchdog up to its second stage (R636 to R640). -/
def Obligations.TelemetryAndWatchdog : Prop :=
  (∀ (s : State) (m : Master), s.Serves m 0xE00200 →
    Completes (.telSnap m) s (fun t =>
      (∀ i < 8, t.get R.TEL_CNT_COUNT i = Cells.get 0 s.tel.cnt i % 2 ^ 64) ∧
      (∀ i < 2, t.get R.TEL_CNT32_COUNT i = min (Cells.get 0 s.tel.cnt (8 + i)) (2 ^ 32 - 1)) ∧
      SameRegs s t ((List.range 8).map (R.TEL_CNT_COUNT.key · 0) ++ (List.range 2).map (R.TEL_CNT32_COUNT.key · 0)) ∧
      t = { s.begun m with regs := t.regs }) ∧
    Completes (.telClr m) s (fun t => (∀ i, Cells.get 0 t.tel.cnt i = 0) ∧ t = { s.begun m with tel := t.tel })) ∧
  (∀ (s : State) (m : Master), s.Serves m 0xD0000C →
    (s.flag R.WDT_CTL_KICKER = (m != .warden) → Completes (.wdtKick m 0x4B49) s fun t =>
      t.get R.WDT_STAT_STAGE = 1 ∧ t.get R.WDT_STAT_RUN = 1 ∧
      t.wdt = { units := max 1 (s.get R.WDT_S1TMO_N), lastKick := s.tb, cyc := 0 } ∧
      (s.get R.WDT_STAT_STAGE = 2 → t.get R.WDT_STAT_RECOV = 1) ∧
      (s.get R.WDT_STAT_STAGE ≠ 2 → t.get R.WDT_STAT_RECOV = s.get R.WDT_STAT_RECOV) ∧
      SameRegs s t [R.WDT_STAT_STAGE.key 0 0, R.WDT_STAT_RUN.key 0 0, R.WDT_STAT_RECOV.key 0 0] ∧
      t = { s.begun m with regs := t.regs, wdt := t.wdt }) ∧
    (s.flag R.WDT_CTL_KICKER ≠ (m != .warden) → Completes (.wdtKick m 0x4B49) s fun t => t = s.begun m) ∧
    (∀ key : BitVec 16, key ≠ 0x4B49 → Completes (.wdtKick m key) s fun t => t = (s.begun m).errComp m .badkey 0xD0000C)) ∧
  (∀ (s : State) (m : Master), s.Serves m 0xD00010 →
    (s.flag R.WDT_CTL_LOCK = false ∧ s.flag R.WDT_STAT_HW = false → Completes (.wdtStop m 0x5354) s fun t =>
      t.get R.WDT_STAT_RUN = 0 ∧ t.get R.WDT_STAT_STAGE = 0 ∧ t.wdt = { s.wdt with units := 0, cyc := 0 } ∧
      SameRegs s t [R.WDT_STAT_STAGE.key 0 0, R.WDT_STAT_RUN.key 0 0] ∧ t = { s.begun m with regs := t.regs, wdt := t.wdt }) ∧
    (s.flag R.WDT_CTL_LOCK = true ∨ s.flag R.WDT_STAT_HW = true → Completes (.wdtStop m 0x5354) s fun t =>
      t = (s.begun m).errComp m .locked 0xD00010) ∧
    (∀ key : BitVec 16, key ≠ 0x5354 → Completes (.wdtStop m key) s fun t => t = (s.begun m).errComp m .badkey 0xD00010)) ∧
  (∀ s : State, s.get R.WDT_STAT_STAGE = 1 → Completes .wdtStage1Expiry s fun t =>
    t.get R.WDT_STAT_STAGE = 2 ∧ t.get R.WDT_STAT_RUN = 1 ∧ t.get R.WDT_STAT_S1EVT = 1 ∧
    t.wdt = { s.wdt with units := max 1 (s.get R.WDT_S2TMO_N), cyc := 0 } ∧
    Recorded s t (fun r => r.cls = 11 ∧ r.cause = 1 ∧ r.src = s.get R.WDT_CTL_KICKER) ∧ Out.irqWarden 1 ∈ t.out ∧
    t = { s with regs := t.regs, raw := t.raw, wdt := t.wdt, flt := t.flt, tel := t.tel, chl := t.chl, out := t.out })

/-- Engine clock steps (R499, R500) and the FCLK divisor (R501). -/
def Obligations.EclkMovesToEffectiveStep : Prop :=
  (∀ (s : State) (m : Master) (step : BitVec 3), s.Serves m 0x200010 →
    let eff := max (max step.toNat (s.get R.BOOT_PROF_STEPLIM)) (max (s.get R.PWR_LIMIT_CAPSTEP) (s.get R.PWR_LIMIT_THSTEP))
    Completes (.eclkRequest m step) s fun t =>
      t.get R.CRU_ECLK_REQ_STEP = step.toNat ∧ t.get R.CRU_ECLK_STAT_TARGET = eff % 8 ∧
      (eff ≠ step.toNat → t.get R.CRU_ECLK_STAT_CLAMPED = 1) ∧
      (s.cru.move = none → eff < s.get R.CRU_ECLK_STAT_CUR →
        t.cru.move = some ⟨eff, true⟩ ∧ t.get R.CRU_ECLK_STAT_BUSY = 1 ∧ t.get R.CRU_ECLK_STAT_CUR = s.get R.CRU_ECLK_STAT_CUR) ∧
      (s.cru.move = none → s.get R.CRU_ECLK_STAT_CUR < eff → t.cru = s.cru ∧ t.get R.CRU_ECLK_STAT_CUR = eff % 8) ∧
      (s.cru.move.isSome ∨ eff = s.get R.CRU_ECLK_STAT_CUR → t.cru = s.cru ∧ t.get R.CRU_ECLK_STAT_CUR = s.get R.CRU_ECLK_STAT_CUR) ∧
      SameRegs s t [R.CRU_ECLK_REQ_STEP.key 0 0, R.CRU_ECLK_STAT_TARGET.key 0 0, R.CRU_ECLK_STAT_LIMIT.key 0 0,
        R.CRU_ECLK_STAT_CLAMPED.key 0 0, R.CRU_ECLK_STAT_BUSY.key 0 0, R.CRU_ECLK_STAT_CUR.key 0 0] ∧
      t = { s.begun m with regs := t.regs, cru := t.cru, out := t.out }) ∧
  (∀ (s : State) (mv : EclkMove) (pg : Bool), s.cru.move = some mv →
    (s.flag R.PWR_VCFG_PGEN = true ∧ pg = false → Completes (.eclkRailSettled pg) s fun t =>
      t = { s with pwr := { s.pwr with pgEmb := false } }) ∧
    (s.flag R.PWR_VCFG_PGEN = false ∨ pg = true → s.eclkEff = mv.target % 8 → Completes (.eclkRailSettled pg) s fun t =>
      t.cru.move = none ∧ t.get R.CRU_ECLK_STAT_BUSY = 0 ∧ t.get R.CRU_ECLK_STAT_CUR = mv.target % 8 ∧ t.pwr.pgEmb = pg ∧
      t = { s with regs := t.regs, cru := t.cru, pwr := t.pwr })) ∧
  (∀ (s : State) (mv : EclkMove), s.cru.move = some mv → Completes .eclkVddTimeout s fun t =>
    t.cru.move = none ∧ t.get R.CRU_ECLK_STAT_BUSY = 0 ∧ t.get R.CRU_ECLK_STAT_CUR = s.get R.CRU_ECLK_STAT_CUR ∧
    Recorded s t (fun r => r.cls = 8 ∧ r.cause = 4 ∧ r.d0 = mv.target)) ∧
  (∀ s : State, Completes .fclkSwitch s fun t => t = { s with cru := { s.cru with fclkLow := s.flag R.CRU_FCLK_LOW } })

/-- The time base (R497, R505 to R511). -/
def Obligations.TimeBaseIsSetCapturedAndCarried : Prop :=
  (∀ (s : State) (rtc : BitVec 48), s.flag R.CRU_RPLL_STAT_LOCK = true → Completes (.rpllUnlock rtc) s fun t =>
    t.get R.CRU_RPLL_STAT_LOCK = 0 ∧ t.get R.CRU_RPLL_STAT_UNLOCKS = min (s.get R.CRU_RPLL_STAT_UNLOCKS + 1) 65535 ∧
    t.cru.latTb = s.tb ∧ t.cru.latRtc = rtc.toNat ∧ t.cru.unlockTb = s.tb ∧
    SameRegs s t [R.CRU_RPLL_STAT_LOCK.key 0 0, R.CRU_RPLL_STAT_UNLOCKS.key 0 0] ∧ t = { s with regs := t.regs, cru := t.cru }) ∧
  (∀ (s : State) (rtc : BitVec 48), s.flag R.CRU_RPLL_STAT_LOCK = false → s.domOn 0 = true → Completes (.rpllRelock rtc) s fun t =>
    t.get R.CRU_RPLL_STAT_LOCK = 1 ∧ t.tb = (s.cru.latTb + (rtc.toNat - s.cru.latRtc) * 390625 / 128) % 2 ^ 64 ∧
    t.get R.FUM_RTC_RTC = rtc.toNat ∧ (s.tbRef = false → t.get R.CRU_TB_STAT_STATE = 1 ∧ t.get R.CRU_TB_STAT_LOCK = 0) ∧
    Recorded s t (fun r => r.cls = 8 ∧ r.cause = 3)) ∧
  (∀ (s : State) (m : Master) (v : DWord), s.Serves m 0x20010C →
    (s.tbRef = true → s.tb ≤ v.toNat → Completes (.tbSet m v) s fun t =>
      t.tb = v.toNat ∧ SameRegs s t [R.CRU_TB_NOW_TBASE.key 0 0] ∧ t = { s.begun m with regs := t.regs }) ∧
    (s.tbRef = true → v.toNat < s.tb → Completes (.tbSet m v) s fun t => t = (s.begun m).errComp m .locked 0x200108) ∧
    (s.tbRef = false → Completes (.tbSet m v) s fun t => t = s.begun m)) ∧
  (∀ (s : State) (k : Fin 2) (falling : Bool), bitB (s.get R.CRU_TB_CAPCTL_EN) k = true → s.tbCapPlaced k = true →
    bitB (s.get R.CRU_TB_CAPCTL_EDGE) k = falling → Completes (.tbCapture k falling) s fun t =>
      t.get R.CRU_TB_CAP_TBASE k = s.tb ∧ bitB (t.get R.CRU_TB_CAPCTL_NEW) k = true ∧
      (bitB (s.get R.CRU_TB_CAPCTL_NEW) k = true → bitB (t.get R.CRU_TB_CAPCTL_OVR) k = true) ∧
      SameRegs s t [R.CRU_TB_CAP_TBASE.key k 0, R.CRU_TB_CAPCTL_NEW.key 0 0, R.CRU_TB_CAPCTL_OVR.key 0 0] ∧
      t = { s with regs := t.regs }) ∧
  (∀ (s : State) (t1 : BitVec 80), s.tbRef = false →
    (s.upPort < 2 → Completes (.tsyncInterval t1) s fun t =>
      t.cru.exSeq = (s.cru.exSeq + 1) % 256 ∧ t.cru.exT1 = some t1.toNat ∧ t.cru.exRsp = none ∧ t.cru.missed = s.cru.missed + 1 ∧
      (4 < s.cru.missed + 1 → t.get R.CRU_TB_STAT_STATE = 4 ∧ t.get R.CRU_TB_STAT_LOCK = 0) ∧
      t = { s with regs := t.regs, cru := t.cru, chl := t.chl, out := t.out }) ∧
    (2 ≤ s.upPort → Completes (.tsyncInterval t1) s fun t =>
      t.get R.CRU_TB_STAT_STATE = 4 ∧ t.get R.CRU_TB_STAT_LOCK = 0 ∧ t = { s with regs := t.regs, cru := t.cru })) ∧
  (∀ (s : State) (p : Fin 2) (q : BitVec 8) (t2 t3 : BitVec 80), Completes (.tsyncReq p q t2 t3) s fun t =>
    t = (s.mgmtLocal p 0x08 ([1, q.toNat, b2n s.tbLocked] ++ toBytes 5 0 ++ toBytes 10 t2.toNat)).mgmtLocal p 0x08
      ([2, q.toNat] ++ toBytes 6 0 ++ toBytes 10 t3.toNat)) ∧
  (∀ (s : State) (q : BitVec 8) (lk : Bool) (t2 t4 : BitVec 80), s.cru.exT1.isSome = true → s.cru.exSeq = q.toNat →
    Completes (.tsyncRsp q lk t2 t4) s fun t => t = { s with cru := { s.cru with exRsp := some (t2.toNat, t4.toNat, lk) } }) ∧
  (∀ (s : State) (q : BitVec 8) (t3 : BitVec 80) (t1 t2 t4 : Nat) (lk : Bool), s.tbRef = false → s.cru.exT1 = some t1 →
    s.cru.exRsp = some (t2, t4, lk) → s.cru.exSeq = q.toNat →
    let off := tsyncOffset t1 t2 t3.toNat t4 (sgn 16 (s.get R.CRU_TB_ASYM_PS s.upPort))
    let thr : Int := max 1 (s.get R.CRU_TB_CFG_STEPTHR) * 10000
    Completes (.tsyncFollow q t3) s fun t => t.cru.exT1 = none ∧ t.cru.exRsp = none ∧ t.cru.missed = 0 ∧
      (thr < off → t.tb = (s.tb + (off / 10000).toNat) % 2 ^ 64) ∧
      (off < -thr → t.tb = s.tb ∧ t.cru.holdTo = some ((-off) / 10000).toNat) ∧
      (-thr ≤ off ∧ off ≤ thr → t.tb = s.tb ∧ -500000 ≤ sgn 32 (t.get R.CRU_TB_RATE_PPB) ∧ sgn 32 (t.get R.CRU_TB_RATE_PPB) ≤ 500000) ∧
      (2000 < off ∨ off < -2000 ∨ lk = false → t.get R.CRU_TB_STAT_STATE = 2 ∧ t.get R.CRU_TB_STAT_LOCK = 0) ∧
      (-1000 ≤ off ∧ off ≤ 1000 ∧ lk = true ∧ 7 ≤ s.cru.good ∧ s.get R.CRU_TB_STAT_STATE ∈ [2, 3] → t.get R.CRU_TB_STAT_STATE = 3 ∧ t.get R.CRU_TB_STAT_LOCK = 1) ∧
      t = { s with regs := t.regs, cru := t.cru, fresh := t.fresh })

/-- Requests, fills and the clean-up events of the Sinter (R182 to R197). -/
def Obligations.SinterServesNewestBytes : Prop :=
  (∀ (s : State) (cl : SinClient) (addr : DWord) (n : BitVec 8) (hint : BitVec 2) (data : List Byte) (sec : BitVec 2)
      (st : BitVec 8) (a : Nat), s.domOn 0 = true → s.locStatus (.loc a) = .ok → s.NoPoison → s.dpaLoc addr.toNat = .loc a →
    Completes (.sinterAccess cl .read addr false n hint data .none_ sec st) s (fun t =>
      t.out = s.out ++ [.reply true (ofBytes (bytesAt 0 s.mem a (min n.toNat (128 - addr.toNat % 128))))] ∧
      t = { s with regs := t.regs, sin := t.sin, fresh := t.fresh, out := t.out }) ∧
    (data.length ≤ 128 - addr.toNat % 128 → Completes (.sinterAccess cl .write addr false n hint data .none_ sec st) s fun t =>
      (∀ x, byteAt 0 t.mem x = if a ≤ x ∧ x < a + data.length then (data.getD (x - a) 0).toNat else byteAt 0 s.mem x) ∧
      t = { s with regs := t.regs, sin := t.sin, fresh := t.fresh, mem := t.mem })) ∧
  (∀ (s : State) (line : DWord) (data : List Byte) (f : SinFill),
    (s.sin.fills.find? fun f => f.line == lineOf line.toNat && f.host == false) = some f →
    (f.keep = true → f.remote = false → s.sinByp (lineOf line.toNat) = false → s.polOf (lineOf line.toNat) < 2 →
      (∃ w < 16, bitB (s.get R.SIN_WAYDIS_DIS (sinSlice (lineOf line.toNat))) w = false) →
      Completes (.sinterFill line false data) s fun t =>
        (t.sinFind (lineOf line.toNat) false).isSome = true ∧ t.sin.fills = s.sin.fills.erase f ∧
        t = { s with regs := t.regs, sin := t.sin }) ∧
    (f.keep = false → Completes (.sinterFill line false data) s fun t =>
      t = { s with sin := { s.sin with fills := s.sin.fills.erase f } })) ∧
  (∀ (s : State) (line : DWord), (∃ b ∈ s.sin.wc, b.line = lineOf line.toNat) → Completes (.wcBufferIdleFlush line) s fun t =>
    t.sin = { s.sin with wc := s.sin.wc.filter fun b => b.line != lineOf line.toNat } ∧ t = { s with regs := t.regs, sin := t.sin }) ∧
  (∀ (s : State) (k : Fin 16), Completes (.streamTrackerTimeout k) s fun t =>
    t.sin = { s.sin with trk := s.sin.trk.eraseIdx k } ∧
    t.get R.SIN_STAT_STREAMS = ((s.sin.trk.eraseIdx k).filter (·.stream)).length % 2 ^ 5 ∧
    SameRegs s t [R.SIN_STAT_STREAMS.key 0 0] ∧ t = { s with regs := t.regs, sin := t.sin }) ∧
  (∀ (s : State) (sl way : Fin 16), 2 ^ 20 ≤ (Cells.get (0, 0) s.sin.win (sl.val * 16 + way)).1 →
    Completes (.wayWindowRestart sl way) s fun t =>
      Cells.get (0, 0) t.sin.win (sl.val * 16 + way) = (0, 0) ∧ t = { s with sin := { s.sin with win := t.sin.win } })

/-- Maintenance (R192, R193) and policy transitions (R184). -/
def Obligations.SinterMaintenanceAndPolicy : Prop :=
  (∀ (s : State) (m : Master) (sc : BitVec 2) (irq : Bool), s.Serves m 0x800050 →
    (s.get R.SIN_MAINT_STAT_BUSY = 0 ∧ s.get R.SIN_STAT_RGN_BUSY = 0 →
      Completes (.sinMaintClean m sc irq []) s (fun t => t.get R.SIN_MAINT_STAT_BUSY = 1 ∧ t.mem = s.mem ∧
        t.sin.lines.map (·.1) = s.sin.lines.map (·.1) ∧ ∀ e ∈ t.sin.lines, s.maintIn sc.toNat e.2 = true → e.2.under = none) ∧
      Completes (.sinMaintCleanInvalidate m sc irq []) s (fun t => t.get R.SIN_MAINT_STAT_BUSY = 1 ∧ t.mem = s.mem ∧
        t.sin.lines = s.sin.lines.filter fun e => !s.maintIn sc.toNat e.2) ∧
      (sc = 0 → Completes (.sinMaintDiscard m sc irq) s fun t => t.get R.SIN_MAINT_STAT_BUSY = 1 ∧
        t.sin.lines = s.sin.lines.filter fun e => !s.maintIn 0 e.2)) ∧
    ((s.get R.SIN_MAINT_STAT_BUSY ≠ 0 ∨ s.get R.SIN_STAT_RGN_BUSY ≠ 0) ∨ sc ≠ 0 → Completes (.sinMaintDiscard m sc irq) s fun t =>
      t.get R.SIN_MAINT_STAT_REJ = 1 ∧ t.sin = s.sin ∧ t = { s.begun m with regs := t.regs })) ∧
  (∀ (s : State) (n : Nat) (err irq : Bool), s.sin.maint = some (n, err, irq) → Completes .sinMaintDone s fun t =>
    t.sin = { s.sin with maint := none } ∧ t.get R.SIN_MAINT_STAT_BUSY = 0 ∧ t.get R.SIN_MAINT_STAT_DONE = 1 ∧
    t.get R.SIN_MAINT_STAT_WBCNT = n % 2 ^ R.SIN_MAINT_STAT_WBCNT.w ∧ (err = true → t.get R.SIN_MAINT_STAT_ERR = 1) ∧
    t = { s with regs := t.regs, raw := t.raw, sin := t.sin, chl := t.chl, out := t.out }) ∧
  (∀ (s : State) (m : Master) (n : Fin 17) (val : Word), n.val < 16 → s.Serves m (0x800108 + 16 * n) →
    (s.sinBusy = true → Completes (.sinPolicyWrite m n val) s fun t => t = (s.begun m).errMark m) ∧
    (s.sinBusy = false → Completes (.sinPolicyWrite m n val) s fun t =>
      let new := (s.begun m).putReg R.SIN_RGN_ATTR n 0 val.toNat
      ((∀ g < 2 ^ 25, s.sinPol.at_ g = new.sinPol.at_ g) → t = new) ∧
      ((∃ g < 2 ^ 25, s.sinPol.at_ g ≠ new.sinPol.at_ g) →
        t = { new.set R.SIN_STAT_RGN_BUSY 1 with sin := { s.sin with trans := some s.sinPol } }))) ∧
  (∀ (s : State) (m : Master) (val : Word), s.Serves m 0x800000 → s.sinBusy = false →
    Completes (.sinPolicyWrite m 16 val) s fun t => t.get R.SIN_CTL_DEFPOL = bitsOf val.toNat 16 2 ∧
      t.mem = s.mem ∧ t.sin.lines = s.sin.lines) ∧
  (∀ (s : State) (p : SinPol), s.sin.trans = some p → Completes .sinTransitionDone s fun t =>
    t.sin.trans = none ∧ t.get R.SIN_STAT_RGN_BUSY = 0 ∧ t.mem = s.mem ∧
    ∀ e ∈ t.sin.lines, e.2.host = false → e.2.remote = false →
      p.at_ (e.2.line % 2 ^ 41 / 2 ^ 16) ≠ s.polOf e.2.line → s.polOf e.2.line < 2 ∧ (s.polOf e.2.line = 1 → e.2.under = none))

/-- Signals (R257): what they do to an object, and the commands that perform them at its home die. -/
def Obligations.SignalActsOnSyncObject : Prop :=
  (∀ (o : SyncObj) (n c : Nat), c < 2 ^ 16 →
    (o.signal n c).value = max o.value n ∧
    (isErr c = true → isErr o.err = true → (o.signal n c).errcnt = min 0xFFFF (o.errcnt + 1) ∧
      (o.signal n c).err = o.err ∧ (o.signal n c).epoint = o.epoint) ∧
    (isErr c = true → isErr o.err = false → (o.signal n c).err = c ∧ (o.signal n c).epoint = n ∧ (o.signal n c).errcnt = o.errcnt) ∧
    (isErr c = false → o.value < n → (o.signal n c).err = (if isErr o.err then o.err else c) ∧
      (o.signal n c).epoint = o.epoint ∧ (o.signal n c).errcnt = o.errcnt) ∧
    (isErr c = false → n ≤ o.value → o.signal n c = o)) ∧
  (∀ (s : State) (m : Master) (err : BitVec 16), s.Serves m 0x600050 → s.get R.SYN_CMD_STAT_BUSY = 0 →
    let h := s.get R.SYN_CMD_H_HANDLE
    let n := s.get R.SYN_CMD_ARG_VALUE
    s.objCheck 0 h = 0 → hDie h = s.die → Completes (.synSignal m err) s fun t =>
      SameObj (t.synObj (hIdx h)) ((s.synObj (hIdx h)).signal n err.toNat) ∧
      (∀ x ∈ t.syn.waits, x.idx = hIdx h → max (s.synObj (hIdx h)).value n < x.w) ∧
      t.syn.cmd = some (1, some (0, 0, 0, 0)) ∧ t.get R.SYN_CMD_STAT_BUSY = 1) ∧
  (∀ (s : State) (m : Master) (k : Fin 8) (v : DWord), s.Admits m (0x60010C + 16 * k) →
    let h := s.get R.SYN_XSIG_H_HANDLE k
    (hGen h = 0 → Completes (.importPortSignal m k v) s fun t => t = s.begun m) ∧
    (hGen h ≠ 0 → s.objCheck 0 h = 0 → hDie h = s.die → Completes (.importPortSignal m k v) s fun t =>
      SameObj (t.synObj (hIdx h)) ((s.synObj (hIdx h)).signal v.toNat 0) ∧
      (∀ x ∈ t.syn.waits, x.idx = hIdx h → max (s.synObj (hIdx h)).value v.toNat < x.w)) ∧
    (hGen h ≠ 0 → s.objCheck 0 h ≠ 0 → Completes (.importPortSignal m k v) s fun t =>
      t.get R.SYN_OBJERR_COUNT = min (s.get R.SYN_OBJERR_COUNT + 1) (2 ^ 32 - 1) ∧
      Recorded s t (fun r => r.cls = 4 ∧ r.cause = 3 ∧ r.src = k ∧ r.sub = s.objCheck 0 h)))

/-- The SYN commands (R260, R272, R283). -/
def Obligations.SynCommandsCarryOut : Prop :=
  (∀ (s : State) (m : Master), s.Serves m 0x600050 → s.get R.SYN_CMD_STAT_BUSY = 0 →
    let h := s.get R.SYN_CMD_H_HANDLE
    let i := hIdx h
    let o := s.synObj i
    (s.objCheck 0 h = 0 → hDie h = s.die →
      Completes (.synQuery m) s (fun t => t.syn.cmd = some (2, some (0, o.errcnt * 2 ^ 16 + o.err, o.value, o.epoint)) ∧
        t.synObj i = o ∧ t.syn.waits = s.syn.waits) ∧
      Completes (.synClearErr m) s (fun t => (t.synObj i).err = 0 ∧ (t.synObj i).epoint = 0 ∧ (t.synObj i).errcnt = 0 ∧
        (t.synObj i).value = o.value ∧ t.syn.cmd = some (3, some (0, 0, 0, 0))) ∧
      Completes (.synDestroy m) s (fun t => (∀ x ∈ t.syn.waits, x.idx ≠ i) ∧ (∀ p ∈ t.syn.pend, p.idx ≠ i) ∧
        t.syn.cmd = some (4, some (0, 0, 0, 0)) ∧ ((∃ a, s.RecOk 0 i a) → (t.synObj i).valid = false))) ∧
    (s.objCheck 2 h = 0 → hDie h = s.die → (∃ a, s.RecOk 2 i a) →
      (bitsOf (s.recNat 2 i 0 4) 0 2 = 2 → Completes (.synResume m) s fun t =>
        bitsOf (t.recNat 2 i 0 4) 0 2 = 1 ∧ t.syn.cmd = some (5, some (0, 0, 0, 0))) ∧
      (bitsOf (s.recNat 2 i 0 4) 0 2 ≠ 2 → Completes (.synResume m) s fun t =>
        t.mem = s.mem ∧ t.syn.cmd = some (5, some (4, 0, 0, 0)))) ∧
    Completes (.synFlush m) s (fun t => t.syn.res = s.syn.res ∧ t.syn.cmd = some (6, some (0, 0, 0, 0)) ∧
      ∀ j x a, s.syn.res = [(j, x)] → s.RecOk 0 j a → (t.synRec j).value = x.value % 2 ^ 64 ∧ (t.synRec j).w20 = x.w20 % 2 ^ 32) ∧
    (s.objCheck 0 h ≠ 0 → Completes (.synQuery m) s fun t =>
      t.syn = { s.syn with cmd := some (2, some (objResult (s.objCheck 0 h), 0, 0, 0)) } ∧ t.get R.SYN_CMD_STAT_BUSY = 1) ∧
    (s.objCheck 2 h ≠ 0 → Completes (.synResume m) s fun t =>
      t.syn = { s.syn with cmd := some (5, some (objResult (s.objCheck 2 h), 0, 0, 0)) } ∧ t.get R.SYN_CMD_STAT_BUSY = 1)) ∧
  (∀ (s : State) (m : Master), s.Serves m 0x600050 → s.get R.SYN_CMD_STAT_BUSY ≠ 0 → ∀ c ∈
    [Instr.synSignal m 5, .synQuery m, .synClearErr m, .synDestroy m, .synResume m, .synFlush m],
    Completes c s fun t => t.get R.SYN_CMD_STAT_REJ = 1 ∧ SameRegs s t [R.SYN_CMD_STAT_REJ.key 0 0, R.SYN_CMD_OP.key 0 0,
      R.SYN_CMD_ERR.key 0 0] ∧ t = { s.begun m with regs := t.regs }) ∧
  (∀ (s : State) (op : Nat) (here : Option (Nat × Nat × Nat × Nat)) (res : Fin 5) (q : Word) (v ep : DWord),
    s.syn.cmd = some (op, here) → Completes (.synCmdDone res q v ep) s fun t =>
      let r := here.getD (res.val, q.toNat, v.toNat, ep.toNat)
      t.syn = { s.syn with cmd := none } ∧ t.get R.SYN_CMD_STAT_BUSY = 0 ∧ t.get R.SYN_CMD_STAT_DONE = 1 ∧
      t.get R.SYN_CMD_STAT_RESULT = r.1 % 2 ^ 8 ∧
      (op = 2 → r.1 = 0 → t.get R.SYN_RES_ERR_ERR = r.2.1 % 2 ^ 16 ∧ t.get R.SYN_RES_VALUE_VALUE = r.2.2.1 % 2 ^ 64 ∧
        t.get R.SYN_RES_EPOINT_EPOINT = r.2.2.2 % 2 ^ 64) ∧
      t = { s with regs := t.regs, raw := t.raw, syn := t.syn, chl := t.chl, out := t.out })

/-- Teardown (R277 to R279, R284). -/
def Obligations.TeardownOfQueuesAndContexts : Prop :=
  (∀ (s : State) (m : Master), s.Serves m 0x600084 →
    let h := s.get R.SYN_ABORT_H_HANDLE
    (s.get R.SYN_ABORT_STAT_BUSY = 0 → s.objCheck 2 h = 0 → hDie h = s.die → Completes (.teardownQueue m) s fun t =>
      t.get R.SYN_ABORT_STAT_BUSY = 1 ∧ t.syn.td = some { ctx := false, handle := h, remote := false } ∧
      t.wsp.qs.lookup (hIdx h) = none) ∧
    (s.get R.SYN_ABORT_STAT_BUSY = 0 → s.objCheck 1 h = 0 → hDie h = s.die →
      (bitsOf (s.recNat 1 (hIdx h) 0 4) 0 2 < 2 → Completes (.teardownContext (some m)) s fun t =>
        t.get R.SYN_ABORT_STAT_BUSY = 1 ∧ t.syn.td = some { ctx := true, handle := h, remote := false }) ∧
      (2 ≤ bitsOf (s.recNat 1 (hIdx h) 0 4) 0 2 → Completes (.teardownContext (some m)) s fun t =>
        t.get R.SYN_ABORT_STAT_DONE = 1 ∧ t.get R.SYN_ABORT_STAT_RESULT = 0 ∧ t.syn = s.syn)) ∧
    (s.get R.SYN_ABORT_STAT_BUSY = 0 → s.objCheck 2 h ≠ 0 → Completes (.teardownQueue m) s fun t =>
      t.get R.SYN_ABORT_STAT_DONE = 1 ∧ t.get R.SYN_ABORT_STAT_RESULT = objResult (s.objCheck 2 h) ∧ t.syn = s.syn) ∧
    (s.get R.SYN_ABORT_STAT_BUSY = 0 → s.objCheck 1 h ≠ 0 → Completes (.teardownContext (some m)) s fun t =>
      t.get R.SYN_ABORT_STAT_DONE = 1 ∧ t.get R.SYN_ABORT_STAT_RESULT = objResult (s.objCheck 1 h) ∧ t.syn = s.syn) ∧
    (s.get R.SYN_ABORT_STAT_BUSY ≠ 0 → ∀ c ∈ [Instr.teardownQueue m, .teardownContext (some m)], Completes c s fun t =>
      t.get R.SYN_ABORT_STAT_REJ = 1 ∧ SameRegs s t [R.SYN_ABORT_STAT_REJ.key 0 0, R.SYN_ABORT_CMD_KIND.key 0 0] ∧
      t = { s.begun m with regs := t.regs })) ∧
  (∀ (s : State) (h : Nat) (q : List Nat), s.syn.td = none → s.syn.tdq = h :: q →
    (s.objCheck 1 h = 0 → hDie h = s.die → bitsOf (s.recNat 1 (hIdx h) 0 4) 0 2 < 2 → Completes (.teardownContext none) s fun t =>
      t.get R.SYN_ABORT_STAT_BUSY = 1 ∧ t.syn.td = some { ctx := true, handle := h, remote := false }) ∧
    (s.objCheck 1 h ≠ 0 → Completes (.teardownContext none) s fun t => t = { s with syn := { s.syn with tdq := q } })) ∧
  (∀ (s : State) (td : Teardown) (res un : BitVec 3), s.syn.td = some td → Completes (.teardownComplete res un) s fun t =>
    t.syn.td = none ∧ t.get R.SYN_ABORT_STAT_BUSY = 0 ∧ t.get R.SYN_ABORT_STAT_DONE = 1 ∧
    t.get R.SYN_ABORT_STAT_RESULT = (if td.remote then res.toNat else 0) ∧ t.get R.SYN_ABORT_STAT_UNREACH = un.toNat ∧
    (td.remote = false → td.ctx = false → (∃ a, s.RecOk 2 (hIdx td.handle) a) → bitsOf (t.recNat 2 (hIdx td.handle) 0 4) 0 2 = 3))

/-- Translation (R206 to R229). -/
def Obligations.TranslationMissesAndCompletions : Prop :=
  (∀ (s : State) (id : BitVec 16) (st : Fin 70) (va : DWord) (k : VaKind), s.dtu.outc.lookup [0, id.toNat] = none →
    (∀ p ta, s.flag R.DTU_CTL_EN = true → bitsOf va.toNat 57 7 = (if bitB va.toNat 56 then 127 else 0) →
      s.dtu.pasid.lookup st.val = some p → p ≠ 0 → s.atcHit p va.toNat k = some ta → Completes (.vaTranslate id st va k) s fun t =>
        t = s ∧ (s.vaNow [0, id.toNat] st va.toNat k).2 = some (.at_ ta)) ∧
    (∀ p, s.flag R.DTU_CTL_EN = true → bitsOf va.toNat 57 7 = (if bitB va.toNat 56 then 127 else 0) →
      s.dtu.pasid.lookup st.val = some p → p ≠ 0 → s.atcHit p va.toNat k = none → s.prxDown = false → k ≠ .prf →
      (∀ q ∈ s.dtu.park, ¬ (q.pasid = p ∧ q.page = pageOf va.toNat)) →
      (∀ h ∈ s.dtu.hnd, ¬ (h.miss.pasid = p ∧ h.miss.page = pageOf va.toNat)) →
      (∀ m ∈ s.dtu.miss, ¬ (m.pasid = p ∧ m.page = pageOf va.toNat)) → Completes (.vaTranslate id st va k) s fun t =>
        t = { s with dtu := { s.dtu with miss := s.dtu.miss ++ [{
          stream := st, pasid := p, page := pageOf va.toNat, nw := k == .fetch || k == .dcoRead, who := [⟨[0, id.toNat], k, st⟩] }] } }) ∧
    (s.flag R.DTU_CTL_EN = false → k ≠ .prf → k ≠ .pretrans → s.get R.DTU_SSTAT_UFLT st = 0 → Completes (.vaTranslate id st va k) s fun t =>
      t.get R.DTU_SSTAT_UFLT st = 1 ∧ t.dtu = s.dtu ∧
      Recorded s t (fun r => r.cls = 2 ∧ r.cause = 1 ∧ r.sub = k.code ∧ r.src = st ∧ r.d0 = pageOf va.toNat))) ∧
  (∀ s : State, s.dtu.hnd.length < 32 → (∃ m ∈ s.dtu.miss, m.stream < 70 ∧ s.mayGrant m = true) →
    Completes .missHandlerGrant s fun t => ∃ m h i, m ∈ s.dtu.miss ∧ s.mayGrant m = true ∧
      let mine := fun x : DtuMiss => x.retr.isNone && x.pasid == m.pasid && x.page == m.page
      t.dtu = { s.dtu with miss := (s.dtu.miss.erase m).filter (fun x => !mine x), hnd := s.dtu.hnd ++ [h], last := m.stream } ∧
      h.miss = { m with who := h.miss.who, nw := h.miss.nw } ∧ m.who <+: h.miss.who ∧
      (∀ x ∈ s.dtu.miss.erase m, mine x = true → ∀ w ∈ x.who, ∃ y ∈ h.miss.who, y.id = w.id) ∧
      ((∀ x ∈ s.dtu.miss.erase m, mine x = false) → h.miss = m) ∧ h.tag < 32 ∧
      (∀ x ∈ s.dtu.hnd, x.tag ≠ h.tag) ∧ m.stream = (s.dtu.last + 1 + i) % 70 ∧
      (∀ j < i, ∀ x ∈ s.dtu.miss, x.stream = (s.dtu.last + 1 + j) % 70 → s.mayGrant x = false) ∧
      (s.flag R.DTU_CTL_PROXY = false → t.out = s.out ++ [.atsReq h.tag m.pasid m.page h.miss.nw])) ∧
  (∀ (s : State) (tag : BitVec 7) (ok r w u g : Bool) (tb : DWord) (lg : BitVec 6) (h : DtuHnd) (x : VaWho), tag.toNat < 32 →
    (s.dtu.hnd.find? fun h => h.tag == tag.toNat) = some h → s.waiters h.miss = [x] → x.kind ≠ .prf → x.kind ≠ .pretrans →
    let page := h.miss.page
    let lg' := max 12 lg.toNat
    (ok = true → u = false → (x.kind.needs.1 = true → r = true) → (x.kind.needs.2 = true → w = true) →
      Completes (.atsCompletion tag ok tb lg r w u g) s fun t =>
        t.dtu.outc.lookup x.id = some (.at_ (tb.toNat / 2 ^ lg' * 2 ^ lg' + page % 2 ^ lg')) ∧
        t.dtu.hnd = s.dtu.hnd.filter (fun y => y.tag != tag.toNat) ∧ t = { s with dtu := t.dtu, fresh := t.fresh }) ∧
    (ok = false → Completes (.atsCompletion tag ok tb lg r w u g) s fun t =>
      t.dtu.outc.lookup x.id = some (.err 4) ∧ t.dtu.hnd = s.dtu.hnd.filter (fun y => y.tag != tag.toNat)) ∧
    (ok = true → x.kind = .store → w = false → h.miss.retr = none → x.stream < 64 → s.dtu.priEnable = true →
      s.flag R.DTU_STAT_PRI_FAILED = false → s.dtu.park = [] → s.dtu.miss = [] → s.dtu.hnd = [h] →
      Completes (.atsCompletion tag ok tb lg r w u g) s fun t =>
        t.dtu.park = [{ prgi := 0, stream := x.stream, pasid := h.miss.pasid, page, w := true, who := [x] }] ∧ t.dtu.hnd = [])) ∧
  (∀ (s : State) (tag : Fin 32) (h : DtuHnd) (x : VaWho), (s.dtu.hnd.find? fun h => h.tag == tag.val) = some h →
    s.waiters h.miss = [x] → x.kind ≠ .prf → x.kind ≠ .pretrans → Completes (.atsCompletionTimeout tag) s fun t =>
      t.dtu.outc.lookup x.id = some (.err 5) ∧ t.dtu.hnd = s.dtu.hnd.filter (fun y => y.tag != tag.val))

/-- Page requests (R224 to R228) and invalidations (R230 to R232, R245). -/
def Obligations.PageRequestsAndInvalidations : Prop :=
  (∀ (s : State) (p : DtuPark), s.flag R.DTU_STAT_PRI_FAILED = false →
    (s.dtu.park.filter fun p => p.sent && !p.answered).length < s.dtu.priAlloc → (s.dtu.park.find? fun p => !p.sent) = some p →
    Completes .pageRequestSend s fun t =>
      t.dtu = { s.dtu with park := s.dtu.park.map fun q => if q.prgi == p.prgi then { q with sent := true } else q } ∧
      t.get R.DTU_PRI_CNT_COUNT = min (s.get R.DTU_PRI_CNT_COUNT + 1) (2 ^ 32 - 1) ∧
      (s.flag R.DTU_CTL_PROXY = false → t.out = s.out ++ [.pageReq p.prgi p.pasid p.page true p.w])) ∧
  (∀ (s : State) (prgi : BitVec 9), prgi.toNat < 128 →
    (∀ p, (s.dtu.park.find? fun p => p.prgi == prgi.toNat && p.sent && !p.answered) = some p →
      Completes (.prgResponse prgi 0) s (fun t => t = { s with dtu := { s.dtu with
        park := s.dtu.park.map (fun q => if q.prgi == prgi.toNat then { q with answered := true } else q),
        miss := s.dtu.miss ++ [{ stream := p.stream, pasid := p.pasid, page := p.page, nw := false, who := p.who, retr := some prgi.toNat }] } }) ∧
      (∀ x, p.who = [x] → x.kind ≠ .prf → x.kind ≠ .pretrans → Completes (.prgResponse prgi 1) s fun t =>
        t.dtu.park = s.dtu.park.filter (fun q => q.prgi != prgi.toNat) ∧ t.dtu.outc.lookup x.id = some (.err 9)) ∧
      Completes (.prgResponse prgi 15) s (fun t => t.get R.DTU_STAT_PRI_FAILED = 1 ∧ t.dtu.park = [])) ∧
    ((s.dtu.park.find? fun p => p.prgi == prgi.toNat && p.sent && !p.answered) = none → ∀ code, Completes (.prgResponse prgi code) s fun t =>
      t.get R.DTU_PRG_STRAY_COUNT = min (s.get R.DTU_PRG_STRAY_COUNT + 1) (2 ^ R.DTU_PRG_STRAY_COUNT.w - 1) ∧ t = { s with regs := t.regs })) ∧
  (∀ (s : State) (en : Bool) (al : BitVec 9), Completes (.priReset en al) s fun t => t.get R.DTU_STAT_PRI_FAILED = 0 ∧
    SameRegs s t [R.DTU_STAT_PRI_FAILED.key 0 0] ∧
    t = { s with regs := t.regs, dtu := { s.dtu with priEnable := en, priAlloc := al.toNat } }) ∧
  (∀ (s : State) (itag : BitVec 5) (va : DWord) (npg : BitVec 6) (pasid : Option (BitVec 20)) (g : Bool),
    let sz := 4096 * 2 ^ npg.toNat
    let lo := va.toNat / sz * sz
    (s.invq < 32 → Completes (.atsInvalidateRequest itag va npg pasid g) s fun t =>
      NoMatch t lo (lo + sz) (pasid.map BitVec.toNat) g ∧ t.dtu.invSeq = s.dtu.invSeq + 1 ∧
      ((∃ v ∈ t.dtu.invq, v.seq = s.dtu.invSeq ∧ v.itag = some itag.toNat) ∨ Out.invDone [itag.toNat] ∈ t.out) ∧
      t = { s with dtu := t.dtu, chl := t.chl, out := t.out }) ∧
    (32 ≤ s.invq → Completes (.atsInvalidateRequest itag va npg pasid g) s fun t => t = s)) ∧
  (∀ (s : State) (q : Nat) (v : DtuInv), (s.dtu.invq.filter fun x => [q].contains x.seq) = [v] →
    (s.invReady v = true → Completes (.invalidateDone [q]) s fun t =>
      t.dtu.invq = s.dtu.invq.filter (fun x => x.seq != v.seq) ∧ (∀ i, v.itag = some i → t.out = s.out ++ [.invDone [i]]) ∧
      (v.itag = none → v.fwd = none → t.get R.DTU_INV_STAT_BUSY = 0 ∧ t.get R.DTU_INV_STAT_DONE = 1)) ∧
    (s.invReady v = false → Completes (.invalidateDone [q]) s fun t => t = s)) ∧
  (∀ (s : State) (m : Master) (npg : BitVec 5) (p : BitVec 20), s.Serves m 0x700028 →
    let sz := 4096 * 2 ^ npg.toNat
    let lo := s.get R.DTU_INV_ADDR_VA * 4096 / sz * sz
    (s.get R.DTU_INV_STAT_BUSY = 0 →
      Completes (.dtuInvRange m npg p) s (fun t => NoMatch t lo (lo + sz) (some p.toNat) false ∧ DriverInvalidates s t m) ∧
      Completes (.dtuInvPasid m p) s (fun t => NoMatch t 0 (2 ^ 64) (some p.toNat) false ∧ DriverInvalidates s t m) ∧
      Completes (.dtuInvAll m) s (fun t => NoMatch t 0 (2 ^ 64) none false ∧ DriverInvalidates s t m)) ∧
    (s.get R.DTU_INV_STAT_BUSY ≠ 0 → ∀ c ∈ [Instr.dtuInvRange m npg p, .dtuInvPasid m p, .dtuInvAll m], Completes c s fun t =>
      t.get R.DTU_INV_STAT_REJ = 1 ∧ t = { s.begun m with regs := t.regs }))

/-- The DTU's own tables and registers (R212, R237 to R247). -/
def Obligations.AccessCountersNotifyRingAndWindow : Prop :=
  (∀ (s : State) (m : Master), s.Serves m 0x700058 → Completes (.dtuAcFlush m) s fun t =>
    t.get R.DTU_STAT_AC_BUSY = 1 ∧ t.dtu = s.dtu ∧
    (∀ g c a, s.dtu.ac = [(g, c)] → s.acLoc g = .loc a → s.locStatus (.loc a) = .ok → s.NoPoison →
      t.memNat a 2 = c % 2 ^ 16)) ∧
  (∀ s : State, Completes .dtuAcFlushDone s fun t => t = s.set R.DTU_STAT_AC_BUSY 0) ∧
  (∀ (s : State) (m : Master) (sz : BitVec 5), s.Serves m 0x700068 →
    (s.flag R.DTU_MN_CFG_EN = false → Completes (.dtuMnEnable m sz) s fun t =>
      t.get R.DTU_MN_CFG_EN = 1 ∧ t.get R.DTU_MN_CFG_LOG2SZ = sz.toNat ∧ t.get R.DTU_MN_PROD_PROD = 0 ∧ t.get R.DTU_MN_CONS_CONS = 0 ∧
      SameRegs s t [R.DTU_MN_CFG_EN.key 0 0, R.DTU_MN_CFG_LOG2SZ.key 0 0, R.DTU_MN_PROD_PROD.key 0 0, R.DTU_MN_CONS_CONS.key 0 0] ∧
      t = { s.begun m with regs := t.regs }) ∧
    (s.flag R.DTU_MN_CFG_EN = true → s.get R.DTU_MN_CFG_LOG2SZ ≠ sz.toNat → Completes (.dtuMnEnable m sz) s fun t =>
      t = (s.begun m).errComp m .locked 0x700068)) ∧
  (∀ (s : State) (m : Master) (v : Word), s.Serves m 0x700070 →
    let used := (s.get R.DTU_MN_PROD_PROD + 2 ^ 32 - v.toNat) % 2 ^ 32
    (s.mnSize < used → Completes (.dtuMnConsWrite m v) s fun t => t = (s.begun m).errMark m) ∧
    (used ≤ s.mnSize → Completes (.dtuMnConsWrite m v) s fun t => t.get R.DTU_MN_CONS_CONS = v.toNat ∧
      (s.dtu.mnDropped = 0 → t = (s.begun m).set R.DTU_MN_CONS_CONS v.toNat))) ∧
  (∀ (s : State) (m : Master) (v : DWord),
    (s.Serves m 0x700014 → s.isDie0 = true → Completes (.dtuDmwinWrite m false v) s fun t =>
      t.get R.DTU_DMWIN_BASE_ADDR = v.toNat / 2 ^ 30 ∧ t.get R.DTU_DMWIN_BASE_EN = v.toNat % 2 ∧
      SameRegs s t [R.DTU_DMWIN_BASE_ADDR.key 0 0, R.DTU_DMWIN_BASE_EN.key 0 0] ∧
      t = { s.begun m with regs := t.regs, chl := t.chl, out := t.out }) ∧
    (s.Serves m 0x70001C → s.isDie0 = true → Completes (.dtuDmwinWrite m true v) s fun t =>
      t.get R.DTU_DMWIN_LIM_ADDR = v.toNat / 2 ^ 30 ∧ SameRegs s t [R.DTU_DMWIN_LIM_ADDR.key 0 0] ∧
      t = { s.begun m with regs := t.regs, chl := t.chl, out := t.out }) ∧
    (s.Serves m 0x700014 → s.isDie0 = false → Completes (.dtuDmwinWrite m false v) s fun t => t = s.begun m) ∧
    (s.Serves m 0x70001C → s.isDie0 = false → Completes (.dtuDmwinWrite m true v) s fun t => t = s.begun m))

/-- The packets that need no Ember, and the start of a launch (R292 to R309). -/
def Obligations.PacketsOfTheWindowRun : Prop :=
  (∀ (s : State) (id : BitVec 32) (p : Pkt), s.Runs id.toNat p →
    (p.nop = true ∨ pkType p.bytes = 0 → Completes (.pktNop id) s fun t => PkBecomes s t id.toNat { p with stage := .done }) ∧
    (p.nop = false →
      (pkType p.bytes = 3 → s.FirstOf p → Completes (.pktRecord id) s fun t => PkBecomes s t id.toNat { p with stage := .done }) ∧
      (pkType p.bytes = 5 → Completes (.graphLaunch id) s fun t => PkBecomes s t id.toNat { p with stage := .running }) ∧
      (pkType p.bytes = 1 → s.inPlace (fieldOf p.bytes 0x3C 2) ≠ [] → Completes (.pktDispatch id) s fun t =>
        PkBecomes s t id.toNat { p with stage := .running, launch := some {} }) ∧
      (pkType p.bytes = 1 → s.inPlace (fieldOf p.bytes 0x3C 2) = [] → Completes (.pktDispatch id) s fun t =>
        t.pk? id.toNat = some { p.fail 10 with stage := .done, launch := some { stop := true } } ∧
        Recorded s t (fun r => r.cls = 5 ∧ r.cause = 8 ∧ r.src = s.pkSlot p ∧ r.d1 = p.off + 2 ^ 32)) ∧
      (pkType p.bytes = 4 →
        let u := { s with chl := { s.chl with who := id.toNat, acc := none } }
        let bs := s.pktBytes p.bytes
        let va := fieldOf p.bytes 16 8
        (∀ v r, u.vaPut .wellspring [4, id.toNat] (s.pkSlot p) .store va bs = (v, r) →
          let w := { v with chl := { v.chl with who := 0, acc := none } }
          (r = .wait → Completes (.pktWrite id) s fun t => t = w) ∧
          (r = .fail → Completes (.pktWrite id) s fun t => PkBecomes w t id.toNat { p.fail 2 with stage := .done }) ∧
          (r = .ok () → Completes (.pktWrite id) s fun t => PkBecomes w t id.toNat { p with stage := .done })) ∧
        (∀ v a, u.vaPlaces [4, id.toNat] (s.pkSlot p) .store va bs.length = (v, .ok [(va, bs.length, .loc a)]) →
          v.locStatus (.loc a) = .ok → v.NoPoison → Completes (.pktWrite id) s fun t =>
            bytesAt 0 t.mem a bs.length = bs.map (· % 256))) ∧
      (pkType p.bytes = 2 → ∀ (value : DWord) (err : BitVec 16),
        let h := fieldOf p.bytes 16 4
        let r := if hDie h = s.die then condTrue p.bytes (s.synObj (hIdx h)).value (s.synObj (hIdx h)).err
          else condTrue p.bytes value.toNat err.toNat
        Completes (.pktCond id value err) s fun t => t.pk? id.toNat = some { p with stage := .done } ∧ Resolves s t id.toNat r ∧
          (∀ u, (s.wsp.win.filter fun x => x.predBy == some id.toNat && x.pred.isNone) = [u] → s.flag R.WSP_CTL_SPEC = true →
            u.stage = .parsed → r ≠ bitB (fieldOf p.bytes 20 4) 8 →
            t.get R.WSP_MISPRED_COUNT = min (s.get R.WSP_MISPRED_COUNT + 1) (2 ^ 32 - 1))))) ∧
  (∀ (s : State) (id : BitVec 32) (p : Pkt), s.Loses id.toNat p → p.nop = false →
    (∀ c ∈ [(1, Instr.pktDispatch id), (4, .pktWrite id), (5, .graphLaunch id), (6, .graphPatch id [])], pkType p.bytes = c.1 →
      Completes c.2 s fun t => PkBecomes s t id.toNat { p.fail 5 with stage := .done }) ∧
    (pkType p.bytes = 2 → ∀ (value : DWord) (err : BitVec 16), Completes (.pktCond id value err) s fun t =>
      Resolves s t id.toNat false ∧ ∃ q, t.pk? id.toNat = some q ∧ q.stage = .done ∧ q.err = if p.err = 0 then 5 else p.err))

/-- Doorbells (R285, R287) and fetch (R286, R289, R293, R297). -/
def Obligations.DoorbellsAndFetch : Prop :=
  (∀ (s : State) (m : Master) (k : BitVec 17) (handle tail : Word), s.Admits m 0x500000 →
    let h := handle.toNat
    let q := hIdx h
    let u := s.qFresh q h
    let d := (tail.toNat + 2 ^ 32 - u.qHead q) % 2 ^ 32
    let held := (u.qTail q + 2 ^ 32 - u.qHead q) % 2 ^ 32
    let dropped := fun (t : State) (cause sub : Nat) => t.get R.WSP_DB_ERR_COUNT = min (s.get R.WSP_DB_ERR_COUNT + 1) (2 ^ 32 - 1) ∧
      t.wsp.bells = s.wsp.bells ∧ t.mem = s.mem ∧
      Recorded s t (fun r => r.cls = 4 ∧ r.cause = cause ∧ r.sub = sub ∧ r.d0 = h + tail.toNat * 2 ^ 32)
    (hDie h = s.die →
      (s.flag R.WSP_CTL_EN = false → Completes (.doorbell m k handle tail) s fun t =>
        t.get R.WSP_DB_ERR_COUNT = min (s.get R.WSP_DB_ERR_COUNT + 1) (2 ^ 32 - 1) ∧
        SameRegs s t [R.WSP_DB_ERR_COUNT.key 0 0] ∧ t = { s.begun m with regs := t.regs }) ∧
      (s.flag R.WSP_CTL_EN = true → s.objCheck 2 h ≠ 0 → Completes (.doorbell m k handle tail) s fun t =>
        dropped t 2 (s.objCheck 2 h) ∧ t.get R.SYN_OBJERR_COUNT = min (s.get R.SYN_OBJERR_COUNT + 1) (2 ^ 32 - 1)) ∧
      (s.flag R.WSP_CTL_EN = true → s.objCheck 2 h = 0 →
        let page := bitsOf (s.recNat 2 q 0x10 4) 16 8
        (page ≠ k.toNat / 512 → Completes (.doorbell m k handle tail) s (dropped · 2 5)) ∧
        (page = k.toNat / 512 → s.qState q = 3 → Completes (.doorbell m k handle tail) s (dropped · 2 8)) ∧
        (page = k.toNat / 512 → s.qState q ≠ 3 →
          (s.recRing q < d → Completes (.doorbell m k handle tail) s (dropped · 2 6)) ∧
          (d ≤ s.recRing q → d < held → Completes (.doorbell m k handle tail) s (dropped · 2 7)) ∧
          (d ≤ s.recRing q → held ≤ d → s.tdCovers q = false → Completes (.doorbell m k handle tail) s fun t =>
            t.wsp.bells = s.wsp.bells ++ [(q, tail.toNat, s.tb)] ∧
            (∀ x, u.q? q = some x → t.q? q = some { x with tail := tail.toNat } ∧ t.mem = s.mem) ∧
            (∀ a, u.q? q = none → s.RecOk 2 q a → t.recNat 2 q 0x18 4 = tail.toNat) ∧
            (q ∈ t.wsp.runq ∨ ∃ x n, u.q? q = some x ∧ x.slot = some n) ∧ t.wsp.win = s.wsp.win)))) ∧
    (hDie h ≠ s.die → s.memReach (hDie h) = true → Completes (.doorbell m k handle tail) s fun t =>
      Sends s t (s.portTo (hDie h)) 0x14 (hDie h) ∧ t = { s.begun m with regs := t.regs, chl := t.chl, out := t.out }) ∧
    (hDie h ≠ s.die → s.memReach (hDie h) = false → Completes (.doorbell m k handle tail) s (dropped · 5 1))) ∧
  (∀ (s : State) (slot : Fin 64) (ext : List Host.Cell) (q : Nat) (x : WspQ), s.slotQ slot = some (q, x) → s.q? q = some x →
    s.qRuns q = true → s.winRoom q = true →
    (∀ v b, (∀ u ∈ x.subs, u.cblen ≤ u.next) → x.nextSub ≠ x.tail →
      s.vaGet .wellspring [2, slot.val] slot .wspRead (x.rbase + x.nextSub % 2 ^ x.lg * 32) 32 ext = (v, .ok b) →
      Completes (.packetFetch slot ext) s fun t => ∃ u, t.q? q = some { x with subs := x.subs ++ [u] } ∧ u.idx = x.nextSub ∧
        u.cbva = fieldOf b 0 8 ∧ u.cblen = fieldOf b 8 4 ∧ u.subid = fieldOf b 12 4 ∧ u.after = bitB (fieldOf b 24 1) 0 ∧
        u.next = (if x.nextSub = x.head then x.cboff else 0) ∧ (fieldOf b 16 8 ≠ 0 → u.dl = fieldOf b 16 8) ∧
        (fieldOf b 16 8 = 0 → x.dlrel = 0 → u.dl = 0) ∧ t = { v with wsp := { v.wsp with qs := t.wsp.qs } }) ∧
    (∀ v a, (∀ u ∈ x.subs, u.cblen ≤ u.next) → x.nextSub ≠ x.tail → v.RecOk 2 q a →
      s.vaGet .wellspring [2, slot.val] slot .wspRead (x.rbase + x.nextSub % 2 ^ x.lg * 32) 32 ext = (v, .fail) →
      Completes (.packetFetch slot ext) s fun t => t.qState q = 2 ∧ t.wsp = s.wsp) ∧
    (∀ u v hd, (x.subs.find? fun u => u.next < u.cblen) = some u →
      s.vaGet .wellspring [2, slot.val] slot .wspRead (u.cbva + u.next) 16 ext = (v, .ok hd) →
      let n := 16 * pkLen hd
      let p : Pkt := { id := s.wsp.nextId, q, sub := u.idx, off := u.next, bytes := hd, ref_ := 7 }
      (n = 0 ∨ u.cblen < u.next + n → Completes (.packetFetch slot ext) s fun t =>
        t.wsp.win = s.wsp.win ++ [p] ∧ t.wsp.nextId = s.wsp.nextId + 1 ∧
        ∀ y ∈ ((t.q? q).map (·.subs)).getD [], y.idx = u.idx → y.next = u.cblen) ∧
      (∀ w b, n ≠ 0 → u.next + n ≤ u.cblen → v.vaGet .wellspring [2, slot.val] slot .wspRead (u.cbva + u.next) n ext = (w, .ok b) →
        Completes (.packetFetch slot ext) s fun t => t.wsp.win = s.wsp.win ++ [{ p with bytes := b, ref_ := 0 }] ∧
          t.wsp.nextId = s.wsp.nextId + 1 ∧ (∀ y ∈ ((t.q? q).map (·.subs)).getD [], y.idx = u.idx → y.next = u.next + n) ∧
          t = { w with wsp := t.wsp })))

/-- Parse (R293 to R295, R301), commit (R298), retire (R296, R322) and deadlines (R321). -/
def Obligations.PacketsParseCommitRetire : Prop :=
  (∀ (s v : State) (slot : Fin 64) (ext : List Host.Cell) (q : Nat) (x : WspQ) (p : Pkt) (u : WspSub), s.slotQ slot = some (q, x) →
    s.qRuns q = true → ((s.pkOf q).find? fun p => p.stage == .fetched) = some p → (x.subs.find? fun u => u.idx == p.sub) = some u →
    pkType p.bytes ≠ 0x20 → pkPen p.bytes = false →
    let f := s.pkFault p.bytes
    let r := if p.ref_ ≠ 0 then p.ref_ else if f = 1 ∨ f = 2 ∨ f = 3 then f else if ∃ d ∈ pkDeps p.bytes, u.tags.lookup d = none then 4
      else if f ≠ 0 then f else if passFault u.pass (pkType p.bytes) true then 5
      else if pkType p.bytes = 0x21 ∧ s.stateNeeds u p.bytes = true then 5 else 0
    let pages := if r = 0 then pkPages p.bytes else []
    s.pinAll slot ((s.dtu.pasid.lookup slot.val).getD 0) pages = some v → Completes (.packetParse slot ext) s fun t =>
      t.pk? p.id = some { p with
        stage := .parsed, ref_ := r, pass := if u.pass ≠ 0 then u.passBegin else 0, deps := s.pkFindDeps p u, awaits := pkAwaits p.bytes
        sigs := if r = 7 then [] else pkSigs p.bytes, predBy := none, pred := some true
        prev := if pkType p.bytes = 2 then (u.preds.lookup (bitsOf (fieldOf p.bytes 20 4) 0 3)).getD (none, some false) else (none, some false)
        pins := pages } ∧
      t = { v with wsp := { v.wsp with win := t.wsp.win, qs := t.wsp.qs } }) ∧
  (∀ (s : State) (slot : Fin 64) (ext : List Host.Cell) (q : Nat) (x : WspQ) (p : Pkt), s.slotQ slot = some (q, x) → s.q? q = some x →
    s.qRuns q = true → ((s.pkOf q).find? fun p => p.stage == .fetched || p.stage == .parsed) = some p → p.stage = .parsed →
    (pkPen p.bytes = true → p.pred.isSome = true) → (pkType p.bytes ≥ 0x20 → s.flag R.GFX_CTL_EN = true ∧ s.locked 1 = false) →
    let next := p.off + 16 * pkLen p.bytes
    (p.ref_ = 0 → (∀ h ∈ pkHandles p, s.pkHandle p h.1 h.2 = some 0) → (pkType p.bytes ≠ 5 ∨ p.pred = some false) →
      ∀ u, (x.subs.find? fun u => u.idx == p.sub) = some u → Completes (.packetCommit slot ext) s fun t =>
        (∃ p', t.pk? p.id = some p' ∧ p'.stage = .committed ∧ p'.err = p.err ∧ p'.tc = s.tb ∧ p'.deps = p.deps ∧ p'.bytes = p.bytes ∧
          p'.nop = (p.pred == some false || (p.pass != 0 && u.passNop))) ∧
        (∃ y, t.q? q = some y ∧ (u.cblen ≤ next → y.head = (p.sub + 1) % 2 ^ 32 ∧ y.cboff = 0) ∧
          (next < u.cblen → y.head = x.head ∧ y.cboff = next) ∧ y.tail = x.tail ∧ y.slot = x.slot) ∧
        (∀ g ∈ p.sigs, g.ok = true → hDie g.h = s.die → ∃ e ∈ t.syn.pend, e.idx = hIdx g.h ∧ e.value = g.n)) ∧
    (p.ref_ ≠ 0 → p.ref_ ≠ 7 → (∀ h ∈ pkHandles p, (s.pkHandle p h.1 h.2).isSome = true) → Completes (.packetCommit slot ext) s fun t =>
      (∃ p', t.pk? p.id = some p' ∧ p'.stage = .done ∧ p'.err = (if p.err = 0 then 7 else p.err) ∧ p'.awaits = []) ∧
      Recorded s t (fun r => r.cls = 5 ∧ r.cause = p.ref_ ∧ r.src = s.pkSlot p ∧ r.d0 = q + s.pkSubid p * 2 ^ 32 ∧
        r.d1 = p.off + pkType p.bytes * 2 ^ 32)) ∧
    (∀ h sg e, p.ref_ = 0 → pkHandles p = [(h, sg)] → s.pkHandle p h sg = some e → e ≠ 0 → Completes (.packetCommit slot ext) s fun t =>
      (∃ p', t.pk? p.id = some p' ∧ p'.stage = .done ∧ p'.err = (if p.err = 0 then 7 else p.err)) ∧
      Recorded s t (fun r => r.cls = 4 ∧ r.cause = 1 ∧ r.sub = e ∧ r.src = s.pkSlot p ∧ r.d0 = h))) ∧
  (∀ (s : State) (id : BitVec 32) (ext : List Host.Cell) (p : Pkt), s.pk? id.toNat = some p → p.stage = .done → s.wtAcked = true →
    (∃ x k, s.q? p.q = some x ∧ x.slot = some k) → (∀ y ∈ s.wsp.win, ∀ n, y.parent ≠ some (id.toNat, n)) → p.graph = none →
    Completes (.packetRetire id ext) s fun t => t.pk? id.toNat = none ∧
      (p.err ≠ 0 → ∃ y, t.q? p.q = some y ∧ (p.sub, id.toNat) ∈ y.failed) ∧
      (∀ g, p.sigs = [g] → g.ok = true → hDie g.h = s.die →
        SameObj (t.synObj (hIdx g.h)) ((s.synObj (hIdx g.h)).signal g.n (s.pkCode p g)))) ∧
  (∀ (s : State) (slot : Fin 64) (q : Nat) (x : WspQ) (u : WspSub) (l : List WspSub), s.slotQ slot = some (q, x) → s.q? q = some x →
    x.slot = some slot.val → x.subs = u :: l → u.dl ≠ 0 → u.dl < s.tb →
    (u.missed = false → Completes (.queueDeadlineMiss slot) s fun t =>
      t.get R.WSP_DLMISS_COUNT = min (s.get R.WSP_DLMISS_COUNT + 1) (2 ^ 32 - 1) ∧
      (∃ y, t.q? q = some y ∧ y.dlmiss = min (2 ^ 32 - 1) (x.dlmiss + 1) ∧ (∃ v ∈ y.subs, v.idx = u.idx ∧ v.missed = true)) ∧
      Recorded s t (fun r => r.cls = 6 ∧ r.cause = s.missCause q u ∧ r.src = slot ∧ r.d0 = u.dl ∧ r.d1 = u.subid + q * 2 ^ 32)) ∧
    (u.missed = true → Completes (.queueDeadlineMiss slot) s fun t => t = s))

/-- Residency (R273, R274) and GRAPH_PATCH (R313, R314). -/
def Obligations.ResidencyAndGraphPatch : Prop :=
  (∀ (s : State) (ext : List Host.Cell) (q slot prio : Nat) (c : WspCtx) (l : List (Nat × WspCtx × Nat)),
    s.runnable ext = (q, c, prio) :: l → s.freeSlot = some slot → s.ctxRoom c.h = true → Completes (.queueMakeResident ext) s fun t =>
      (∃ y, t.q? q = some y ∧ y.slot = some slot ∧ y.ctx = c.h ∧ y.prio = prio ∧ y.tRes = s.tb ∧ y.evict = false ∧
        (∀ x, s.q? q = some x → y.head = x.head ∧ y.tail = x.tail ∧ y.cboff = x.cboff) ∧
        (s.q? q = none → y.head = s.recNat 2 q 0x14 4 ∧ y.tail = s.recNat 2 q 0x18 4 ∧ y.cboff = s.recNat 2 q 0x20 4)) ∧
      t.dtu.pasid.lookup slot = some c.pasid ∧ q ∉ t.wsp.runq ∧ (t.ctx? c.h).isSome = true ∧ t.wsp.win = s.wsp.win ∧ t.mem = s.mem) ∧
  (∀ (s : State) (ext : List Host.Cell) (q slot a : Nat) (x : WspQ), (s.wsp.qs.find? fun x => x.2.slot.isSome && x.2.evict) = some (q, x) →
    s.q? q = some x → x.slot = some slot → s.queueBlocks q = [] → (∀ e ∈ s.emb, e.2.pre = none) → s.RecOk 2 q a →
    Completes (.queueEvict ext) s fun t =>
      t.recNat 2 q 0x14 4 = x.head % 2 ^ 32 ∧ t.recNat 2 q 0x18 4 = x.tail % 2 ^ 32 ∧ t.recNat 2 q 0x20 4 = x.cboff % 2 ^ 32 ∧
      t.recNat 2 q 0x24 4 = x.dlmiss % 2 ^ 32 ∧ t.dtu.pasid.lookup slot = none ∧ (∀ y, t.q? q = some y → y.slot = none) ∧
      (x.head ≠ x.tail → q ∈ t.wsp.runq) ∧
      ∀ p ∈ t.wsp.win, p.q = q → p.stage ≠ .fetched ∧ p.stage ≠ .parsed ∧ p.pins = []) ∧
  (∀ (s : State) (id : BitVec 32) (ext : List Host.Cell) (p : Pkt), s.Runs id.toNat p → p.nop = false → pkType p.bytes = 6 →
    (∀ u, s.gRead p none ext = (u, .wait) → Completes (.graphPatch id ext) s fun t => t = u) ∧
    (∀ u, s.gRead p none ext = (u, .fail) → Completes (.graphPatch id ext) s fun t =>
      PkBecomes u t id.toNat { p.fail 2 with stage := .done }) ∧
    (∀ u h r m, s.gRead p none ext = (u, .ok (h, r, m)) →
      (patchGen h = none ∨ (gFree r).length < fieldOf p.bytes 24 4 → Completes (.graphPatch id ext) s fun t => t = u) ∧
      (∀ g v, patchGen h = some g → fieldOf p.bytes 24 4 ≤ (gFree r).length →
        let x := patchPlan r m (patchEntries p.bytes)
        u.patchTouch p ((gMap h g, 2 * gNodes h) :: x.2.2.map fun i => (gPool h i.1, 256)) ext = (v, .ok ()) →
        Completes (.graphPatch id ext) s fun t =>
          PkBecomes ((patchWrites (fieldOf p.bytes 16 8) h m g x).foldl (fun w b => w.gPut p b.1 b.2) v) t id.toNat
            { p with stage := .done }))) ∧
  (∀ (h : List Nat) (g : Nat), patchGen h = some g → g < 8 ∧ gLref h g = 0 ∧ g ≠ gCur h) ∧
  (∀ (r m img : List Nat) (n i : Nat) (old : Nat), m[n]? = some old → (∀ k ∈ m, ∃ c, r[k]? = some c ∧ c ≠ 0) → r[i]? = some 0 →
    (∀ j < i, r[j]? ≠ some 0) →
      let x := patchPlan r m [(n, img)]
      x.2.1 = m.set n i ∧ x.2.2 = [(i, img)] ∧ x.1[i]? = some 1 ∧ x.1.length = r.length ∧
      ∀ k, k ≠ i → k ∉ m → x.1[k]? = r[k]?)

/-- Blocks on Embers (R32 to R34, R54 to R57, R60, R93, R305, R315 to R320). -/
def Obligations.BlocksArePlacedAndEnd : Prop :=
  (∀ (s : State) (p : Pkt) (x : WspQ) (rest : List (Pkt × WspQ)) (e : Nat) (l : PkLaunch), s.claims = (p, x) :: rest → p.launch = some l →
    s.chooseEmb (s.emask (fieldOf p.bytes 0x3C 2)) (dispInfo p (x.slot.getD 0xFF) x.prio) = some e →
    Completes .blockPlacement s fun t =>
      (∃ b k, s.blk? e b = none ∧ t.blk? e b = some k ∧ k.info = dispInfo p (x.slot.getD 0xFF) x.prio ∧
        (k.bx, k.by_, k.bz) = dispBid p.bytes l.next ∧ k.cohorts.length = k.info.cohorts ∧ k.cal = [] ∧ k.term = none ∧
        ∀ n, n ≠ b → (t.blk? e n).isSome = (s.blk? e n).isSome) ∧
      t.pk? p.id = some { p with launch := some { l with next := l.next + 1, live := l.live + 1 } } ∧
      t.wsp.turn.lookup x.prio = some p.q ∧ t.mem = s.mem) ∧
  (∀ (s : State) (e : Fin 16) (b : Fin 32) (k : Block), s.blk? e b = some k →
    (k.info.kind ≠ .fragment → k.term = none → k.liveThreads = [] → k.copies = [] → k.pend = [] → (s.em e).ops b = [] →
      Completes (.blockRetire e b) s fun t =>
        (k.info.kind ≠ .kernel → t.blk? e b = none) ∧
        (∀ p l, k.info.kind = .compute → s.pk? k.info.pk = some p → p.launch = some l → ∃ p', t.pk? k.info.pk = some p' ∧
          p'.launch = some { l with live := l.live - 1 } ∧
          (p.stage = .running → l.live ≤ 1 → l.saved = 0 → (l.stop = true ∨ dispTotal p.bytes ≤ l.next) → p'.stage = .done))) ∧
    (∀ x : Term, k.term = some x → k.pend = [] → (s.em e).ops b = [] → Completes (.blockTermination e b none) s fun t =>
      t.blk? e b = none ∧
      (x.quiet = false → Recorded s t (fun r => r.cls = 1 ∧ r.cause = x.cause ∧ r.sub = x.sub ∧ r.src = e ∧ r.aux = x.aux ∧
        r.d0 = bitsOf x.pc 3 54 + x.coh * 2 ^ 54 + x.lane * 2 ^ 59)) ∧
      (x.cause = 1 → t.get R.EMB_ERR_REG_RANGE e = 1) ∧ (x.cause = 5 → t.get R.EMB_ERR_ILLEGAL e = 1)) ∧
    (∀ (slot : Fin 128) (w : DWord) (en : Entry) (pc : Nat), en.blk = b → opDefined (iOp w.toNat) = false →
      s.Issues e slot { w := w.toNat } en k pc → Completes (.blockTermination e b (some (slot, w))) s fun t =>
        ∃ y, t.blk? e b = some y ∧ y.term = some {
          cause := 5, sub := if iOp w.toNat = 0xFF then 6 else 1, pc, coh := (en.threads.headD (0, 0)).1, lane := (en.threads.headD (0, 0)).2 })) ∧
  (∀ (s : State) (prio e : Nat) (es : List Nat) (i : LInfo) (l : List (Nat × List Nat × LInfo)) (v : List (Nat × Block)) (g : List (Nat × Nat × Nat)),
    s.needs = (prio, es, i) :: l → s.flag R.WSP_CTL_PRE_EN = true → s.chooseEmb es i = none → s.offEmbers es = [] → es.head? = some e →
    (s.em e).pre = none → s.victims e prio i = some v → s.seats v = some g → Completes .preemptDecision s fun t =>
      (t.em e).pre = some { blks := g } ∧ (∀ n, n ≠ e → t.em n = s.em n) ∧ t = { s with emb := t.emb }) ∧
  (∀ (s : State) (e : Fin 16) (l : List (Nat × Nat × Nat)), (s.em e).pre = some { blks := l } → (∀ b ∈ l, ∃ k, s.blk? e b.1 = some k ∧ k.term = none) →
    Completes (.preemptRequest e) s fun t => (t.em e).pre = some { blks := l, got := true } ∧
      (∀ b ∈ l, (∀ y ∈ (t.em e).wants, y.1 ≠ b.1) ∧ (∀ y ∈ (t.em e).entries, y.2.blk ≠ b.1) ∧ ∃ k, t.blk? e b.1 = some k ∧ k.stopped = k.cohorts.map (·.1)) ∧
      t.mem = s.mem ∧ t.saved = s.saved) ∧
  (∀ (s : State) (e : Fin 16) (b ctx seg : Nat) (k : Block), (s.em e).pre = some { blks := [(b, ctx, seg)], got := true } →
    s.blk? e b = some k → k.term = none → (∀ a ∈ k.pend, a.issued = false) → (s.em e).ops b = [] →
    (s.saveOk [(k, s.segAddr ctx seg)] = true → Completes (.preemptSave e) s fun t =>
      t.blk? e b = none ∧ (t.em e).pre = none ∧ t.get R.WSP_PREEMPTS_COUNT = min (s.get R.WSP_PREEMPTS_COUNT + 1) (2 ^ 32 - 1) ∧
      ∃ v, t.saved = s.saved ++ [v] ∧ v.addr = s.segAddr ctx seg ∧ v.ctx = ctx ∧ v.seg = seg ∧ v.blk.info = k.info ∧ v.blk.pend = k.pend) ∧
    (s.saveOk [(k, s.segAddr ctx seg)] = false → Completes (.preemptSave e) s fun t =>
      (∃ y, t.blk? e b = some y ∧ y.term = some { cause := 6 }) ∧ t.saved = s.saved ∧ t.mem = s.mem)) ∧
  (∀ (s u : State) (e : Fin 16) (n : BitVec 16) (ext : List Host.Cell) (v : Saved) (w : WspQ) (k : Block) (q sl b : Nat),
    s.saved[n.toNat]? = some v → s.blockQ v.blk = some q → s.q? q = some w → w.slot = some sl → w.evict = false →
    (s.em e).freeBlock = some b → s.savedFits e v.blk = true → v.blk.info.kind ≠ .kernel → s.claims = [] →
    s.readSaved v ext = (u, k, true) → Completes (.blockRestore e n ext) s fun t =>
      t.saved = s.saved.eraseIdx n.toNat ∧ ∃ y, t.blk? e b = some y ∧ y.info = { k.info with stream := sl, prio := w.prio } ∧ y.term = none) ∧
  (∀ (s : State) (e : Fin 16) (since : Nat), s.get R.WSP_GATE_IDLE_US ≠ 0 → min (s.get R.WSP_GATE_MINON) s.embCount < s.embsOn.length →
    e.val ∈ s.embsOn → (s.em e).blocks = [] → s.wsp.idle.lookup e.val = some since →
    since + s.get R.WSP_GATE_IDLE_US * 100 ≤ s.tb → (∀ n, e.val < n → s.wsp.idle.lookup n = none) →
    Completes (.emberIdlePowerOff e) s fun t => t.pwr = { s.pwr with drains := s.pwr.drains ++ [16 + e.val] } ∧
      e.val ∉ t.wsp.wantOn ∧ t = { s with pwr := t.pwr, wsp := { s.wsp with wantOn := t.wsp.wantOn } })

/-- The integer instructions (R78, R79). -/
def Obligations.IntegerInstructions : Prop :=
  ∀ (s : State) (e : Fin 16) (slot : Fin 128) (w : BitVec 56),
    let run := fun (c : Instr) (op : Nat) (h : AluShape) => Computes c s e slot (word56 op w) h
    let m := modOf (word56 0 w)
    let sg := bitB m 9
    let clamp := fun (i : Int) => unsgn 32 (max (-2 ^ 31) (min (2 ^ 31 - 1) i))
    run (.iadd e slot w) 0x00 { use := mSgn + mSat } (fun a b _ => if bitB m 8 then
      (if sg then clamp (sgn 32 a + sgn 32 b) else min (a + b) (2 ^ 32 - 1)) else a + b) ∧
    run (.isub e slot w) 0x01 { use := mSgn + mSat } (fun a b _ => if bitB m 8 then
      (if sg then clamp (sgn 32 a - sgn 32 b) else a - b) else a + 2 ^ 32 - b) ∧
    run (.imul e slot w) 0x02 { use := mSgn + mHi } (fun a b _ => if bitB m 7 then
      (if sg then unsgn 32 (sgn 32 a * sgn 32 b / 2 ^ 32) else a * b / 2 ^ 32) else a * b) ∧
    run (.imad e slot w) 0x03 { nsrc := 3 } (fun a b c => a * b + c) ∧
    run (.imin e slot w) 0x04 { use := mSgn } (fun a b _ => if sg then (if sgn 32 a ≤ sgn 32 b then a else b) else min a b) ∧
    run (.imax e slot w) 0x05 { use := mSgn } (fun a b _ => if sg then (if sgn 32 b ≤ sgn 32 a then a else b) else max a b) ∧
    run (.iand e slot w) 0x06 {} (fun a b _ => a &&& b) ∧
    run (.ior e slot w) 0x07 {} (fun a b _ => a ||| b) ∧
    run (.ixor e slot w) 0x08 {} (fun a b _ => a ^^^ b) ∧
    run (.shl e slot w) 0x09 {} (fun a b _ => if b < 32 then a * 2 ^ b else 0) ∧
    run (.shr e slot w) 0x0A { use := mSgn } (fun a b _ => if sg then
      (if b < 32 then unsgn 32 (sgn 32 a / 2 ^ b) else if a < 2 ^ 31 then 0 else 2 ^ 32 - 1) else if b < 32 then a / 2 ^ b else 0) ∧
    run (.popc e slot w) 0x0B { ali := false, nsrc := 1 } (fun a _ _ => ((List.range 32).filter (bitB a)).length) ∧
    run (.clz e slot w) 0x0C { ali := false, nsrc := 1 } (fun a _ _ => if a = 0 then 32 else 31 - Nat.log2 a) ∧
    run (.bfe e slot w) 0x0D { use := mSgn } (fun a b _ =>
      let p := b % 2 ^ 8
      let n := b / 2 ^ 8 % 2 ^ 8
      if n = 0 then 0 else if sg then
        (if n < 32 then unsgn 32 (sgn n (unsgn 32 (sgn 32 a / 2 ^ p))) else unsgn 32 (sgn 32 a / 2 ^ p)) else a / 2 ^ p % 2 ^ n) ∧
    Decides (.setpI e slot w) s e slot (word56 0x0E w)
      (AluShape.ins { dst := false, use := 0x3C00 + mSgn } (word56 0x0E w)
        (badIf (setpZero (word56 0x0E w) true) 2 ++ badIf (6 ≤ setpCond (word56 0x0E w)) 8))
      (fun a b p =>
        let sg := if iF (word56 0x0E w) then bitB (word56 0x0E w) 45 else bitB (word56 0x0E w) 9
        let x : Int := if sg then sgn 32 a else a
        let y : Int := if sg then sgn 32 b else b
        if p = iD (word56 0x0E w) % 8 then some (match setpCond (word56 0x0E w) with
          | 0 => x = y | 1 => x ≠ y | 2 => x < y | 3 => x ≤ y | 4 => y < x | _ => y ≤ x) else none) ∧
    (∀ en k pc, s.Issues e slot (AluShape.ins { ali := false, use := 0xF, other := true } (word56 0x0F w)) en k pc →
      let v := word56 0x0F w
      Executes (.sel e slot w) s e en ((pc + 8) % 2 ^ 64) fun k' => WroteReg k k' (en.active k v) (iD v) fun t =>
        if k.pred t (v % 8) ≠ bitB v 3 then aOf v k t else bOf v k t)

/-- The floating-point instructions (R80, R81, R83, R84). -/
def Obligations.FloatingPointInstructions : Prop :=
  ∀ (s : State) (e : Fin 16) (slot : Fin 128) (w : BitVec 56),
    let run := fun (c : Instr) (op : Nat) (h : AluShape) => Computes c s e slot (word56 op w) h
    let m := modOf (word56 0 w)
    let r := Rnd.of (bitsOf m 8 2)
    let out := fun (f : Ffmt) (v : Fv) => let c := f.enc r (if bitB m 6 then v.sat else v)
      if bitB m 7 then f.flush c else c
    let both := fun (g : Nat → Nat → Nat → Nat) (a b c : Nat) =>
      g (a % 2 ^ 16) (b % 2 ^ 16) (c % 2 ^ 16) + 2 ^ 16 * g (a / 2 ^ 16) (b / 2 ^ 16) (c / 2 ^ 16)
    let A := fun (f : Ffmt) (x : Nat) => fopnd f (bitB m 7) (bitB m 2) (bitB m 5) x
    let B := fun (f : Ffmt) (x : Nat) => fopnd f (bitB m 7) (bitB m 1) (bitB m 4) x
    let C := fun (f : Ffmt) (x : Nat) => fopnd f (bitB m 7) false (bitB m 3) x
    run (.fadd e slot w) 0x10 { use := mFp } (fun a b _ => out f32 ((A f32 a).add r (B f32 b))) ∧
    run (.fmul e slot w) 0x11 { use := mFp } (fun a b _ => out f32 ((A f32 a).mul (B f32 b))) ∧
    run (.ffma e slot w) 0x12 { nsrc := 3, use := mFp + mNc } (fun a b c => out f32 (((A f32 a).mul (B f32 b)).add r (C f32 c))) ∧
    run (.fmin e slot w) 0x13 { use := mFp - mRnd } (fun a b _ => out f32 (Fv.minMax false (A f32 a) (B f32 b))) ∧
    run (.fmax e slot w) 0x14 { use := mFp - mRnd } (fun a b _ => out f32 (Fv.minMax true (A f32 a) (B f32 b))) ∧
    run (.frnd e slot w) 0x16 { ali := false, nsrc := 1, use := mRnd + mFtz + mFsat + 0x20 + 4 }
      (fun a _ _ => out f32 ((A f32 a).integral r)) ∧
    run (.hadd2 e slot w) 0x20 { use := mHp } (fun a b _ => both (fun x y _ => out f16 ((A f16 x).add r (B f16 y))) a b 0) ∧
    run (.hmul2 e slot w) 0x21 { use := mHp } (fun a b _ => both (fun x y _ => out f16 ((A f16 x).mul (B f16 y))) a b 0) ∧
    run (.hfma2 e slot w) 0x22 { nsrc := 3, use := mHp + mNc }
      (both fun x y z => out f16 (((A f16 x).mul (B f16 y)).add r (C f16 z))) ∧
    run (.hmin2 e slot w) 0x23 { use := mHp - mRnd } (fun a b _ => both (fun x y _ => out f16 (Fv.minMax false (A f16 x) (B f16 y))) a b 0) ∧
    run (.hmax2 e slot w) 0x24 { use := mHp - mRnd } (fun a b _ => both (fun x y _ => out f16 (Fv.minMax true (A f16 x) (B f16 y))) a b 0) ∧
    run (.hdot2 e slot w) 0x26 { ali := false, nsrc := 3, use := mFp + mNc } (fun a b c =>
      let x := fun (k : Nat) => (fopnd f16 false (bitB m 2) (bitB m 5) (a / k % 2 ^ 16)).mul (fopnd f16 false (bitB m 1) (bitB m 4) (b / k % 2 ^ 16))
      out f32 (((x 1).add r (x (2 ^ 16))).add r (C f32 c))) ∧
    (∀ en k pc, let v := word56 0x30 w
      s.Issues e slot (AluShape.ins { ali := false, nsrc := 1, use := 0x3FFF } v (cvtBad v)) en k pc →
      Executes (.cvt e slot w) s e en ((pc + 8) % 2 ^ 64) fun k' => WroteReg k k' (en.active k v) (iD v) fun t =>
        let st := bitsOf v 10 4
        let dt := bitsOf v 3 4
        let i := v % 8
        let x := if cvtWidth st < 32 then bitsOf (aOf v k t) (cvtWidth st * i) (cvtWidth st) else aOf v k t
        let y := cvtElem st dt (Rnd.of (bitsOf v 8 2)) (bitB v 7) x
        let d := k.rd t (iD v)
        let lo := cvtWidth dt * i
        if cvtWidth dt < 32 then d % 2 ^ lo + y * 2 ^ lo + d / 2 ^ (lo + cvtWidth dt) * 2 ^ (lo + cvtWidth dt) else y) ∧
    Decides (.setpF e slot w) s e slot (word56 0x15 w)
      (AluShape.ins { dst := false, use := 0x3C00 + mFtz + mNeg + mAbs } (word56 0x15 w) (setpFBad (word56 0x15 w)))
      (fun a b p => if p = iD (word56 0x15 w) % 8 then some (Fv.cond (setpCond (word56 0x15 w)) (A f32 a) (B f32 b)) else none) ∧
    Decides (.setpH2 e slot w) s e slot (word56 0x25 w)
      (AluShape.ins { dst := false, use := 0x3C00 + mNeg + mAbs } (word56 0x25 w)
        (setpFBad (word56 0x25 w) ++ badIf (iD (word56 0x25 w) % 8 % 2 = 1) 4))
      (fun a b p =>
        let c := setpCond (word56 0x25 w)
        if p = iD (word56 0x25 w) % 8 then some (Fv.cond c (A f16 (a % 2 ^ 16)) (B f16 (b % 2 ^ 16)))
        else if p = iD (word56 0x25 w) % 8 + 1 then some (Fv.cond c (A f16 (a / 2 ^ 16)) (B f16 (b / 2 ^ 16))) else none)

/-- Rounding (R80, R81), compared at one exponent. -/
def Obligations.RoundingIsCorrect : Prop :=
  ∀ (f : Ffmt) (n n' : Bool) (m m' : Nat) (e e' : Int), f ∈ [f32, f16, bf16] → m ≠ 0 →
    let q := f.ulpExp m e
    let c := min (min e q) e'
    let v := sMag n m e c
    let x := sMag n' m' e' c
    let u : Nat := 2 ^ (q - c).toNat
    (f.dec (f.enc .rne (.fin n m e)) = .fin n' m' e' → n' = n ∧ 2 * (v - x).natAbs ≤ u ∧ (2 * (v - x).natAbs = u → f.enc .rne (.fin n m e) % 2 = 0)) ∧
    (f.dec (f.enc .rtz (.fin n m e)) = .fin n' m' e' → n' = n ∧ (f.enc .rtz (.fin n m e) % 2 ^ (f.eb + f.mb) ≠ f.maxCode → x.natAbs ≤ v.natAbs ∧ v.natAbs < x.natAbs + u)) ∧
    (f.dec (f.enc .rdn (.fin n m e)) = .fin n' m' e' → n' = n ∧ (f.enc .rdn (.fin n m e) % 2 ^ (f.eb + f.mb) ≠ f.maxCode → x ≤ v ∧ v - x < u)) ∧
    (f.dec (f.enc .rup (.fin n m e)) = .fin n' m' e' → n' = n ∧ (f.enc .rup (.fin n m e) % 2 ^ (f.eb + f.mb) ≠ f.maxCode → v ≤ x ∧ x - v < u))

/-- The special functions (R82), the moves and the predicate instructions (R76 class 0xB). -/
def Obligations.SpecialFunctionsAndMoves : Prop :=
  (∀ (s : State) (e : Fin 16) (slot : Fin 128) (w : BitVec 56),
    (∀ x ∈ [(Instr.rcp e slot w, 0x40, Sfu.rcp), (.rsq e slot w, 0x41, .rsq), (.sqrt e slot w, 0x42, .sqrt), (.exp2 e slot w, 0x43, .exp2),
        (.log2 e slot w, 0x44, .log2), (.sin e slot w, 0x45, .sin), (.cos e slot w, 0x46, .cos), (.tanh e slot w, 0x47, .tanh)],
      ∀ en k pc, let v := word56 x.2.1 w
        s.Issues e slot (AluShape.ins { ali := false, nsrc := 1 } v) en k pc → Completes x.1 s fun t =>
          ∃ (k' : Block) (g : Thr → Nat), WroteReg k k' (en.active k v) (iD v) (fun y => x.2.2.eval (aOf v k y) (g y)) ∧ (∀ y, g y < 2 ^ 32) ∧
            Goes { s with fresh := s.fresh + (en.active k v).length } t e en ((pc + 8) % 2 ^ 64) k') ∧
    (let v := word56 0xB0 w;
      Computes (.mov e slot w) s e slot v { nsrc := if iF v then 0 else 1 } fun a b _ => if iF v then b else a) ∧
    (∀ en k pc, let v := word56 0xB4 w
      s.Issues e slot (AluShape.ins { ali := false, nsrc := 0, other := true } v) en k pc →
        Executes (.p2r e slot w) s e en ((pc + 8) % 2 ^ 64) fun k' => WroteReg k k' (en.active k v) (iD v) fun t => (k.coh t.1).preds t.2) ∧
    (∀ en k pc, let v := word56 0xB5 w
      s.Issues e slot (AluShape.ins { nsrc := 1, dst := false } v (badIf (!iF v) 1 ++ badIf (iD v ≠ 0 || iImm v / 256 ≠ 0) 2)) en k pc →
        Executes (.regToPredicate e slot w) s e en ((pc + 8) % 2 ^ 64) fun k' => WrotePred k k' (en.active k v) fun t p =>
          if p < 8 ∧ bitB (iImm v) p then some (bitB (aOf v k t) p) else none) ∧
    (∀ en k pc, let v := word56 0xB3 w
      s.Issues e slot { w := v, bad := plopBad v } en k pc →
        Executes (.plop e slot w) s e en ((pc + 8) % 2 ^ 64) fun k' => WrotePred k k' (en.active k v) fun t p =>
          let x := k.pred t (iA v % 8) != bitB (iA v) 3
          let y := k.pred t (iB v % 8) != bitB (iB v) 3
          if p = iD v % 8 then some (if iMod v = 0 then x && y else if iMod v = 1 then x || y else x != y) else none) ∧
    (∀ en k pc, let v := word56 0x76 w
      s.Issues e slot (AluShape.ins { ali := false, nsrc := 0, dst := false } v (badIf (iD v ≠ 0) 2)) en k pc →
        Executes (.nop e slot w) s e en ((pc + 8) % 2 ^ 64) (· = k))) ∧
  (∀ fr : Nat, (∀ f ∈ [Sfu.rcp, .rsq, .sqrt, .exp2, .log2, .sin, .cos, .tanh], f.eval 0x7FC00001 fr = 0x7FC00000) ∧
    Sfu.rcp.eval 0x80000000 fr = 0xFF800000 ∧ Sfu.rcp.eval 0x7F800000 fr = 0 ∧ Sfu.rsq.eval 0 fr = 0x7F800000 ∧
    Sfu.sqrt.eval 0xBF800000 fr = 0x7FC00000 ∧ Sfu.log2.eval 0 fr = 0xFF800000 ∧ Sfu.exp2.eval 0xFF800000 fr = 0 ∧ Sfu.exp2.eval 0 fr = 0x3F800000 ∧
    Sfu.cos.eval 0 fr = 0x3F800000 ∧ Sfu.tanh.eval 0xFF800000 fr = 0xBF800000)

/-- ld, st, prf, fence and the L1 (R85 to R88, R154 to R166, R216, R351). -/
def Obligations.LoadsStoresAndFences : Prop :=
  (∀ (s : State) (e : Fin 16) (slot : Fin 128) (w : BitVec 56) (en : Entry) (k : Block) (pc : Nat),
    (let v := word56 0x50 w;
      s.Performs e slot (memIns v) (memFault v (memOff v) (memSize v)) en k pc →
      Completes (.ld e slot w) s fun t =>
        t = (((en.active k v).foldl (fun u x => u.ldThread e en.blk v x) s).nextPc e slot pc 1).issued e slot en) ∧
    (let v := word56 0x51 w;
      s.Performs e slot (memIns v) (memFault v (memOff v) (memSize v)) en k pc →
      (memSpace v ≠ 1 → NoneOut k (en.active k v) (fun x a => a.hits (memVa k v (memOff v) x) (memSize v)) ∧
        ∀ y ∈ en.active k v, ∀ c ∈ k.copies, c.coh = y.1 → c.lane = y.2 → c.hits (memVa k v (memOff v) y) (memSize v) = false) →
      Completes (.st e slot w) s fun t =>
        t = (((en.active k v).foldl (fun u x => u.stThread e en.blk v x) s).nextPc e slot pc 1).issued e slot en) ∧
    (let v := word56 0x52 w;
      ∀ ext : List Host.Cell, s.Issues e slot (memIns v) en k pc → Completes (.prf e slot w ext) s fun t =>
        (s.flag R.DTU_CTL_ACEN = false → t.mem = s.mem) ∧
        ∃ x, t.blk? e en.blk = some x ∧ SameData (en.parts.foldl (fun k p => k.cohMod p.1 fun c => c.setPcs p.2 ((pc + 8) % 2 ^ 64)) k) x) ∧
    (let v := word56 0xB2 w;
      let scope := bitsOf v 0 2;
      let kind := bitsOf v 4 2;
      s.Issues e slot { w := v, bad := fenceBad v } en k pc → en.active k v ≠ [] →
      NoneOut k (en.active k v) (fun _ a => kind != 1 || (match a.k with | .store _ => false | _ => true)) →
      (kind ≠ 1 → scope ≥ 2 → s.wtAcked = true) → Completes (.fence e slot w) s fun t =>
        (kind ≠ 2 → scope ≥ 2 → (t.em e).l1 = []) ∧ (kind ≠ 1 → scope = 3 → t.out = s.out ++ [.hostRead 0 0]) ∧
        (kind = 1 ∨ scope ≠ 3 → t.out = s.out) ∧ t.mem = s.mem ∧
        ∃ x, t.blk? e en.blk = some x ∧ SameData (en.parts.foldl (fun k p => k.cohMod p.1 fun c => c.setPcs p.2 ((pc + 8) % 2 ^ 64)) k) x)) ∧
  (∀ (s : State) (e b v : Nat) (x : Thr) (k : Block), s.blk? e b = some k →
    let size := memSize v
    let a := memEa k v (memOff v) x
    let val := fun (bs : List Nat) => if memSx v then unsgn 32 (sgn (8 * size) (ofBytes bs)) else ofBytes bs
    (memSpace v = 1 → BlockIs s (s.ldThread e b v x) e b (k.wrGroup x (memDv v) (val (bytesAt 0 k.cal a size)) ((size + 3) / 4))) ∧
    (memSpace v = 2 → (k.infoOf x.1).csize ≤ a →
      BlockIs s (s.ldThread e b v x) e b (k.wrGroup x (memDv v) 0 ((size + 3) / 4))) ∧
    (memSpace v ≠ 1 → memSpace v ≠ 2 → BlockIs s (s.ldThread e b v x) e b { k with pend := k.pend ++ [{
        id := (s.em e).nextId, coh := x.1, lane := x.2, va := a, n := size, hint := memHint v
        k := .load (memDv v) ((size + 3) / 4) size (memSx v) }] } ∧
      ((s.ldThread e b v x).em e).nextId = (s.em e).nextId + 1) ∧
    (k.helper x = true → s.stThread e b v x = s) ∧
    (k.helper x = false → memSpace v = 1 → BlockIs s (s.stThread e b v x) e b
      { k with cal := putBytes 0 k.cal a (toBytes size (k.rdGroup x (memDv v) ((size + 3) / 4))) }) ∧
    (k.helper x = false → memSpace v = 0 → ∀ p ta u,
      s.vaNow (accId e (s.em e).nextId) k.info.stream a .store = (u, some ta) → u.outLoc ta = .loc p → (∀ c, ta ≠ .err c) →
      s.locStatus (.loc p) = .ok → s.NoPoison → (∀ y ∈ k.pend, y.id ≠ (s.em e).nextId) →
      let t := s.stThread e b v x
      bytesAt 0 t.mem p size = toBytes size (k.rdGroup x (memDv v) ((size + 3) / 4)) ∧ t.blk? e b = some k)) ∧
  (∀ (s u r : State) (e : Fin 16) (id : BitVec 32) (ext : List Host.Cell) (b : Nat) (k : Block) (a : PendAcc) (dv n size : Nat) (sx : Bool) (l : Loc)
      (bs : List Nat), s.accFind e id.toNat = some (b, k, a) → s.blk? e b = some k → k.accBlocked a = false → a.k = .load dv n size sx →
    s.accLoc e id.toNat k.info.pk k.info.stream a.va .load = (u, some (some l)) →
    u.embRead e .ember l a.n a.hint k.info.stream (bytesAt 0 ext (lineOf a.va) 128) = (r, .got bs 0) →
    Completes (.loadCompletion e id ext) s fun t => t.blk? e b = some
      ({ k with pend := k.pend.filter fun p => p.id != id.toNat }.wrGroup (a.coh, a.lane) dv
        (loadVal size sx (bs ++ List.replicate (size - a.n) 0)) n) ∧
      (s.flag R.DTU_CTL_ACEN = false → t.mem = s.mem)) ∧
  (∀ (s : State) (e : Nat) (l : Loc) (n hint stream : Nat) (ext : List Nat) (key : Bool × Nat) (x : L1Line), s.lineKey l = some key →
    (s.em e).l1Find key = some x → (s.embRead e .ember l n hint stream ext).2 = .got ((x.data.drop l.off).take n) 0) ∧
  (∀ (s : State) (m : Master) (e : Fin 16), s.Serves m (0x1000200 + 0x10000 * e) → Completes (.l1Invalidate m e) s fun t =>
    (t.em e).l1 = [] ∧ (t.em e).blocks = (s.em e).blocks ∧ (∀ n, n ≠ e.val → t.em n = s.em n) ∧ t = { s.begun m with emb := t.emb })

/-- Atomics (R89, R90, R157 to R159, R177). -/
def Obligations.AtomicsAndTheirCompletion : Prop :=
  (∀ (s : State) (e : Fin 16) (slot : Fin 128) (w : BitVec 56) (en : Entry) (k : Block) (pc : Nat),
    ∀ x ∈ [(Instr.atomAdd e slot w, 0), (.atomMin e slot w, 1), (.atomMax e slot w, 2), (.atomAnd e slot w, 3), (.atomOr e slot w, 4),
        (.atomXor e slot w, 5), (.atomExch e slot w, 6), (.atomCas e slot w, 7), (.atomFadd e slot w, 8), (.atomInc e slot w, 9)],
      let v := word56 (0x60 + x.2) w
      let act := en.active k v
      s.Performs e slot (atmIns v) (memFault v 0 (if atmW64 v then 8 else 4)) en k pc → memSpace v = 1 →
      (2 ≤ atmOrder v → NoneOut k act (fun _ _ => true)) →
      Completes x.1 s fun t => t = ((act.foldl (fun u y => u.atmThread e en.blk v y) s).nextPc e slot pc 1).issued e slot en) ∧
  (∀ (s : State) (e : Fin 16) (slot : Fin 128) (w : BitVec 56) (en : Entry) (k : Block) (pc : Nat) (y : Thr),
    ∀ x ∈ [(Instr.atomAdd e slot w, 0), (.atomMin e slot w, 1), (.atomMax e slot w, 2), (.atomAnd e slot w, 3), (.atomOr e slot w, 4),
        (.atomXor e slot w, 5), (.atomExch e slot w, 6), (.atomCas e slot w, 7), (.atomFadd e slot w, 8), (.atomInc e slot w, 9)],
      let v := word56 (0x60 + x.2) w
      let n := if atmW64 v then 8 else 4
      let a := memEa k v 0 y
      s.Performs e slot (atmIns v) (memFault v 0 n) en k pc → memSpace v = 0 → atmOrder v < 2 → en.active k v = [y] → k.helper y = false →
      k.pend = [] → k.copies = [] → s.accFind e (s.em e).nextId = none → ∀ p ta u, s.vaNow (accId e (s.em e).nextId) k.info.stream a .atomic = (u, some ta) → (∀ c, ta ≠ .err c) →
        u.outLoc ta = .loc p → s.locStatus (.loc p) = .ok → s.NoPoison → Completes x.1 s fun t =>
          let old := ofBytes (bytesAt 0 s.mem p n)
          ofBytes (bytesAt 0 t.mem p n) = atomNew x.2 (atmW64 v) (atmSgn v) old (k.rdGroup y (iB v) (n / 4)) (k.rdGroup y (iC v) (n / 4)) % 2 ^ (8 * n) ∧
          (∀ q, q < p ∨ p + n ≤ q → byteAt 0 t.mem q = byteAt 0 s.mem q) ∧
          ∃ k', t.blk? e en.blk = some k' ∧ k'.pend = [] ∧ (atmRet v = true → memDv v < 0x100 → k'.rdGroup y (memDv v) (n / 4) = old)) ∧
  (∀ (s : State) (e b v : Nat) (y : Thr) (k : Block), s.blk? e b = some k → k.helper y = false → memSpace v = 1 →
    let n := if atmW64 v then 2 else 1
    let a := memEa k v 0 y
    let old := ofBytes (bytesAt 0 k.cal a (4 * n))
    let k' := { k with cal := putBytes 0 k.cal a (toBytes (4 * n)
      (atomNew (iOp v % 16) (atmW64 v) (atmSgn v) old (k.rdGroup y (iB v) n) (k.rdGroup y (iC v) n))) }
    BlockIs s (s.atmThread e b v y) e b (if atmRet v then k'.wrGroup y (memDv v) old n else k')) ∧
  (∀ (w64 sg : Bool) (x b c : Nat), let w := if w64 then 64 else 32
    x < 2 ^ w → b < 2 ^ w →
    let le := fun (p q : Nat) => if sg then sgn w p ≤ sgn w q else p ≤ q
    atomNew 0 w64 sg x b c = (x + b) % 2 ^ w ∧ (le x b → atomNew 1 w64 sg x b c = x ∧ (¬ le b x → atomNew 2 w64 sg x b c = b)) ∧
    (¬ le x b → atomNew 1 w64 sg x b c = b ∧ atomNew 2 w64 sg x b c = x) ∧ atomNew 3 w64 sg x b c = x &&& b ∧ atomNew 4 w64 sg x b c = x ||| b ∧
    atomNew 5 w64 sg x b c = x ^^^ b ∧ atomNew 6 w64 sg x b c = b ∧ (x = c → atomNew 7 w64 sg x b c = b) ∧ (x ≠ c → atomNew 7 w64 sg x b c = x) ∧
    (x < b → atomNew 9 w64 sg x b c = x + 1) ∧ (b ≤ x → atomNew 9 w64 sg x b c = 0) ∧
    (∀ (n n' : Int) (m m' : Nat) (i j : Bool), f32.dec x = .fin i m n → f32.dec b = .fin j m' n' →
      atomNew 8 false false x b c = f32.enc .rne ((Fv.fin i m n).add .rne (.fin j m' n')))) ∧
  (∀ (s : State) (e : Fin 16) (id : BitVec 32) (old : DWord) (b : Nat) (k : Block) (a : PendAcc) (op dv n : Nat) (sg ret : Bool) (x y : Nat) (l : Loc),
    s.accFind e id.toNat = some (b, k, a) → s.blk? e b = some k → a.k = .atomic op dv n sg x y ret → a.loc = some l → a.acq = false →
    let left := { k with pend := k.pend.filter fun p => p.id != id.toNat }
    Completes (.atomicCompletion e id old true) s (fun t => BlockIs s t e b (if ret then left.wrGroup (a.coh, a.lane) dv old.toNat n else left) ∧ t = { s with emb := t.emb, sin := t.sin }) ∧
    Completes (.atomicCompletion e id old false) s (fun t => BlockIs s t e b (if ret then left.wrGroup (a.coh, a.lane) dv (2 ^ (32 * n) - 1) n else left) ∧
      ((s.gfx.passes.any fun p => p.id == k.info.pk) = false → ∀ p, s.pk? k.info.pk = some p → p.err = 0 →
        ∃ p', t.pk? k.info.pk = some p' ∧ p'.err = 4)))

/-- Control flow (R40, R91 to R93) and block barriers (R53). -/
def Obligations.BranchesExitsAndBarriers : Prop :=
  ∀ (s : State) (e : Fin 16) (slot : Fin 128) (w : BitVec 56) (en : Entry) (k : Block) (pc : Nat),
    let next := (pc + 8) % 2 ^ 64
    (let v := word56 0x70 w;
      s.Issues e slot { w := v, bad := badIf (bitsOf v 0 3 ≠ 0) 2 } en k pc → Completes (.bra e slot w) s fun t =>
        Lands s t e en k fun y => if y ∈ en.active k v
          then unsgn 64 (((pc + 8) % 2 ^ 64 : Nat) + 8 * sgn 24 (bitsOf v 27 23 + 2 ^ 23 * bitsOf v 50 1)) else next) ∧
    (∀ x ∈ [(Instr.brx e slot w, 0x71), (.ret e slot w, 0x73)],
      let v := word56 x.2 w
      let o : Opnd := { sel := iA v, n := 2 }
      s.Performs e slot { w := v, ops := [o], bad := badIf (!iF v) 1 ++ badIf (iD v ≠ 0) 2 ++ o.bad }
        (fun k t => if k.rdGroup t (iA v) 2 % 8 ≠ 0 then some (xIll 0xC) else none) en k pc → Completes x.1 s fun t =>
          Lands s t e en k fun y => if y ∈ en.active k v then k.rdGroup y (iA v) 2 else next) ∧
    (let v := word56 0x72 w;
      let o : Opnd := { sel := iD v, n := 2 };
      s.Issues e slot { w := v, ops := [o], bad := badIf (!iF v) 1 ++ badIf (iA v ≠ 0) 2 ++ badIf (selIsU (iD v)) 5 ++ o.bad } en k pc →
        Completes (.call e slot w) s fun t => ∃ k', (∀ y ∈ en.active k v, iD v < 0x100 → k'.rdGroup y (iD v) 2 = next) ∧
          (∀ y r, y.2 < 32 → (y ∈ en.active k v → r ≠ iD v ∧ r ≠ iD v + 1) → k'.rd y r = k.rd y r) ∧ (∀ y p, k'.pred y p = k.pred y p) ∧ k'.cal = k.cal ∧
          Lands s t e en k' fun y => if y ∈ en.active k v
            then unsgn 64 (((pc + 8) % 2 ^ 64 : Nat) + 8 * sgn 32 (iImm v)) else next) ∧
    (let v := word56 0x74 w;
      s.Issues e slot { w := v, bad := badIf (iF v) 1 ++ badIf (bitsOf v 0 50 ≠ 0) 2 } en k pc →
        Apart (s.em e) k en.blk (en.active k v) → Completes (.exit e slot w) s fun t =>
          ∃ x, t.blk? e en.blk = some x ∧ ∀ y ∈ en.active k v, (x.coh y.1).lane y.2 = .dead) ∧
    (let v := word56 0x75 w;
      let n := bitsOf v 0 4;
      s.Issues e slot { w := v, bad := badIf (!iF v) 1 ++ badIf (iD v ≠ 0 || iA v ≠ 0 || bitsOf v 4 28 ≠ 0) 2 } en k pc →
        NoneOut k (en.active k v) (fun _ _ => true) → en.active k v = en.threads → (∀ y ∈ en.threads, (k.coh y.1).lane y.2 = .run) →
        Apart (s.em e) k en.blk en.threads →
        ((∃ z ∈ k.liveThreads, z ∉ en.threads ∧ (k.coh z.1).lane z.2 ≠ .bar n) → Completes (.barBlock e slot w) s fun t =>
          ∃ x, t.blk? e en.blk = some x ∧ ∀ y ∈ en.threads, (x.coh y.1).lane y.2 = .bar n ∧ x.pcOf y = next) ∧
        ((∀ z ∈ k.liveThreads, z ∈ en.threads) → k.bars = [] → k.stopped = [] → (s.em e).wants = [] → Completes (.barBlock e slot w) s fun t =>
          ∃ x, t.blk? e en.blk = some x ∧ x.bars = [] ∧ ∀ y ∈ en.threads, (x.coh y.1).lane y.2 ≠ .bar n ∧ x.pcOf y = next)) ∧
    (let v := word56 0x77 w;
      s.Issues e slot { w := v, bad := badIf (!iF v) 1 ++ badIf (iD v ≠ 0 || iA v ≠ 0 || bitsOf v 16 16 ≠ 0) 2 } en k pc →
        (∀ y l, en.active k v = y :: l → Completes (.trap e slot w) s fun t => ∃ x, t.blk? e en.blk = some x ∧
          x.term = some { cause := 5, sub := 0xD, aux := bitsOf v 0 16, pc, coh := y.1, lane := y.2 } ∧ ∀ g ∈ (t.em e).entries, g.2.blk ≠ en.blk) ∧
        (en.active k v = [] → Executes (.trap e slot w) s e en next (· = k)))

/-- What the schedulers do (R38, R40, R41, R45, R51). -/
def Obligations.SchedulersOfAnEmber : Prop :=
  (∀ (s : State) (e : Fin 16) (b c : Fin 32) (k : Block) (l : List Level) (v : Level), s.blk? e b = some k → k.term = none → c.val ∉ k.stopped →
    s.embOn e = true → (k.coh c).levels = l ++ [v] →
    let live := v.mask &&& (k.coh c).live
    (v.held = [] → (∀ y ∈ lanesOf live, (k.coh c).lane y = .recon ∧ (k.coh c).pc y = v.addr) → Completes (.reconvergence e b c) s fun t =>
      ∃ x, t.blk? e b = some x ∧ (x.coh c).levels = l ∧ ∀ y ∈ lanesOf live, (x.coh c).pc y = v.addr ∧
        ((x.coh c).lane y = .run ∨ (x.coh c).lane y = .want ∨ ((x.coh c).lane y = .recon ∧ ∃ u ∈ l, u.addr = v.addr))) ∧
    (∀ m a r, v.held = (m, a) :: r → (∀ y ∈ lanesOf live, (∃ h ∈ v.held, bitB h.1 y = true) ∨ ((k.coh c).lane y = .recon ∧ (k.coh c).pc y = v.addr)) →
      Completes (.reconvergence e b c) s fun t => ∃ x, t.blk? e b = some x ∧ (x.coh c).levels = l ++ [{ v with held := r }] ∧
        ∀ y ∈ lanesOf (m &&& (k.coh c).live), (x.coh c).pc y = a)) ∧
  (∀ (s : State) (e : Fin 16) (sched : Fin 4) (c : Nat × Entry × Nat) (cs : List (Nat × Entry × Nat)) (i : Nat) (en : Entry)
      (rest : List (Nat × Entry)), s.embOn e = true → s.flag R.EMB_CTL_REPACK_EN e = true → (s.em e).wants = [] →
    (s.em e).repackable sched = c :: cs →
    packOf ((c :: cs).filter fun d => d.2.2 == c.2.2 && d.2.1.blk == c.2.1.blk) = (i, en) :: rest → rest ≠ [] → i ∉ rest.map (·.1) →
    let parts := mergeParts (en.parts ++ rest.flatMap (·.2.parts))
    max 2 (min 32 (s.get R.EMB_CTL_REPACK_MIN e)) ≤ (parts.map fun p => popc 32 p.2).sum → Completes (.repack e sched) s fun t =>
      (t.em e).entries.lookup i = some { en with parts := parts } ∧ (∀ r ∈ rest, (t.em e).entries.lookup r.1 = none) ∧
      (t.em e).blocks = (s.em e).blocks ∧ t = { s with emb := t.emb, regs := t.regs }) ∧
  (∀ (s : State) (e : Fin 16) (sched : Fin 4), (s.embOn e = false ∨ s.flag R.EMB_CTL_REPACK_EN e = false) → Completes (.repack e sched) s fun t => t = s) ∧
  (∀ (s : State) (e : Fin 16) (slot : Fin 128) (en : Entry), s.embOn e = true → (s.em e).entries.lookup slot.val = some en →
    Completes (.issueAgeLimit e slot) s fun t => (t.em e).first.lookup (slot.val / 32) = some slot.val ∧
      (∀ n, n ≠ slot.val / 32 → (t.em e).first.lookup n = (s.em e).first.lookup n) ∧
      (t.em e).entries = (s.em e).entries ∧ (t.em e).blocks = (s.em e).blocks ∧ t = { s with emb := t.emb }) ∧
  (∀ (s : State) (e : Fin 16) (b c : Fin 32) (k : Block) (l : Nat), s.blk? e b = some k → k.term = none → c.val ∉ k.stopped →
    ((k.coh c).deadlock = some l → Completes (.cohortDeadlock e b c) s fun t => ∃ x, t.blk? e b = some x ∧
      x.term = some { cause := 2, pc := (k.coh c).pc l, coh := c, lane := l } ∧ ∀ g ∈ (t.em e).entries, g.2.blk ≠ b) ∧
    ((k.coh c).deadlock = none → Completes (.cohortDeadlock e b c) s fun t => t = s))

/-- Collectives of the founding cohort (R94 to R98). -/
def Obligations.CollectivesOfACohort : Prop :=
  (∀ (s : State) (e : Fin 16) (slot : Fin 128) (w : BitVec 56) (en : Entry) (k : Block) (pc : Nat),
    let next := (pc + 8) % 2 ^ 64
    let parts := fun (v : Nat) (y : Thr) => lanesOf (collMask v k y &&& (k.coh y.1).live)
    (∀ x ∈ [(Instr.shfl e slot w, 0x80, shflIns), (.ballot e slot w, 0x82, ballotIns), (.red e slot w, 0x83, redIns),
        (.scan e slot w, 0x84, redIns), (.matchLanes e slot w, 0x85, matchIns)],
      let v := word56 x.2.1 w
      s.Issues e slot (x.2.2 v) en k pc → Gathers k en v → Completes x.1 s fun t => ∃ k',
        WroteReg k k' (en.active k v) (iD v) (fun y => ((collVals v (k.coh y.1) (parts v y)).lookup y.2).getD 0) ∧ Lands s t e en k' fun _ => next) ∧
    (let v := word56 0x81 w;
      s.Issues e slot (voteIns v) en k pc → Gathers k en v → Completes (.vote e slot w) s fun t => ∃ k',
        WrotePred k k' (en.active k v) (fun y p => if p = iD v ∧ p ≠ 7 then some (voteVal v (k.coh y.1) (parts v y)) else none) ∧
        Lands s t e en k' fun _ => next)) ∧
  ∀ (c : Cohort) (w : BitVec 56) (m l : Nat), l ∈ lanesOf m →
    let parts := lanesOf m
    let got := fun (v : Nat) => ((collVals v c parts).lookup l).getD 0
    (let v := word56 0x80 w;
      let n := if bitsOf v 9 3 = 0 then 32 else 2 ^ bitsOf v 9 3;
      let base := l - l % n;
      let b := c.rd l (iB v);
      let src : Int := [((base + b % n : Nat) : Int), (l : Int) - b, ((l + b : Nat) : Int), ((l ^^^ b : Nat) : Int)].getD (bitsOf v 12 2) 0;
      ((base : Int) ≤ src → src < ((base + n : Nat) : Int) → src.toNat ∈ parts → got v = c.rd src.toNat (iA v)) ∧
      (src < (base : Int) ∨ ((base + n : Nat) : Int) ≤ src ∨ src.toNat ∉ parts → got v = c.rd l (iA v))) ∧
    (let v := word56 0x81 w;
      let h := fun q => (c.pred q (iA v % 8) != bitB v 35);
      (bitsOf v 12 2 = 0 → (voteVal v c parts = true ↔ ∀ q ∈ parts, h q = true)) ∧
      (bitsOf v 12 2 = 1 → (voteVal v c parts = true ↔ ∃ q ∈ parts, h q = true)) ∧
      (bitsOf v 12 2 = 2 → (voteVal v c parts = true ↔ ∃ b, ∀ q ∈ parts, h q = b))) ∧
    (let v := word56 0x82 w; ∀ j, bitB (got v) j = true ↔ j ∈ parts ∧ (c.pred j (iA v % 8) != bitB v 35) = true) ∧
    (let v := word56 0x85 w; ∀ j, bitB (got v) j = true ↔ j ∈ parts ∧ c.rd j (iA v) = c.rd l (iA v)) ∧
    (let v := word56 0x83 w;
      let a := fun q => c.rd q (iA v);
      (redType v ≠ 2 → redOp v = 0 → got v = (parts.map a).sum % 2 ^ 32) ∧
      (redType v = 0 → redOp v = 1 → (∃ q ∈ parts, got v = a q) ∧ ∀ q ∈ parts, got v ≤ a q) ∧
      (redType v = 0 → redOp v = 2 → (∃ q ∈ parts, got v = a q) ∧ ∀ q ∈ parts, a q ≤ got v) ∧
      (redType v = 1 → redOp v = 1 → (∃ q ∈ parts, got v = a q) ∧ ∀ q ∈ parts, sgn 32 (got v) ≤ sgn 32 (a q)) ∧
      (redType v = 1 → redOp v = 2 → (∃ q ∈ parts, got v = a q) ∧ ∀ q ∈ parts, sgn 32 (a q) ≤ sgn 32 (got v)) ∧
      (redType v ≠ 2 → redOp v = 3 → ∀ j < 32, bitB (got v) j = true ↔ ∀ q ∈ parts, bitB (a q) j = true) ∧
      (redType v ≠ 2 → redOp v = 4 → ∀ j < 32, bitB (got v) j = true ↔ ∃ q ∈ parts, bitB (a q) j = true) ∧
      (redType v ≠ 2 → redOp v = 5 → ∀ j < 32, bitB (got v) j = ((parts.filter fun q => bitB (a q) j).length % 2 == 1)) ∧
      (redType v = 2 → ∀ f : Nat → Nat → Nat, (∀ i < 32, f 0 i = if i ∈ parts then a i else [0x80000000, 0x7F800000, 0xFF800000].getD (redOp v) 0) →
        (∀ n i, f (n + 1) i = redStep (redOp v) 2 (f n i) (f n (i + 2 ^ n))) → redOp v < 3 → got v = f 5 0)) ∧
    (let v := word56 0x84 w;
      let a := fun q => c.rd q (iA v);
      redType v ≠ 2 → redOp v = 0 →
        got v = ((parts.filter fun q => decide (q < l) || (!bitB v 8 && q == l)).map a).sum % 2 ^ 32)

/-- Fragments (R126 to R129, R137) and the queues (R119, R141). -/
def Obligations.FragmentsAndQueuedTiles : Prop :=
  ∀ (s : State) (e : Fin 16) (slot : Fin 128) (w : BitVec 56) (en : Entry) (k : Block) (pc : Nat),
    (∀ c p, en.parts = [(c, p)] →
      let next := (pc + 8) % 2 ^ 64
      (let v := word56 0xDA w;
        let f := bitsOf v 10 4;
        let i0 : Thr := (c, (((en.active k v).map (·.2)).headD 0));
        s.Issues e slot (fragLdIns s v) en k pc → Gathers k en v → (en.active k v ≠ [] → fragFault v k i0 = none) →
          Completes (.fragLd e slot w) s fun t => ∃ k' g, WroteGroup k k' (en.active k v) (iD v) 4 g ∧ Lands s t e en k' (fun _ => next) ∧
            ∀ y ∈ en.active k v, ∀ i < fragDepth f / 2, bitsOf (g y) (i * tphBits f) (tphBits f) =
              let d := y.2 % 2 * (fragDepth f / 2) + i
              if bitB v 9 = bitB v 8 then k.calElem (k.rd y (iA v)) (k.rd y (iB v)) (tphBits f) (y.2 / 2) d
              else k.calElem (k.rd y (iA v)) (k.rd y (iB v)) (tphBits f) d (y.2 / 2)) ∧
      (let v := word56 0xDB w;
        let o := bitsOf v 10 4;
        let tile := k.cpy (iA v % 16) (bitB v 7);
        let word := fun (l j : Nat) => geyserVal ((AccW.ofShort (k.basGet tile (16 * (l / 2) + 8 * (l % 2) + j))).val (-48)) 0 (.fin false 1 0) (bitB v 6);
        let draws := fun (n : Nat) => (List.range n).foldl (fun (x : Nat × State) _ => x.2.tphDraw e) (0, s);
        let before := fun (l : Nat) => ((lanesOf p).filter (· < l)).length;
        s.Issues e slot (fragStIns v) en k pc → Gathers k en v → (en.active k v ≠ [] → basFault k (iA v % 16) 1 = none) →
          (s.em e).basWait en.blk [tile] [] = false → Completes (.fragSt e slot w) s fun t => ∃ k' g,
            WroteGroup k k' (en.active k v) (iD v) (outBits o / 4) g ∧
            (∃ x, t.blk? e en.blk = some x ∧ (∀ y ∈ en.threads, x.pcOf y = next) ∧ (∀ y r, x.rd y r = k'.rd y r) ∧
              (∀ y q, x.pred y q = k.pred y q) ∧ x.basin = k.basin) ∧ t = { s with emb := t.emb, regs := t.regs } ∧
            (bitsOf v 8 2 < 2 → t.get R.TPH_SEED_STATE e = s.get R.TPH_SEED_STATE e ∧ ∀ y ∈ en.active k v, ∀ j < 8,
              bitsOf (g y) (j * outBits o) (outBits o) = outElem o (Rnd.of (bitsOf v 8 2)) (word y.2 j)) ∧
            (bitsOf v 8 2 = 2 → en.active k v ≠ [] → t.get R.TPH_SEED_STATE e = (draws (8 * (lanesOf p).length)).2.get R.TPH_SEED_STATE e ∧
              ∀ y ∈ en.active k v, ∀ j < 8,
                bitsOf (g y) (j * outBits o) (outBits o) = outElem o (.sto (draws (8 * before y.2 + j + 1)).1) (word y.2 j))) ∧
      (let v := word56 0xD0 w;
        let af := bitsOf v 10 4;
        let bf := bitsOf v 6 4;
        let cost := [8, 8, 16, 32].getD (tphClass af) 0 + if af = 10 then 32 else 0;
        s.Issues e slot (mmfIns s v) en k pc → Gathers k en v → en.active k v ≠ [] → basFault k (iD v % 16) (if tphClass af = 3 then 5 else 1) = none →
          (s.em e).charge + cost + 24 ≤ 4096 → (s.em e).tq.length < 16 → Completes (.tmaMmf e slot w) s fun t => ∃ o x y,
            (t.em e).tq = (s.em e).tq ++ [o] ∧ (t.em e).gq = (s.em e).gq ∧ o.blk = en.blk ∧ o.coh = c ∧ o.grp = 0 ∧ o.started = false ∧ o.charge = cost + 24 ∧
            o.k = .mmf (k.dstTiles (iD v % 16) (tphClass af = 3)) (bitB v 5) af bf x y ∧ x.length = 16 ∧ y.length = 16 ∧
            (∀ u ∈ [(x, iA v, af), (y, iB v, bf)], ∀ r < 16, (u.1.getD r []).length = fragDepth u.2.2 ∧ ∀ i < fragDepth u.2.2,
              (u.1.getD r []).getD i 0 = let l := 2 * r + i / (fragDepth u.2.2 / 2)
                if l ∈ lanesOf p then bitsOf (k.rdGroup (c, l) u.2.1 4) (i % (fragDepth u.2.2 / 2) * tphBits u.2.2) (tphBits u.2.2) else 0) ∧
            Lands s t e en k fun _ => next)) ∧
    ∀ (w2 : DWord),
      let d := fun (op : Nat) => descOf (word56 op w) w2
      let next := (pc + 16) % 2 ^ 64
      ∀ x ∈ [(Instr.tmaMm e slot w w2, mmIns s (word56 0xC0 w) w2, mmFault (d 0xC0), mmOp (d 0xC0), false, 8 * (bitsOf (d 0xC0) 15 5 + 1)),
          (.accDrain e slot w w2, drainIns s (word56 0xC1 w) w2, drainFault (d 0xC1), drainOp (d 0xC1), true,
            (if bitsOf (d 0xC1) 10 4 = 13 then if bitB (d 0xC1) 9 then 160 else 32 else if bitB (d 0xC1) 9 then 64 else 16) * (bitsOf (d 0xC1) 4 4 + 1)),
          (.accCopy e slot w w2, accCopyIns (word56 0xC2 w) w2, accCopyFault (d 0xC2), accCopyOp (d 0xC2), true, 32 * (bitsOf (d 0xC2) 4 4 + 1))],
        let q := fun (y : Ember) => if x.2.2.2.2.1 then y.gq else y.tq
        let act := en.active k x.2.1.w
        s.Performs e slot x.2.1 x.2.2.1 en k pc →
          ((s.em e).charge + act.length * (x.2.2.2.2.2 + 24) ≤ 4096 → (q (s.em e)).length + act.length ≤ (if x.2.2.2.2.1 then 8 else 16) →
            Executes x.1 s e en next (· = k) ∧ Completes x.1 s fun t =>
              q (t.em e) = q (s.em e) ++ act.zipIdx.map fun y => { x.2.2.2.1 k en.blk y.1 with id := (s.em e).nextId + y.2 }) ∧
          (act ≠ [] → 4096 < (s.em e).charge + x.2.2.2.2.2 + 24 ∨ (q (s.em e)).length ≥ (if x.2.2.2.2.1 then 8 else 16) → Completes x.1 s fun t =>
            q (t.em e) = q (s.em e) ∧ t.blk? e en.blk = some k ∧ (t.em e).entries.lookup slot.val = some en ∧ t = { s with emb := t.emb })

/-- What queued operations do when they start (R111 to R118, R124, R125, R130 to R136). -/
def Obligations.TheArrayAndTheDrain : Prop :=
  -- one addition into a word
  (∀ (long : Bool) (a d : AccW),
    let r := (a.plus long d).1
    let hi : Int := (if long then 2 ^ 594 else 2 ^ 120) - 1
    (a.sat = true → r.v = a.v ∧ r.sat = true ∧ (a.plus long d).2 = false) ∧
    (a.sat = false → (-hi - 1 ≤ a.v + d.v ∧ a.v + d.v ≤ hi → r.v = a.v + d.v ∧ r.sat = false ∧ (a.plus long d).2 = false) ∧
      (a.v + d.v < -hi - 1 → r.v = -hi - 1 ∧ r.sat = true ∧ (a.plus long d).2 = true) ∧
      (hi < a.v + d.v → r.v = hi ∧ r.sat = true ∧ (a.plus long d).2 = true)) ∧
    r.pinf = (a.pinf || d.pinf) ∧ r.ninf = (a.ninf || d.ninf) ∧ r.nan = (a.nan || d.nan)) ∧
  -- one dot product
  (∀ (long : Bool) (l : List (Fv × Fv)),
    let d := dotAcc long (l.map (·.1)) (l.map (·.2))
    (d.nan = true ↔ ∃ p ∈ l, p.1.mul p.2 = .nan) ∧ (d.pinf = true ↔ ∃ p ∈ l, p.1.mul p.2 = .inf false) ∧
    (d.ninf = true ↔ ∃ p ∈ l, p.1.mul p.2 = .inf true) ∧ d.sat = false) ∧
  (∀ (long : Bool) (l : List (Int × Int)),
    dotAcc long (l.map fun p => Fv.ofInt p.1 0) (l.map fun p => Fv.ofInt p.2 0) =
      { v := (l.map fun p => p.1 * p.2).sum * 2 ^ (if long then 298 else 48) }) ∧
  -- a tile multiply starts
  (∀ (s : State) (e : Fin 16) (o : TOp) (k : Block) (d : List Nat) (af bf : Nat) (add : Bool) (A B : Nat → List Fv) (n : Nat),
    s.embOn e = true → d.length = 1 ∨ d.length = 5 → d.Nodup → (s.em e).nextOp (s.em e).tq = some o → (s.em e).blocks.lookup o.blk = some k →
    ((∃ a b, o.k = .mm d add af bf n a b ∧
        (∀ r, A r = (List.range n).map fun i => tphVal af (if a.tr then k.calElem a.addr a.pitch (tphBits af) i r else k.calElem a.addr a.pitch (tphBits af) r i)) ∧
        ∀ r, B r = (List.range n).map fun i => tphVal bf (if b.tr then k.calElem b.addr b.pitch (tphBits bf) r i else k.calElem b.addr b.pitch (tphBits bf) i r)) ∨
      ∃ a b, o.k = .mmf d add af bf a b ∧ a.length = 16 ∧ b.length = 16 ∧ n = (a.getD 0 []).length ∧
        (∀ r, A r = (a.getD r []).map (tphVal af)) ∧ ∀ r, B r = (b.getD r []).map (tphVal bf)) →
    Completes (.tephraOpStart e) s fun t => ∃ k', BlockIs s t e o.blk k' ∧ k' = { k with basin := k'.basin } ∧
      (t.em e).tq = (s.em e).tq.map (fun x => if x.id = o.id then { x with started := true } else x) ∧
      t.get R.TPH_MACS_COUNT e = (s.get R.TPH_MACS_COUNT e + 256 * n) % 2 ^ 64 ∧
      (∀ i < 16, ∀ j < 16,
        let long := decide (d.length ≠ 1)
        let D := dotAcc long (A i) (B j)
        let old := k.accGet d (16 * i + j)
        let hi : Int := if long then 2 ^ 594 else 2 ^ 120
        D.v < hi → -hi ≤ D.v → k'.accGet d (16 * i + j) = (if add then (old.plus long D).1 else D) ∧
          ∀ c ∈ d, k.tsat c = true ∨ (add = true ∧ (old.plus long D).2 = true) → k'.tsat c = true) ∧
      ∀ c, c ∉ d → ∀ w < 256, k'.basGet c w = k.basGet c w) ∧
  -- a drain starts
  (∀ (s : State) (e : Fin 16) (o : TOp) (k : Block) (t : List (List Nat)) (ofmt rnd a pitch : Nat) (relu glob clr : Bool) (shift : Int) (scl : Option Nat),
    s.embOn e = true → (s.em e).nextOp (s.em e).gq = some o → (s.em e).blocks.lookup o.blk = some k →
    o.k = .drain t ofmt rnd relu shift scl glob clr a pitch →
    let draws := fun (n : Nat) => (List.range n).foldl (fun (x : Nat × State) _ => x.2.tphDraw e) (0, s)
    let seed := (if rnd = 2 ∧ ofmt ≠ 13 then (draws (256 * t.length)).2 else s).get R.TPH_SEED_STATE e
    let long := t.any fun d => d.length ≠ 1
    let bits := if ofmt = 13 then (if long then 640 else 128) else outBits ofmt
    let elem := fun (d : List Nat) (n i j : Nat) =>
      if ofmt = 13 then (d.map fun c => k.basGet c (16 * i + j)).foldr (fun x m => x + 2 ^ 128 * m) 0
      else outElem ofmt (if rnd = 2 then .sto (draws (256 * n + 16 * i + j + 1)).1 else Rnd.of rnd) (geyserVal ((k.accGet d (16 * i + j)).val (if d.length = 1 then -48 else -298)) shift
        (match scl with | some p => f32.dec (ofBytes (k.calGet (p + 64 * n + 4 * j) 4)) | none => .fin false 1 0) relu)
    let row := fun (i : Nat) => packElems bits (t.zipIdx.flatMap fun p => (List.range 16).map fun j => elem p.1 p.2 i j)
    let clear := fun (k' : Block) => ∀ c w, w < 256 → k'.basGet c w = if clr = true ∧ c ∈ t.flatten then 0 else k.basGet c w
    (glob = false → 2 * t.length * bits ≤ pitch → Completes (.geyserOpStart e) s fun u => ∃ k', BlockIs s u e o.blk k' ∧ clear k' ∧ k' = { k with basin := k'.basin, cal := k'.cal } ∧
      (u.em e).gq = (s.em e).gq.map (fun x => if x.id = o.id then { x with started := true } else x) ∧ u.get R.TPH_SEED_STATE e = seed ∧
      (∀ i < 16, k'.calGet (a + i * pitch) (row i).length = row i) ∧
      (∀ y, (∀ i < 16, y < a + i * pitch ∨ a + i * pitch + (row i).length ≤ y) → k'.calGet y 1 = k.calGet y 1)) ∧
    (glob = true → Completes (.geyserOpStart e) s fun u => ∃ v k', BlockIs s v e o.blk k' ∧ clear k' ∧ k'.cal = k.cal ∧
      (v.em e).gq = (s.em e).gq.map (fun x => if x.id = o.id then { x with started := true } else x) ∧ v.get R.TPH_SEED_STATE e = seed ∧
      v = { s with emb := v.emb, regs := v.regs } ∧
      u = ((List.range 16).flatMap fun i => cutLines 80 ((a + i * pitch) % 2 ^ 64) (row i)).foldl
        (fun v p => v.stGo e o.blk (o.coh, o.lane) p.1 p.2) v)) ∧
  -- a copy starts
  (∀ (s : State) (e : Fin 16) (o : TOp) (k : Block) (t : List Nat) (load add : Bool) (a : Nat), s.embOn e = true →
    (s.em e).nextOp (s.em e).gq = some o → (s.em e).blocks.lookup o.blk = some k → o.k = .copy t load add a → t.Nodup →
    Completes (.geyserOpStart e) s fun u => ∃ k', BlockIs s u e o.blk k' ∧
      (u.em e).gq = (s.em e).gq.map (fun x => if x.id = o.id then { x with started := true } else x) ∧
      (load = false → k'.basin = k.basin ∧ ∀ p ∈ t.zipIdx, ∀ w < 256, ofBytes (k'.calGet (a + 4096 * p.2 + 16 * w) 16) = k.basGet p.1 w) ∧
      (load = true → k'.cal = k.cal ∧ ∀ p ∈ t.zipIdx, ∀ w < 256,
        let x := ofBytes (k.calGet (a + 4096 * p.2 + 16 * w) 16)
        let old := AccW.ofShort (k.basGet p.1 w)
        let new := AccW.ofShort (k'.basGet p.1 w)
        (add = false → new = AccW.ofShort x) ∧
        (add = true → new = let r := (old.plus false (AccW.ofShort x)).1; { r with sat := r.sat || bitB x 124 }) ∧
        (k.tsat p.1 = true → k'.tsat p.1 = true) ∧ (w = 0 → bitB x 125 = true → k'.tsat p.1 = true)))

/-- Instructions on tiles at once (R120, R121, R135, R138 to R140), waiting and completion (R141, R143), the generator (R148). -/
def Obligations.BasinInstructionsAndCompletion : Prop :=
  (∀ (s : State) (e : Fin 16) (slot : Fin 128) (w : BitVec 56) (en : Entry) (k : Block) (pc : Nat),
    let next := (pc + 8) % 2 ^ 64
    let x := s.em e
    let copies := fun (f : Block → Prop) (k' : Block) => f k' ∧ k' = { k with basin := k'.basin }
    let waits := fun (i : Instr) => Completes i s fun t => t = s
    (let v := word56 0xD1 w;
      let hit := fun y => (k.tileMask y (iA v)).flatMap fun n => [2 * n, 2 * n + 1];
      s.Performs e slot (swapIns v) (maskFault (iA v)) en k pc →
        ((∀ y ∈ en.active k v, ∀ o ∈ x.ops en.blk, meets (o.reads ++ o.writes) (hit y) = false) → Executes (.accSwap e slot w) s e en next fun k' =>
          k' = { k with sw := k'.sw } ∧ ∀ n < 16, bitB k'.sw n = (bitB k.sw n != (((en.active k v).filter fun y => (k.tileMask y (iA v)).contains n).length % 2 == 1))) ∧
        ((∃ y ∈ en.active k v, ∃ o ∈ x.ops en.blk, meets (o.reads ++ o.writes) (hit y) = true) → waits (.accSwap e slot w))) ∧
    (let v := word56 0xD2 w;
      let hit := fun y => (k.tileMask y (iA v)).flatMap fun n => if bitB v 1 then [2 * n, 2 * n + 1] else [k.cpy n (bitB v 0)];
      s.Performs e slot (zeroIns v) (maskFault (iA v)) en k pc →
        ((∀ y ∈ en.active k v, x.basWait en.blk [] (hit y) = false) → Executes (.accZero e slot w) s e en next (copies fun k' =>
          ∀ c n, n < 256 → k'.basGet c n = if ∃ y ∈ en.active k v, c ∈ hit y then 0 else k.basGet c n)) ∧
        ((∃ y ∈ en.active k v, x.basWait en.blk [] (hit y) = true) → waits (.accZero e slot w))) ∧
    (let v := word56 0xD3 w;
      let c := k.cpy (iD v % 16) (bitB v 1);
      s.Performs e slot (accLdIns v) (fun k _ => basFault k (iD v % 16) 1) en k pc →
        (x.basWait en.blk [] [c] = false → ∀ y, en.active k v = [y] → Completes (.accLd e slot w) s fun t => ∃ k',
          (∃ z, t.blk? e en.blk = some z ∧ SameData (en.parts.foldl (fun k p => k.cohMod p.1 fun c => c.setPcs p.2 next) k') z) ∧
          (let n := k.rd y (iB v) % 256;
            let g := k.rdGroup y (iA v) 4;
            let old := AccW.ofShort (k.basGet c n);
            let new := AccW.ofShort (k'.basGet c n);
            (bitB v 0 = false → new = AccW.ofShort g) ∧
            (bitB v 0 = true → new = let r := (old.plus false (AccW.ofShort g)).1; { r with sat := r.sat || bitB g 124 }) ∧
            (k.tsat c = true ∨ (n = 0 ∧ bitB g 125 = true) → k'.tsat c = true) ∧
            (∀ c' m, m < 256 → c' ≠ c ∨ (m ≠ n ∧ m ≠ 0) → k'.basGet c' m = k.basGet c' m) ∧ k' = { k with basin := k'.basin })) ∧
        (en.active k v ≠ [] → x.basWait en.blk [] [c] = true → waits (.accLd e slot w))) ∧
    (let v := word56 0xD4 w;
      let c := k.cpy (iA v % 16) (bitB v 1);
      s.Performs e slot (accStIns v) (fun k _ => basFault k (iA v % 16) 1) en k pc →
        (x.basWait en.blk [c] [] = false → Executes (.accSt e slot w) s e en next fun k' =>
          WroteGroup k k' (en.active k v) (iD v) 4 fun y => k.basGet c (k.rd y (iB v) % 256)) ∧
        (en.active k v ≠ [] → x.basWait en.blk [c] [] = true → waits (.accSt e slot w))) ∧
    (let v := word56 0xD8 w;
      let all := (List.range k.info.tiles).flatMap fun n => [k.cpy n false, k.cpy n true];
      s.Issues e slot (flagsIns v) en k pc → k.info.tiles ≤ 16 →
        ((∀ c ∈ all, x.basWait en.blk [c] (if bitB v 0 then [c] else []) = false) → Executes (.accFlags e slot w) s e en next fun k' =>
          (iD v < 0x100 → ∀ y l, en.active k v = y :: l → ∀ j < 32,
            bitB (k'.rd y (iD v)) j = (decide (j % 16 < k.info.tiles) && k.tsat (k.cpy (j % 16) (decide (16 ≤ j))))) ∧
          (bitB v 0 = true → en.active k v ≠ [] → ∀ c ∈ all, k'.tsat c = false) ∧ (bitB v 0 = false → k'.basin = k.basin) ∧
          (∀ c n, n < 256 → n ≠ 0 → k'.basGet c n = k.basGet c n)) ∧
        ((∃ c ∈ all, x.basWait en.blk [c] [] = true) → en.active k v ≠ [] → waits (.accFlags e slot w))) ∧
    (∀ z ∈ [(Instr.accMax e slot w, 0), (.accMin e slot w, 1), (.accTopk e slot w, 2)],
      let v := word56 (0xD5 + z.2) w
      let src := k.cpy (iA v % 16) (bitB v 1)
      let dst := k.cpy (iD v % 16) (bitB v 2)
      let n := if z.2 = 2 then bitsOf v 8 4 + 1 else 1
      let p0 := if z.2 = 2 then 8 else 1
      s.Performs e slot (reduceIns z.2 v) (fun k _ => basFault k (max (iD v % 16) (iA v % 16)) 1) en k pc →
        (x.basWait en.blk [src] [dst] = false → ∀ y, en.active k v = [y] → Executes z.1 s e en next (copies fun k' => ∀ r < 16,
          let cand : List Cand := ((List.range (bitsOf v 4 4 + 1)).map fun j =>
              (bitsOf (k.basGet src (16 * r + j)) 0 125, (((k.rd y (iB v) + j) % 2 ^ 16 : Nat) : Int))) ++
            if bitB v 0 then (List.range n).map fun j =>
              (bitsOf (k.basGet dst (16 * r + j)) 0 125, (AccW.ofShort (k.basGet dst (16 * r + p0 + j))).v / 2 ^ 48) else []
          let got : List Cand := (List.range n).map fun j =>
            (bitsOf (k'.basGet dst (16 * r + j)) 0 125, (AccW.ofShort (k'.basGet dst (16 * r + p0 + j))).v / 2 ^ 48)
          let good := cand.filter candOk
          -- the placed candidates are in rank order, none better is left out, and empty entries fill the rest
          (∃ out, List.Perm good (got.take good.length ++ out) ∧
            ∀ c ∈ out, ∀ d ∈ got.take good.length, candLt (z.2 == 1) c d = false) ∧
          (got.take good.length).Pairwise (fun c d => candLt (z.2 == 1) d c = false) ∧
          (∀ c ∈ got.drop good.length, bitsOf c.1 0 125 = 2 ^ 123 ∧ c.2 = 0xFFFF) ∧
          ∀ j < 16, (n ≤ j ∧ j < p0) ∨ p0 + n ≤ j → k'.basGet dst (16 * r + j) = k.basGet dst (16 * r + j))) ∧
        (en.active k v ≠ [] → x.basWait en.blk [src] [dst] = true → waits z.1)) ∧
    (let v := word56 0xD9 w;
      let held := ∃ o ∈ x.ops en.blk, (∃ y ∈ en.active k v, y.1 = o.coh) ∧ bitB v o.grp = true;
      s.Issues e slot { w := v, bad := badIf (!iF v) 1 ++ badIf (iD v ≠ 0 || iA v ≠ 0 || bitsOf v 8 24 ≠ 0) 2 } en k pc →
        (¬ held → Executes (.tmaWait e slot w) s e en next (· = k)) ∧ (held → waits (.tmaWait e slot w)))) ∧
  (∀ (s : State) (e : Fin 16) (o : TOp) (l : List TOp), s.embOn e = true →
    (∀ b c k, s.blk? e b = some k → ∀ y v m g, (k.coh c).lane y ≠ .coll v m g) →
    ((s.em e).tq = o :: l → o.started = true → Completes (.tephraOpComplete e) s fun t => t = s.emPut e { s.em e with tq := l }) ∧
    ((s.em e).gq = o :: l → o.started = true → Completes (.geyserOpComplete e) s fun t => t = s.emPut e { s.em e with gq := l }) ∧
    ((s.em e).tq = o :: l → o.started = false → Completes (.tephraOpComplete e) s fun t => t = s) ∧
    ((s.em e).gq = o :: l → o.started = false → Completes (.geyserOpComplete e) s fun t => t = s)) ∧
  (∀ (s : State) (m : Master) (e : Fin 16) (v : DWord), s.Serves m (0x100010C + 0x10000 * e) → Completes (.tphSeedWrite m e v) s fun t =>
    t.get R.TPH_SEED_STATE e = (if v = 0 then 0x9E3779B97F4A7C15 else v.toNat) ∧
    SameRegs s t [R.TPH_SEED_STATE.key e 0] ∧ t = { s.begun m with regs := t.regs }) ∧
  ∀ (s : State) (e : Nat),
    let x := BitVec.ofNat 64 (s.get R.TPH_SEED_STATE e)
    let a := x ^^^ (x <<< 13)
    let b := a ^^^ (a >>> 7)
    let c := b ^^^ (b <<< 17)
    (s.tphDraw e).1 = (c >>> 32).toNat ∧ (s.tphDraw e).2.get R.TPH_SEED_STATE e = c.toNat

/-- Tile I/O, bulk copies and special registers (R101 to R104, R341). -/
def Obligations.TileAccessCopiesAndSpecialRegisters : Prop :=
  (∀ (s : State) (e : Fin 16) (slot : Fin 128) (w : BitVec 56) (en : Entry) (k : Block) (pc : Nat),
    let next := (pc + 8) % 2 ^ 64
    let body := s.passBody k.info.pk
    (let v := word56 0xA0 w;
      s.Performs e slot (tileIns v k.info.kind) (tileFault body v) en k pc → Executes (.tileLd e slot w) s e en next fun k' =>
        ∀ a, tileAtt body k.info.kind v = some a → WroteRun k k' (en.active k v) (iD v) (chans (tioMask v)).length fun y i =>
          let c := (chans (tioMask v)).getD i 0
          let at_ := tileAddr body a (k.tilePixel v y).1 (k.tilePixel v y).2 (tioSample v)
          let el := ofBytes (bytesAt 0 k.cal at_ (fmtBytes a.1.fmt))
          if bitB v 4 then bitsOf el (32 * c) 32 else elemCh a.1.fmt el c) ∧
    (let v := word56 0xA1 w;
      ∀ y a, s.Performs e slot (tileIns v k.info.kind) (tileFault body v) en k pc → en.active k v = [y] → tileAtt body k.info.kind v = some a →
        let n := fmtBytes a.1.fmt
        let at_ := tileAddr body a (k.tilePixel v y).1 (k.tilePixel v y).2
        let smps := if k.info.kind = .fragment then (List.range 4).filter fun i => bitB (k.tileCov y) i else [tioSample v]
        let vs := (List.range (chans (tioMask v)).length).map fun i => k.rd y (regAt (iD v) i)
        Executes (.tileSt e slot w) s e en next fun k' =>
          (∀ i ∈ smps, bytesAt 0 k'.cal (at_ i) n = toBytes n (tileWrite v a.1.fmt (ofBytes (bytesAt 0 k.cal (at_ i) n)) vs)) ∧
          (∀ q, (∀ i ∈ smps, q < at_ i ∨ at_ i + n ≤ q) → byteAt 0 k'.cal q = byteAt 0 k.cal q) ∧
          (∀ z r, k'.rd z r = k.rd z r) ∧ (∀ z p, k'.pred z p = k.pred z p) ∧ k' = { k with cal := k'.cal, cohorts := k'.cohorts }) ∧
    (let v := word56 0xA4 w;
      let dead := (en.active k v).filter fun y => !k.helper y;
      s.Issues e slot { w := v, bad := badIf (iF v) 1 ++ badIf (bitsOf v 0 50 ≠ 0) 2 ++ badIf (k.info.kind != .fragment) 9 } en k pc →
        (dead = [] → Executes (.fragKill e slot w) s e en next (· = k)) ∧
        (dead ≠ [] → Apart (s.em e) k en.blk dead → Completes (.fragKill e slot w) s fun t => ∃ x, t.blk? e en.blk = some x ∧
          (∀ y ∈ dead, (x.coh y.1).lane y.2 = .dead) ∧ x.cal = (dead.foldl Block.fragUndo k).cal)) ∧
    (let v := word56 0xA2 w;
      let one := en.parts.filterMap fun p => (en.active k v).find? fun y => y.1 == p.1;
      s.Performs e slot (xferIns v) (xferFault v) en k pc → Executes (.xfer e slot w) s e en next fun k' =>
        k' = { k with copies := k.copies ++ one.zipIdx.map fun y =>
          let c := k.rdGroup y.1 (iC v) 2
          { id := (s.em e).nextId + y.2, coh := y.1.1, lane := y.1.2, grp := bitsOf v 1 3, up := bitB v 0, va := k.rdGroup y.1 (iA v) 2
            cal := k.rd y.1 (iB v), len := c % 2 ^ 16, rows := c / 2 ^ 16 % 2 ^ 16, pitch := c / 2 ^ 32 % 2 ^ 32 } }) ∧
    (let v := word56 0xA3 w;
      let held := ∃ y ∈ en.active k v, ∃ c ∈ k.copies, c.coh = y.1 ∧ bitB v c.grp = true;
      s.Issues e slot { w := v, bad := badIf (!iF v) 1 ++ badIf (iD v ≠ 0 || iA v ≠ 0 || bitsOf v 8 24 ≠ 0) 2 } en k pc →
        (¬ held → Executes (.xferWait e slot w) s e en next (· = k)) ∧ (held → Completes (.xferWait e slot w) s fun t => t = s)) ∧
    (let v := word56 0xB1 w;
      let c := bitsOf v 0 8;
      let ops : List Opnd := [{ sel := iD v, n := max 1 (srRegs c) }];
      let bad := badIf (!iF v) 1 ++ badIf (iA v ≠ 0 || bitsOf v 8 24 ≠ 0) 2 ++ badIf (srRegs c = 0) 3 ++ badIf (selIsU (iD v)) 5 ++
        ops.flatMap Opnd.bad;
      s.Issues e slot { w := v, ops, bad } en k pc → Executes (.rdsr e slot w) s e en next fun k' => ∃ g,
        WroteGroup k k' (en.active k v) (iD v) (srRegs c) g ∧ ∀ y ∈ en.active k v,
          let i := k.infoOf y.1
          let n := 32 * y.1 + y.2
          (∀ z ∈ [(0, n), (1, n % i.dx), (2, n / i.dx % i.dy), (3, n / i.dx / i.dy), (4, k.bx), (5, k.by_), (6, k.bz), (7, i.dx), (8, i.dy), (9, i.dz),
              (0xA, i.gx), (0xB, i.gy), (0xC, i.gz), (0x10, y.2), (0x11, y.1), (0x12, e.val), (0x13, s.die), (0x14, (k.coh y.1).sched),
              (0x15, (k.coh y.1).pathmask y.2), (0x16, (en.parts.lookup y.1).getD 0), (0x17, (k.coh y.1).live), (0x18, i.n)],
            c = z.1 → g y % 2 ^ 32 = z.2 % 2 ^ 32) ∧
          (c = 0x20 → ∃ d ∈ [2 ^ 64 - 1, 0, 1], g y % 2 ^ 64 = (s.get R.CRU_TB_NOW_TBASE + d) % 2 ^ 64) ∧
          (0x24 ≤ c → c ≤ 0x26 → i.kind = .compute → g y % 2 ^ 32 = 0) ∧ (c = 0x26 → i.kind ≠ .compute → g y % 2 ^ 32 = i.view % 2 ^ 32) ∧
          (c = 0x24 → i.kind = .fragment ∨ i.kind = .kernel → g y % 2 ^ 32 = (i.tx + i.ty * 2 ^ 16) % 2 ^ 32) ∧
          (c = 0x25 → i.kind = .fragment → g y % 2 ^ 32 = ((k.tilePixel 0 y).1 + (k.tilePixel 0 y).2 * 2 ^ 16) % 2 ^ 32))) ∧
  (∀ (k : Block) (y : Thr) (a q : Nat) (bs : List Nat), y.2 < 32 → (k.coh y.1).frag ≠ none →
    byteAt 0 ((k.tilePut y a bs).fragUndo y).cal q = byteAt 0 (k.fragUndo y).cal q) ∧
  (∀ (s : State) (e : Fin 16) (id : BitVec 32) (ext : List Host.Cell) (b : Nat) (k : Block) (c : XCopy),
    ((s.em e).blocks.findSome? fun p => (p.2.copies.find? fun c => c.id == id.toNat).map fun c => (p.1, p.2, c)) = some (b, k, c) →
    let row := fun (u : State × Bool) i => let x := u.1.copyRow e b c ext i; (x.1, u.2 && x.2)
    let r := (List.range c.rows).foldl row (s, true)
    (k.copyWaits c = true → Completes (.xferCopyComplete e id ext) s fun t => t = s) ∧
    (k.copyWaits c = false → r.2 = true → ∀ k', r.1.blk? e b = some k' → Completes (.xferCopyComplete e id ext) s fun t =>
      BlockIs r.1 t e b { k' with copies := k'.copies.filter fun d => d.id != c.id }) ∧
    (k.copyWaits c = false → r.2 = false → Completes (.xferCopyComplete e id ext) s fun t => t = r.1)) ∧
  ∀ (s u : State) (e b : Nat) (k : Block) (c : XCopy) (ext : List Host.Cell) (i : Nat), s.blk? e b = some k →
    let va := (c.va + i * c.pitch) % 2 ^ 64
    let at_ := c.cal + i * c.len
    (c.up = false → (∀ bs, s.vaGet .ember (copyId e c.id i) k.info.stream .load va c.len ext = (u, .ok bs) →
        s.copyRow e b c ext i = (u.blkMod e b fun k => { k with cal := putBytes 0 k.cal at_ bs }, true)) ∧
      (s.vaGet .ember (copyId e c.id i) k.info.stream .load va c.len ext = (u, .fail) →
        s.copyRow e b c ext i = ((u.workFail k.info.pk 2 false).blkMod e b fun k => { k with cal := putBytes 0 k.cal at_ (List.replicate c.len 255) }, true)) ∧
      (s.vaGet .ember (copyId e c.id i) k.info.stream .load va c.len ext = (u, .wait) → s.copyRow e b c ext i = (u, false))) ∧
    (c.up = true → ∀ ps, s.vaPlaces (copyId e c.id i) k.info.stream .store va c.len = (u, .ok ps) → s.copyRow e b c ext i =
      (ps.foldl (fun v p => v.embWrite e k.info.pk .ember p.2.2 k.info.stream (((bytesAt 0 k.cal at_ c.len).drop (p.1 - va)).take p.2.1)) u, true))

/-- Texture instructions (R99, R100, R106, R346 to R350). -/
def Obligations.TextureAndSurfaceInstructions : Prop :=
  (∀ (s : State) (e : Fin 16) (slot : Fin 128) (w : BitVec 56) (ext : List Host.Cell) (en : Entry) (k : Block) (pc : Nat),
    let next := (pc + 8) % 2 ^ 64
    (∀ x ∈ [(Instr.tex e slot w ext, 0x90), (.surfLd e slot w ext, 0x91)],
      let v := word56 x.2 w
      let act := en.active k v
      let r := act.foldl (fun (r : State × List (Thr × TexRes)) y =>
        let z := r.1.texThread e slot k act v ext y
        (z.1, r.2 ++ [(y, z.2)])) (s, [])
      s.Performs e slot (texIns v) (texFault v) en k pc →
        (∀ f : Thr → List Nat, r.2 = act.map (fun y => (y, TexRes.vals (f y))) → (∀ y ∈ act, (f y).length = (texOut v x.2).length) →
          Completes x.1 s fun t => ∃ k' z, WroteRun k k' act (iD v) (texOut v x.2).length (fun y i => (f y).getD i 0) ∧
            t.blk? e en.blk = some z ∧ SameData (en.parts.foldl (fun k p => k.cohMod p.1 fun c => c.setPcs p.2 next) k') z) ∧
        ((∀ y ∈ r.2, y.2 ≠ .fault) → (∃ y ∈ r.2, y.2 = .wait) → Completes x.1 s fun t => t = r.1 ∧ t.blk? e en.blk = some k) ∧
        (∀ y l₁ l₂, r.2 = l₁ ++ (y, .fault) :: l₂ → (∀ z ∈ l₁, z.2 ≠ .fault) → Completes x.1 s fun t => ∃ z, t.blk? e en.blk = some z ∧
          z.term = some { cause := 1, pc, coh := y.1, lane := y.2 })) ∧
    (let v := word56 0x92 w;
      ∀ y u va n old f, s.Performs e slot (texIns v) (texFault v) en k pc → en.active k v = [y] →
        (s.surfThread e slot k v ext y = (u, .put va n old f) → Completes (.surfSt e slot w ext) s fun t =>
          t = ((u.stGo e en.blk y va (toBytes n (f (ofBytes old)))).nextPc e slot pc 1).issued e slot en) ∧
        (s.surfThread e slot k v ext y = (u, .none_) → Completes (.surfSt e slot w ext) s fun t => t = (u.nextPc e slot pc 1).issued e slot en) ∧
        (s.surfThread e slot k v ext y = (u, .wait) → Completes (.surfSt e slot w ext) s fun t => t = u))) ∧
  (∀ (s u : State) (e slot v : Nat) (k : Block) (act : List Thr) (ext : List Host.Cell) (y : Thr) (db : List Nat),
    let i := k.infoOf y.1
    let d := texDesc db
    let cs := k.rdRun y (iA v) d.coords
    s.texRead e slot k.info.stream k.info.pk ((i.text + 32 * texTds v) % 2 ^ 64) 32 ext = (u, some db) →
    (iOp v = 0x91 → d.ok = false → s.texThread e slot k act v ext y = (u, .vals ((chans (texMask v)).map fun _ => 0))) ∧
    (iOp v = 0x90 → texVar v = 4 ∨ texVar v = 6 → d.ok = false → s.texThread e slot k act v ext y = (u, .vals ((chans (texMask v)).map fun _ => 0))) ∧
    (iOp v = 0x90 → texVar v = 6 → d.ok = true → texCmp v = false → s.texThread e slot k act v ext y = (u, .vals ((chans (texMask v)).map fun c =>
      [d.lw (k.rd y (iB v)), d.lh (k.rd y (iB v)), if d.ty = 2 then d.slices (k.rd y (iB v)) else d.d, d.levels].getD c 0))) ∧
    (iOp v = 0x91 → d.ok = true → texCmp v = false → k.runOut y (iA v) d.coords = false → ∀ l px py pz u' b, d.fetchAt 0 cs = .tex l px py pz →
      k.readWait y (d.elemVa l px py pz) d.elemBytes = false →
      u.texRead e slot k.info.stream k.info.pk (d.elemVa l px py pz) d.elemBytes ext = (u', some b) →
      s.texThread e slot k act v ext y = (u', .vals ((chans (texMask v)).map fun c =>
        (d.swizzle (if fmtUint d.fmt then 1 else 0x3F800000) (d.texel true b px py)).getD c 0))) ∧
    (d.ok = false ∨ d.packed = true → s.surfThread e slot k v ext y = (u, .none_)) ∧
    (d.ok = true → d.packed = false → k.runOut y (iA v) d.coords = false → ∀ l px py pz, d.fetchAt 0 cs = .tex l px py pz →
      k.helper y = false → chans (texMask v) ≠ [] → k.mustWait y (d.elemVa l px py pz) d.elemBytes = false →
      (∀ c ∈ (fmtComps d.fmt).getD [], c.ch ∈ chans (texMask v)) → ∃ f, s.surfThread e slot k v ext y = (u, .put (d.elemVa l px py pz) d.elemBytes [] f) ∧
        ∀ el, f el = ((chans (texMask v)).zip (k.rdRun y (iD v) (chans (texMask v)).length)).foldl (fun el p =>
          if fmtUint d.fmt then elemSetBits d.fmt el p.1 p.2 else elemSet d.fmt el p.1 p.2) el)) ∧
  (∀ (n : Nat) (i : Int) (m : Nat), 0 < n →
    (∀ j, addrMode m n i = some j → j < n) ∧ (m ≠ 3 → addrMode m n i ≠ none) ∧
    (m = 0 → addrMode m n i = some (i % n).toNat) ∧ (m = 3 → (addrMode m n i = none ↔ i < 0 ∨ (n : Int) ≤ i)) ∧
    (m = 1 → addrMode m n (-1 - i) = addrMode m n i ∧ addrMode m n (i + 2 * n) = addrMode m n i) ∧
    (m ≥ 2 → 0 ≤ i → i < n → addrMode m n i = some i.toNat) ∧ (m = 2 ∨ 4 ≤ m → (i < 0 → addrMode m n i = some 0) ∧ ((n : Int) ≤ i → addrMode m n i = some (n - 1)))) ∧
  (∀ (d : TexDesc) (m : Sampler) (key : List Nat) (lin : Bool) (l : Nat) (us : List Rat) (z : Nat) (lod : Option Int) (dx dy : List Rat) (bias a c : Int),
    ((d.levelTaps m key lin l us z).map (·.w)).sum = 1 ∧ ((d.levelsOf m lod).map (·.2.1)).sum = 1 ∧
    (1 ≤ d.levels → ∀ v ∈ d.levelsOf m lod, v.1 < d.levels) ∧
    (d.lod m key dx dy bias = some (a, c) → m.minlod ≤ m.maxlod → (m.minlod : Int) ≤ c ∧ c ≤ m.maxlod ∧ ((m.minlod : Int) ≤ a → a ≤ m.maxlod → c = a))) ∧
  (∀ b ∈ [1, 2, 4, 8, 16], ∀ w h x y x' y', x < w → x' < w → y < h → y' < h →
    blockLinear b w x y + b ≤ blockPages b w h ∧ (blockLinear b w x y = blockLinear b w x' y' → x = x' ∧ y = y')) ∧
  ∀ (a b : Fv), (∀ f ∈ [1, 2, 3, 4, 6], a.cmp b = none → depthPass f a b = false) ∧ depthPass 0 a b = false ∧ depthPass 7 a b = true ∧
    ∀ o, a.cmp b = some o → (depthPass 1 a b = true ↔ o = .lt) ∧ (depthPass 2 a b = true ↔ o = .eq) ∧ (depthPass 3 a b = true ↔ o ≠ .gt) ∧
      (depthPass 4 a b = true ↔ o = .gt) ∧ (depthPass 5 a b = true ↔ o ≠ .eq) ∧ (depthPass 6 a b = true ↔ o ≠ .lt)

/-- The front end and the Binner (R325, R326, R331 to R333, R335, R336). -/
def Obligations.PassesOpenDrawAndBin : Prop :=
  (∀ (s : State) (id : BitVec 32) (p : Pkt), s.Runs id.toNat p → p.nop = false →
    (pkType p.bytes = 0x20 → s.pass? p.id = none →
      let x : Pass := { id := p.id, q := p.q, prio := ((s.q? p.q).map (·.prio)).getD 3, subid := s.pkSubid p, off := p.off, body := p.bytes }
      (s.domOn 1 = false ∨ s.binPass ≠ none → Completes (.rpBegin id) s fun t => t = s) ∧
      (s.domOn 1 = true → s.binPass = none → s.inPlace (rpEmask p.bytes) ≠ [] → Completes (.rpBegin id) s fun t =>
        t.gfx.passes = s.gfx.passes ++ [x] ∧ t.pk? p.id = some { p with stage := .done } ∧ t = { s with gfx := t.gfx, wsp := { s.wsp with win := t.wsp.win } }) ∧
      (s.domOn 1 = true → s.binPass = none → s.inPlace (rpEmask p.bytes) = [] → Completes (.rpBegin id) s fun t =>
        t.gfx.passes = s.gfx.passes ++ [{ x with err := 10, stop := true }] ∧ t.pk? p.id = some { p with stage := .done } ∧
        Recorded s t fun r => r.cls = 5 ∧ r.cause = 8 ∧ r.d0 = p.q + s.pkSubid p * 2 ^ 32 ∧ r.d1 = p.off + 0x20 * 2 ^ 32)) ∧
    (∀ c ∈ [(Instr.rpState id, 0x21), (.rpDraw id, 0x22), (.rpEnd id, 0x23)], pkType p.bytes = c.2 →
      (∀ y ∈ s.wsp.win, y.pass = p.pass → y.id < p.id → y.stage ≠ .committed) →
      let win := fun (t : State) => t = { s with gfx := t.gfx, wsp := { s.wsp with win := t.wsp.win } }
      (s.pass? p.pass = none → Completes c.1 s fun t => t.pk? p.id = some { p with stage := .done } ∧ win t) ∧
      (∀ x, s.pass? p.pass = some x →
        (c.2 = 0x21 → Completes c.1 s fun t => t.pass? p.pass = some { x with st := p.bytes } ∧ t.pk? p.id = some { p with stage := .done } ∧ win t) ∧
        (c.2 = 0x22 → x.stop = false → Completes c.1 s fun t => t.pass? p.pass = some { x with draws := x.draws ++ [{ pk := p.id, body := p.bytes, st := x.st }] } ∧
          t.pk? p.id = some { p with stage := .running } ∧ win t) ∧
        (c.2 = 0x22 → x.stop = true → Completes c.1 s fun t => t.pass? p.pass = some x ∧ t.pk? p.id = some { p with stage := .done } ∧ win t) ∧
        (c.2 = 0x23 → x.stop = false → x.done < x.total → Completes c.1 s fun t =>
          t.pass? p.pass = some { x with endPk := some p.id, kern := if fieldOf p.bytes 0x10 8 = 0 then [] else p.bytes } ∧
          t.pk? p.id = some { p with stage := .running } ∧ win t)))) ∧
  (∀ (s u : State) (ext : List Host.Cell) (p : Pass) (d : Draw) (w : List Nat) (prims : List (List Nat)) (i st : Nat), s.binPass = some p →
    p.phase = .bin → s.domOn 1 = true → s.passLive p = true → p.draws[p.draw]? = some d → p.batch = none → p.prim + 3 ≤ drCount d.body →
    s.drIndices p d.body p.prim 128 ext = (u, some w) → u.pass? p.id = some p → prims ≠ [] → u.inPlace (rpEmask p.body) ≠ [] →
    batchGo d.body (if bitB (fieldOf d.body 0x28 4) 0 then 2 ^ 32 - 1 else 2 ^ 16 - 1) 128 w p.prim p.strip [] = (prims, i, st) →
    Completes (.vertexBatch ext) s fun t => ∃ x c, t.pass? p.id = some x ∧ x.prim = i ∧ x.strip = st ∧ x.batch = some c ∧
      c.verts = prims.flatten.eraseDups ∧ (c.prims.map fun l => l.map fun j => c.verts.getD j 0) = prims ∧
      (let n := c.verts.length * (16 * (1 + stNvar d.st));
        (p.ring + n ≤ fieldOf p.body 0x30 4 * 4096 → x.ring = p.ring + n ∧ c.base = (fieldOf p.body 0x20 8 + p.ring) % 2 ^ 64) ∧
        (fieldOf p.body 0x30 4 * 4096 < p.ring + n → x.ring = n ∧ c.base = fieldOf p.body 0x20 8 % 2 ^ 64)) ∧
      x.prims = p.prims ∧ x.bins = p.bins ∧ x.draws = p.draws ∧ x.draw = p.draw) ∧
  (∀ (b : List Nat) (ones i st : Nat) (w : List Nat), w.length = min 128 (drCount b - i) →
    (drStrip b = false → let m := min 32 (w.length / 3)
      batchGo b ones 128 w i st [] = ((List.range m).map fun j => [w.getD (3 * j) 0, w.getD (3 * j + 1) 0, w.getD (3 * j + 2) 0], i + 3 * m, st)) ∧
    (drStrip b = true → drRestart b = false → let m := min 32 (w.length - 2)
      batchGo b ones 128 w i st [] = ((List.range m).map fun j =>
        if (i + j - st) % 2 = 0 then [w.getD j 0, w.getD (j + 1) 0, w.getD (j + 2) 0] else [w.getD (j + 1) 0, w.getD j 0, w.getD (j + 2) 0], i + m, st))) ∧
  (∀ (s u : State) (ext : List Host.Cell) (p : Pass) (d : Draw) (c : Batch) (t : List Nat) (vs : List ClipV), s.binReady = some (p, d, c, t) → c.failed = false →
    (((s.sinAcquire true).batchVerts p d c t ext = (u, some vs) → u.pass? p.id = some p → (p.binStep d vs).fits = true →
      let r := p.binStep d vs
      Completes (.primitiveBinning ext) s fun v => ∃ x, v.pass? p.id = some x ∧ x.prims = r.pass.prims ∧ x.offs = r.pass.offs ∧ x.bins = r.pass.bins ∧
        x.primEnd = r.pass.primEnd ∧
        v.get R.GFX_CULLED_COUNT = (u.get R.GFX_CULLED_COUNT + if r.culled then 1 else 0) % 2 ^ 64 ∧
        v.get R.GFX_PRIMS_COUNT = (u.get R.GFX_PRIMS_COUNT + if !r.culled && r.used then 1 else 0) % 2 ^ 64) ∧
     (s.batchVerts p d c t ext = (u, some vs) → u.pass? p.id = some p → (p.binStep d vs).fits = false → s.tiling < 2 → Completes (.binSpill ext) s fun v =>
      v.pass? p.id = some { p with phase := .spill, spills := p.spills + 1, tile := 0, done := 0 } ∧
      v.get R.GFX_SPILLS_COUNT = min (u.get R.GFX_SPILLS_COUNT + 1) (2 ^ 32 - 1)) ∧
     (s.batchVerts p d c t ext = (u, some vs) → u.pass? p.id = some p → (p.binStep d vs).fits = true → s.tiling < 2 →
      Completes (.binSpill ext) s fun v => v = u))) ∧
  ∀ (p : Pass) (d : Draw) (vs : List ClipV),
    let r := p.binStep d vs
    let ts := primTris d.st p.draw (((rpViews p.body)[p.view]?).getD 0) vs
    let on := ts.filter fun t => t.tiles p.body ≠ []
    (r.culled = true ↔ ts = []) ∧ (r.used = true ↔ on ≠ []) ∧ r.pass.prims = p.prims ++ on ∧
    r.pass.primEnd = p.primEnd + on.length * (4 + 3 * stNvar d.st) ∧
    r.pass.offs = p.offs ++ (List.range on.length).map (fun i => p.primEnd + i * (4 + 3 * stNvar d.st)) ∧
    ∀ T, T < rpTiles p.body → r.pass.binOf (p.view * rpTiles p.body + T) = p.binOf (p.view * rpTiles p.body + T) ++
      (on.zipIdx.filter fun x => (x.1.tiles p.body).contains T).map fun x => p.prims.length + x.2

/-- The tile phase (R333 to R335, R337 to R344), GFX_CALRES (R354). -/
def Obligations.TilesAreShadedAndResolved : Prop :=
  (∀ (s u : State) (ext : List Host.Cell) (p : Pass) (rest : List Pass) (e b : Nat) (l : List Nat), s.domOn 1 = true →
    (s.passOrder.find? fun p => p.binDone && !p.stop && s.passLive p) = none → s.passOrder = p :: rest → p.phase ≠ .bin → p.stop = false →
    p.tile < p.total → s.passLive p = true → s.chooseTile p = some e →
    (s.sinAcquire true).tileLoad p (p.tileAt p.tile).1 (p.tileAt p.tile).2.1 (p.tileAt p.tile).2.2 ext = (u, some l) →
    (u.em e).freeBlock = some b → u.pass? p.id = some p → Completes (.tileAssign ext) s fun t =>
      t.pass? p.id = some { p with tile := p.tile + 1 } ∧ (∀ n, n ≠ e → t.em n = u.em n) ∧ (∀ n, n ≠ b → t.blk? e n = u.blk? e n) ∧
      ∃ k, t.blk? e b = some k ∧ k.info.kind = .fragment ∧ k.info.pk = p.id ∧ k.info.res = rpTileMem p.body ∧ k.cohorts = [] ∧
        (k.info.tx, k.info.ty, k.info.view) = p.tileAt p.tile ∧ (k.tile.map fun y => (y.pass, y.idx, y.next)) = some (p.id, p.tile, 0) ∧
        ∀ i < l.length, byteAt 0 k.cal i = l.getD i 0 % 256) ∧
  (∀ (s u v : State) (p x : Pass) (ok : Bool),
    let recs := p.prims.flatMap fun t => t.record (((p.draws[t.draw]?).map fun d => stNvar d.st).getD 0)
    s.passWrite p 2 (fieldOf p.body 0x10 8) (binBytes p.body (p.bins.map fun b => (b.1, b.2.map fun i => p.offs.getD i 0))) = (u, ok) →
    (ok = false → s.startFinal p = u) ∧
    (ok = true → recs ≠ [] → u.passWrite p 3 (fieldOf p.body 0x18 8) recs = (v, true) → v.pass? p.id = some x →
      s.startFinal p = v.passPut { x with phase := .final, tile := 0, done := 0 })) ∧
  (∀ (b : List Nat) (bins : List (Nat × List Nat)) (i : Nat), i < rpTiles b * (rpViews b).length →
    let l := (bins.lookup i).getD []
    fieldOf (binBytes b bins) (8 * i + 4) 4 = l.length % 2 ^ 32 ∧ (l = [] → fieldOf (binBytes b bins) (8 * i) 4 = 0xFFFFFFFF)) ∧
  (∀ (s : State) (e : Fin 16) (b : Fin 32) (k : Block) (t : TileSt) (p : Pass), s.tileBlk e b = some (k, t, p) → p.stop = false →
    (∀ i q rest, segDone k t = true → t.kern = 0 →
      ((p.binOf t.idx).drop t.next).filterMap (fun i => (p.prims[i]?).map fun q => (i, q, p.stOf q)) = (i, q) :: rest →
      let n := if stOrdered q.2 then 1 else 1 + (rest.takeWhile fun y => !stOrdered y.2.2).length
      let r := if stOrdered q.2 then orderedSeg p.body q.2 k k.info.tx k.info.ty i q.1
        else opaqueSeg p.body k k.info.tx k.info.ty ((i, q) :: rest.takeWhile fun y => !stOrdered y.2.2)
      Completes (.tvuSegment e b) s fun u => BlockIs s u e b { r.blk with tile := some { t with next := t.next + n, quads := r.quads } } ∧
        u.get R.GFX_HIDDEN_COUNT = (s.get R.GFX_HIDDEN_COUNT + r.hidden) % 2 ^ 64 ∧ u.gfx = s.gfx) ∧
    (segDone k t = false ∨ t.kern ≠ 0 → Completes (.tvuSegment e b) s fun u => u = s) ∧
    (∀ (q0 : Sys2Proof.Machine.Quad) (qs : List Sys2Proof.Machine.Quad) (d : Draw) (c : Nat), t.quads = q0 :: qs → p.draws[q0.draw]? = some d → s.fragSlot e b k = some c →
      let i := s.fragInfo p k d q0.draw
      let sched := (t.s0 + c) % 4
      let take := (t.quads.takeWhile fun q => q.draw == q0.draw).take 8
      s.embTakes e = true → (s.em e).schedCount sched < 16 → (s.em e).schedRegs sched + 32 * i.n ≤ 16384 →
      Completes (.fragmentCohort e b) s fun u => ∃ k', u.blk? e b = some k' ∧
        k'.tile = some { t with quads := t.quads.drop take.length } ∧ (k'.coh c).frag = some { quads := take } ∧ (k'.coh c).sched = sched ∧
        (k'.coh c).info = some i ∧ (∀ c', c' ≠ c → k'.coh c' = k.coh c') ∧
        (∀ l < 4 * take.length, (k'.coh c).pc l = fieldOf d.st 0x18 8 ∧ ((k'.coh c).lane l = .run ∨ (k'.coh c).lane l = .want)) ∧
        (∀ l < 4 * take.length, ∀ q tr, take[l / 4]? = some q → p.prims[q.prim]? = some tr →
          k'.rd (c, l) 0 = (q.cov.getD (l % 4) 0 + if tr.front then 2 ^ 31 else 0) % 2 ^ 32 ∧
          k'.rd (c, l) 1 = tr.depth ((256 * (k.info.tx + q.x + l % 2) + 128 : Nat), (256 * (k.info.ty + q.y + l / 2 % 2) + 128 : Nat)) % 2 ^ 32) ∧
        u.get R.GFX_FRAGS_COUNT = (s.get R.GFX_FRAGS_COUNT + ((take.flatMap (·.cov)).filter (· != 0)).length) % 2 ^ 64) ∧
    (p.phase = .final → p.kern ≠ [] → t.kern = 0 → tileShaded k t p = true → s.passLive p = true →
      let i := s.kernInfo p k
      s.fits e (s.em e) i = true → Completes (.tileKernelBlock e b) s fun u =>
        (∃ x, u.blk? e b = some x ∧ x.tile = some { t with kern := 1 } ∧ x.cal = k.cal) ∧
        ∃ n y, s.blk? e n = none ∧ u.blk? e n = some y ∧ y.info = i ∧ y.cal = k.cal ∧ y.tile = some t) ∧
    (tileShaded k t p = true → k.pend = [] → k.copies = [] → (s.em e).ops b = [] →
      t.kern = (if p.phase = .final ∧ p.kern ≠ [] then 2 else 0) →
      let runs := (rpLayout p.body).1.flatMap (resolveRuns p k)
      let r := runs.foldl (fun (r : State × Bool) x => match r.1.vaPlaces [13, p.id, 9, x.1] (s.passSlot p) .store x.1 x.2.length with
        | (s, .wait) => (s, false)
        | (s, _) => (s, r.2)) (s, true)
      let w := runs.foldl (fun (s : State) x => (s.passWrite p 9 x.1 x.2).1) r.1
      (r.2 = false → Completes (.tileResolve e b) s fun u => u = r.1) ∧
      (r.2 = true → w.pass? p.id = some p → p.done + 1 < p.total → Completes (.tileResolve e b) s fun u => u.blk? e b = none ∧ u.mem = w.mem ∧
        u.pass? p.id = some { p with done := p.done + 1 } ∧
        u.get R.GFX_TILES_COUNT = (w.get R.GFX_TILES_COUNT + if p.phase = .final then 1 else 0) % 2 ^ 64))) ∧
  (∀ (p : Pass) (k : Block) (a : Att × Nat), p.phase ≠ .spill → a.1.store = 1 → resolveRuns p k a = []) ∧
  (∀ (a b p : Int × Int), a ≠ b → edgeIn a b p = !edgeIn b a p) ∧
  (∀ (st : List Nat) (draw view : Nat) (x y z : ClipV),
    let xy := [x, y, z].map fun v => (snap (stVp st 0) (stVp st 2) v.x v.w, snap (stVp st 1) (stVp st 3) v.y v.w)
    let c := bitsOf (stFlags st) 5 2
    (triArea xy = 0 → screenTri st draw view [x, y, z] = none) ∧
    (triArea xy ≠ 0 → (c = 1 → ((screenTri st draw view [x, y, z]).isSome = ((triArea xy > 0) == bitB (stFlags st) 7))) ∧
      (c = 2 → ((screenTri st draw view [x, y, z]).isSome = ((triArea xy > 0) != bitB (stFlags st) 7))) ∧
      (c = 0 → (screenTri st draw view [x, y, z]).isSome = true)) ∧
    ∀ t, screenTri st draw view [x, y, z] = some t → t.xy = xy ∧ t.draw = draw ∧ t.view = view ∧ t.front = ((triArea xy > 0) == bitB (stFlags st) 7)) ∧
  (∀ (a b : Nat), natPass 0 a b = false ∧ (natPass 1 a b = true ↔ a < b) ∧ (natPass 2 a b = true ↔ a = b) ∧ (natPass 3 a b = true ↔ a ≤ b) ∧
    (natPass 4 a b = true ↔ b < a) ∧ (natPass 5 a b = true ↔ a ≠ b) ∧ (natPass 6 a b = true ↔ b ≤ a) ∧ natPass 7 a b = true) ∧
  (∀ (old ref : Nat), old < 256 → stencilOp 0 old ref = old ∧ stencilOp 1 old ref = 0 ∧ stencilOp 2 old ref = ref ∧ stencilOp 3 old ref = min 255 (old + 1) ∧
    stencilOp 4 old ref = old - 1 ∧ stencilOp 5 old ref = old ^^^ 255 ∧ stencilOp 6 old ref = (old + 1) % 256 ∧ stencilOp 7 old ref = (old + 255) % 256) ∧
  ∀ (s : State) (m : Master) (v : Word), s.Serves m 0xC00008 →
    let fits := ∀ x ∈ s.emb, x.2.calUsed + 16384 * min 12 (v.toNat % 16) ≤ 262144
    (s.rtiles = 0 → fits → Completes (.gfxCalresWrite m v) s fun t => t.get R.GFX_CALRES_RES = v.toNat % 16 ∧ t = { s.begun m with regs := t.regs }) ∧
    (s.rtiles ≠ 0 ∨ ¬ fits → Completes (.gfxCalresWrite m v) s fun t => t.get R.GFX_CALRES_RES = s.get R.GFX_CALRES_RES ∧ t.busErr = true)

/-- The channels of the display compositor (R361 to R364, R373, R377, R383, R384). -/
def Obligations.DisplayChannelsScanFrames : Prop :=
  (∀ (s : State) (m : Master) (c : Fin 2) (dlen ulps : Bool) (irq : BitVec 3), s.Serves m (0xA01000 + 0x1000 * c.val) →
    let put (t : State) := t.get R.DCO_C_CTL_DLEN c = b2n dlen ∧ t.get R.DCO_C_CTL_ULPS c = b2n ulps ∧ t.get R.DCO_C_CTL_IRQ c = irq.toNat
    let n := s.dcoFrom c (s.tb + 10000)
    (s.flag R.DCO_C_CTL_EN c = false → s.dcoCheck c = 0 → Completes (.dcoChannelEnable m c dlen ulps irq) s fun t => put t ∧
      t.get R.DCO_C_CTL_EN c = 1 ∧ t.dtu.pasid.lookup (64 + c.val) = some (s.get R.DCO_C_PASID_PASID c) ∧
      t.dcoCh c = { s.dcoCh c with next := some n, latch := max n (s.dcoFrom c (s.tb + s.dcoLead c)), tdown := false, off := false } ∧
      t.dcoCh (1 - c) = s.dcoCh (1 - c) ∧ t = { s.begun m with regs := t.regs, dtu := t.dtu, dco := t.dco }) ∧
    (s.flag R.DCO_C_CTL_EN c = false → s.dcoCheck c ≠ 0 → Completes (.dcoChannelEnable m c dlen ulps irq) s fun t => put t ∧
      t.get R.DCO_C_CTL_EN c = 0 ∧ t.get R.DCO_C_STAT_CFGERR c = s.dcoCheck c ∧ t = { s.begun m with regs := t.regs }) ∧
    (s.flag R.DCO_C_CTL_EN c = true → Completes (.dcoChannelEnable m c dlen ulps irq) s fun t => put t ∧
      SameRegs s t [R.DCO_C_CTL_DLEN.key c 0, R.DCO_C_CTL_ULPS.key c 0, R.DCO_C_CTL_IRQ.key c 0] ∧ t = { s.begun m with regs := t.regs }) ∧
    (s.flag R.DCO_C_CTL_EN c = true → (s.dcoCh c).on = true → Completes (.dcoChannelDisable m c dlen ulps irq) s fun t => put t ∧
      t.get R.DCO_C_CTL_EN c = 0 ∧ t.dcoCh c = { s.dcoCh c with stopping := true } ∧ t = { s.begun m with regs := t.regs, dco := t.dco }) ∧
    (s.flag R.DCO_C_CTL_EN c = true → (s.dcoCh c).on = false → Completes (.dcoChannelDisable m c dlen ulps irq) s fun t =>
      t.get R.DCO_C_CTL_EN c = 0 ∧ (t.dcoCh c).pend = none ∧ (t.dcoCh c).cur = none ∧ (t.dcoCh c).incoming = none ∧ (t.dcoCh c).next = none ∧
      (t.dcoCh c).link = if ulps then 2 else 0)) ∧
  (∀ (s : State) (c : Fin 2) (e : Nat), s.dcoCheck c = e → e ≠ 0 →
    let hs := s.get R.DCO_C_HTIM0_HACT c
    let vs := s.get R.DCO_C_VTIM0_VACT c
    let int := s.get R.DCO_C_PERIOD_INT (if s.flag R.DCO_CTL_GENLOCK then 0 else c)
    let lead := s.get R.DCO_C_LEAD_LEAD (if s.flag R.DCO_CTL_GENLOCK then 0 else c)
    (hs < 64 ∨ 2048 < hs ∨ vs < 64 ∨ 2048 < vs → e = 1) ∧
    (e ≠ 1 → e ≠ 2 → int < 694444 ∨ 3333333 < int → e = 3) ∧
    (3 < e → int < 833333 → bitB (s.get R.BOOT_LICSTAT_EN) 2 = false → e = 4) ∧ (5 < e → lead < 2000 ∨ int ≤ lead → e = 6) ∧
    (6 < e → (s.dcoCh c).mesh = none → (s.dcoCh c).meshNew = none → e = 7) ∧ (8 < e → e = 9 ∧ s.get R.DCO_C_PASID_PASID c = 0)) ∧
  (∀ (s : State) (c : Fin 2), let x := s.dcoCh c
    let r := (s.dcoReleaseAll [x.pend] 0x8001).dcoReleaseAll [x.cur, x.incoming] 0
    (x.on = true → x.stopping = true → Completes (.dcoChannelStop c) s fun t =>
      (t.dcoCh c).on = false ∧ (t.dcoCh c).pend = none ∧ (t.dcoCh c).cur = none ∧ (t.dcoCh c).incoming = none ∧
      (t.dcoCh c).link = (if s.flag R.DCO_C_CTL_ULPS c then 2 else 0) ∧ t.get R.DCO_C_STAT_RUNNING c = 0 ∧ t.get R.DCO_C_STAT_PEND c = 0 ∧
      t.get R.DCO_C_STAT_CUR c = 0 ∧ t.mem = r.mem ∧ t.syn = r.syn) ∧
    (x.on = false ∨ x.stopping = false → Completes (.dcoChannelStop c) s fun t => t = s)) ∧
  (∀ (s : State) (c : Fin 2) (late : Bool) (ext : List Host.Cell) (first : Nat), let x := s.dcoCh c
    let n := max first (s.dcoFrom c (s.tb + 1) - 1)
    (x.next = some first → (x.stopping = true ∨ s.tb < s.dcoEpoch c n) → Completes (.dcoFrameStart c late ext) s fun t => t = s) ∧
    (x.next = some first → x.stopping = false → s.dcoEpoch c n ≤ s.tb → Completes (.dcoFrameStart c late ext) s fun t =>
      t.get R.DCO_C_FRAME_FRAME c = n % 2 ^ 32 ∧ t.get R.DCO_C_STAT_RUNNING c = 1 ∧ (t.dcoCh c).on = true ∧ (t.dcoCh c).next = some (n + 1) ∧
      (t.dcoCh c).mesh = (x.meshNew <|> x.mesh) ∧ (t.dcoCh c).meshNew = none ∧ (t.dcoCh c).link = 1 ∧
      (∃ px, Out.frame c n px ∈ t.out) ∧ (late = true ∨ first < n → 0x1A ∈ (t.dcoCh c).scan) ∧
      (x.tdown = false → (t.dcoCh c).cur = (x.incoming <|> x.cur) ∧ (t.dcoCh c).incoming = none) ∧
      (x.tdown = true → (t.dcoCh c).cur = none ∧ (t.dcoCh c).off = true) ∧ (t.dcoCh c).pend = x.pend)) ∧
  (∀ (s : State) (c : Fin 2) (line px : BitVec 16) (n : Nat), (s.dcoCh c).on = true → (s.dcoCh c).next = some (n + 1) →
    line.toNat < s.get R.DCO_C_VTIM0_VACT c → px.toNat < s.get R.DCO_C_HTIM0_HACT c →
    (0x18 ∉ (s.dcoCh c).scan → Completes (.dcoUnderflow c line px) s fun t =>
      Out.lineRepeat c n line.toNat px.toNat ∈ t.out ∧ t.get R.DCO_C_SCANF_COUNT c = min (s.get R.DCO_C_SCANF_COUNT c + 1) (2 ^ 32 - 1) ∧
      t.dcoCh c = { s.dcoCh c with scan := (s.dcoCh c).scan ++ [0x18] } ∧
      Recorded s t fun r => r.cls = 6 ∧ r.cause = 0x18 ∧ r.src = 0x40 + c.val ∧ r.d0 = n % 2 ^ 32) ∧
    (0x18 ∈ (s.dcoCh c).scan → Completes (.dcoUnderflow c line px) s fun t => t = s.emit (.lineRepeat c n line.toNat px.toNat))) ∧
  (∀ (s : State) (m : Master) (c : Fin 2) (cell : BitVec 2) (gh gw : BitVec 12), s.Serves m (0xA01078 + 0x1000 * c.val) →
    Completes (.dcoMeshLoad m c cell gh gw) s fun t =>
      t.get R.DCO_C_MESH_CFG_CELL c = cell.toNat ∧ t.get R.DCO_C_MESH_CFG_GH c = gh.toNat ∧ t.get R.DCO_C_MESH_CFG_GW c = gw.toNat ∧
      ((s.dcoCh c).load = none → t.dcoCh c = { s.dcoCh c with
        load := some (s.get R.DCO_C_MESH_ADDR_DPA c * 64, gw.toNat, gh.toNat, if cell = 0 then 16 else if cell = 1 then 32 else 64) } ∧
        t.get R.DCO_C_STAT_MESHBUSY c = 1) ∧
      t = { s.begun m with regs := t.regs, dco := t.dco }) ∧
  (∀ (s : State) (c : Fin 2) (ext : List Byte) (a gw gh cell : Nat), (s.dcoCh c).load = some (a, gw, gh, cell) →
    let bs := (s.vaRead .dco (s.dpaLoc a) (24 * gw * gh) 0 (64 + c.val) (ext.map BitVec.toNat)).2.1
    let covers := s.get R.DCO_C_HTIM0_HACT c ≤ (gw - 1) * cell ∧ s.get R.DCO_C_VTIM0_VACT c ≤ (gh - 1) * cell ∧ gw * gh ≤ 5461
    Completes (.dcoMeshLoadDone c ext) s fun t => (t.dcoCh c).load = none ∧ t.get R.DCO_C_STAT_MESHBUSY c = 0 ∧
      (t.dcoCh c).mesh = (s.dcoCh c).mesh ∧
      (covers → t.get R.DCO_C_MESH_CFG_MERR c = 0 ∧ (t.dcoCh c).meshNew = some { gw, gh, cell, v := groupsOf (6 * gw * gh) 4 bs }) ∧
      (¬ covers → t.get R.DCO_C_MESH_CFG_MERR c = 1 ∧ (t.dcoCh c).meshNew = (s.dcoCh c).meshNew ∧ t = { s with regs := t.regs, dco := t.dco })) ∧
  (∀ (s : State) (m : Master) (c : Fin 2) (read : Bool) (p2 p1 dt : Byte), s.Serves m (0xA01180 + 0x1000 * c.val) →
    let b := if 9 ≤ dt.toNat % 16 then dt.toNat :: toBytes 2 (min p1.toNat 64) ++
        (((List.range 16).flatMap fun k => toBytes 4 (s.get R.DCO_C_DCS_DATA_DATA c k)).take (min p1.toNat 64))
      else [dt.toNat, p1.toNat, p2.toNat]
    ((s.dcoCh c).dcs.isSome = true → Completes (.dcsGo m c read p2 p1 dt) s fun t => t = (s.begun m).errMark m) ∧
    ((s.dcoCh c).dcs = none → read = true → s.flag R.DCO_C_CTL_EN c = true → Completes (.dcsGo m c read p2 p1 dt) s fun t =>
      t.get R.DCO_C_DCS_STAT_ERR c = 1 ∧ t = { s.begun m with regs := t.regs }) ∧
    ((s.dcoCh c).dcs = none → read = false ∨ s.flag R.DCO_C_CTL_EN c = false → Completes (.dcsGo m c read p2 p1 dt) s fun t =>
      t.dcoCh c = { s.dcoCh c with dcs := some (if s.flag R.DCO_C_CTL_EN c then b else [], read) } ∧ t.get R.DCO_C_DCS_STAT_BUSY c = 1 ∧
      t = { s.begun m with regs := t.regs, dco := t.dco, out := s.out ++ if s.flag R.DCO_C_CTL_EN c then [] else [Out.dsi c b] })) ∧
  ∀ (s : State) (c : Fin 2) (err : Bool) (rd : List Byte) (b : List Nat) (read : Bool), (s.dcoCh c).dcs = some (b, read) →
    Completes (.dcsDone c err rd) s fun t => t.dcoCh c = { s.dcoCh c with dcs := none } ∧ t.get R.DCO_C_DCS_STAT_DONE c = 1 ∧
      t.get R.DCO_C_DCS_STAT_BUSY c = 0 ∧ (err = true → t.get R.DCO_C_DCS_STAT_ERR c = 1) ∧
      (read = true → err = false → t.get R.DCO_C_DCS_RD_DATA c = ofBytes ((rd.take 4).map BitVec.toNat)) ∧
      t = { s with regs := t.regs, dco := t.dco,
                   out := s.out ++ if b = [] then [] else [Out.dsi c b] }

/-- Commits and the deadline monitor (R365 to R369, R378 to R381). -/
def Obligations.CommitsAreCheckedLatchedAndPaired : Prop :=
  (∀ (s : State) (m : Master) (c : Fin 2) (dpa : BitVec 38), s.Serves m (0xA01044 + 0x1000 * c.val) →
    ((s.dcoCh c).copy = none → Completes (.dcoCommitSubmit m c dpa) s fun t => t.get R.DCO_C_COMMIT_DPA c = dpa.toNat ∧
      t.dcoCh c = { s.dcoCh c with copy := some (dpa.toNat * 64) } ∧ t.get R.DCO_C_CSTAT_BUSY c = 1 ∧
      t = { s.begun m with regs := t.regs, dco := t.dco }) ∧
    ((s.dcoCh c).copy.isSome = true → Completes (.dcoCommitSubmit m c dpa) s fun t => t.get R.DCO_C_COMMIT_DPA c = dpa.toNat ∧
      t.get R.DCO_C_CSTAT_REJ c = 1 ∧ t.get R.DCO_C_CSTAT_REASON c = 4 ∧ t = { s.begun m with regs := t.regs })) ∧
  (∀ (s : State) (c : Fin 2) (af rf : Bool) (ext : List Byte) (dpa : Nat), (s.dcoCh c).copy = some dpa →
    let r := s.vaRead .dco (s.dpaLoc dpa) 320 0 (64 + c.val) (ext.map BitVec.toNat)
    let b := r.2.1
    let w := fieldOf b 4 4
    let bad (h : Nat) (far : Bool) := r.1.objCheck 0 h ≠ 0 ∨ hDie h ≠ s.die ∧ far = false
    let badH := bitB w 0 = true ∧ bad (fieldOf b 0 4) af ∨ bitB w 1 = true ∧ bad (fieldOf b 0x10 4) rf
    let badL := ∃ i < 4, bitB w (4 + i) = true ∧ (dcoLayer b (0x40 + 64 * i)).ok = false
    let badR := 256 ≤ w
    Completes (.dcoCommitCheck c af rf ext) s fun t => (t.dcoCh c).copy = none ∧ t.get R.DCO_C_CSTAT_BUSY c = 0 ∧
      (badH → t.get R.DCO_C_CSTAT_REASON c = 1) ∧ (¬ badH → badL → t.get R.DCO_C_CSTAT_REASON c = 2) ∧
      (¬ badH → ¬ badL → badR → t.get R.DCO_C_CSTAT_REASON c = 3) ∧
      (badH ∨ badL ∨ badR → t.get R.DCO_C_CSTAT_REJ c = 1 ∧ t.dcoCh c = { s.dcoCh c with copy := none }) ∧
      (¬ badH → ¬ badL → dcoReserved b = false → (∃ id, (t.dcoCh c).pend = some { dcoCommit b with wait := id }) ∧
        (t.dcoCh c).cur = (s.dcoCh c).cur ∧ t.get R.DCO_C_STAT_PEND c = 1 ∧
        t.get R.DCO_C_CSTAT_SUPCNT c = (if (s.dcoCh c).pend.isSome then min (s.get R.DCO_C_CSTAT_SUPCNT c + 1) 65535 else s.get R.DCO_C_CSTAT_SUPCNT c))) ∧
  (∀ (s : State) (c : Fin 2) (far : List (Option (List Byte))) (first : Nat), let x := s.dcoCh c
    let n := max (max x.latch first) (s.dcoFrom c (s.tb + s.dcoLead c + 1) - 1)
    let dl := s.flag R.DCO_C_CTL_DLEN c
    let missed (t : State) (cause : Nat) := t.get R.DCO_C_MISS_COUNT c = min (s.get R.DCO_C_MISS_COUNT c + 1) (2 ^ 32 - 1) ∧
      t.get R.DCO_C_LASTMISS_FRAME c = n % 2 ^ 32 ∧ t.get R.DCO_C_STAT_LASTCAUSE c = cause ∧ (t.dcoCh c).before = cause ∧
      (t.dcoCh c).run = some (match x.run with | some (f, k) => (f, k + 1) | none => (n, 1))
    let quiet (t : State) := t.get R.DCO_C_MISS_COUNT c = s.get R.DCO_C_MISS_COUNT c ∧ (t.dcoCh c).before = 0 ∧ (t.dcoCh c).run = x.run
    x.next = some first →
    (s.tb + s.dcoLead c < s.dcoEpoch c n → Completes (.dcoLatch c far) s fun t => t = s) ∧
    (s.dcoEpoch c n ≤ s.tb + s.dcoLead c → s.flag R.DCO_CTL_GENLOCK = false → Completes (.dcoLatch c far) s fun t =>
      (t.dcoCh c).latch = n + 1 ∧ (t.dcoCh c).shot.tb = s.tb ∧ (t.dcoCh c).cur = x.cur ∧ t.dcoCh (1 - c) = s.dcoCh (1 - c) ∧
      (∀ k, x.pend = none ∨ x.pend = some k ∧ k.tgten = true ∧ n % 2 ^ 32 < k.target →
        (t.dcoCh c).pend = x.pend ∧ (t.dcoCh c).incoming = x.incoming ∧ (dl = true → missed t 0x10) ∧ (dl = false → quiet t)) ∧
      (∀ k, x.pend = some k → (k.tgten = true → k.target ≤ n % 2 ^ 32) →
        (k.acqen = true → s.satOf k.wait = none →
          (t.dcoCh c).pend = x.pend ∧ (t.dcoCh c).incoming = x.incoming ∧ (dl = true → missed t 0x11) ∧ (dl = false → quiet t)) ∧
        (∀ e, k.acqen = true → s.satOf k.wait = some (e, true) →
          (t.dcoCh c).pend = none ∧ (t.dcoCh c).incoming = x.incoming ∧ missed t 0x12) ∧
        (∀ e, k.acqen = false ∨ s.satOf k.wait = some (e, false) →
          (t.dcoCh c).pend = none ∧ (t.dcoCh c).incoming = some k ∧ (t.dcoCh c).run = none ∧ (t.dcoCh c).before = 0 ∧
          t.get R.DCO_C_MISS_COUNT c = s.get R.DCO_C_MISS_COUNT c)))) ∧
  (∀ (s : State) (c : Fin 2) (n cause aux : Nat), (s.dcoCh c).before ≠ cause → bitB (s.get R.DCO_C_CTL_IRQ c) 1 = false →
    Recorded s (s.dcoMiss c n cause aux) fun r => r.cls = 6 ∧ r.cause = cause ∧ r.src = 0x40 + c.val ∧ r.aux = aux ∧ r.d0 = n % 2 ^ 32) ∧
  (∀ (s : State) (c : Fin 2) (n f k : Nat), (s.dcoCh c).run = some (f, k) →
    Recorded s (s.dcoRecover c n) fun r => r.cls = 6 ∧ r.cause = 0x1F ∧ r.d1 = k ∧ r.d0 = n % 2 ^ 32 + f % 2 ^ 32 * 2 ^ 32) ∧
  ∀ (s : State) (c : Fin 2) (far : List (Option (List Byte))) (first : Nat), let x := s.dcoCh c
    let y := s.dcoCh (1 - c)
    let n := max (max x.latch first) (s.dcoFrom c (s.tb + s.dcoLead c + 1) - 1)
    s.flag R.DCO_CTL_GENLOCK = true → s.flag R.DCO_CTL_PAIR = true → x.next = some first → s.dcoEpoch c n ≤ s.tb + s.dcoLead c →
    (s.dcoFind c n = .ready → y.next = none ∨ y.latch ≠ x.latch ∨ s.dcoFind (1 - c) n ≠ .ready → Completes (.dcoLatch c far) s fun t =>
      (t.dcoCh c).pend = x.pend ∧ (t.dcoCh c).incoming = x.incoming ∧ t.get R.DCO_C_STAT_LASTCAUSE c = 0x13) ∧
    (∀ k j, x.pend = some k → y.pend = some j → k.wait ≠ j.wait → x.incoming = none → y.incoming = none → y.next.isSome = true →
      y.latch = x.latch → s.dcoFind c n = .ready → s.dcoFind (1 - c) n = .ready → Completes (.dcoLatch c far) s fun t =>
        (t.dcoCh c).incoming = some k ∧ (t.dcoCh (1 - c)).incoming = some j ∧ (t.dcoCh c).pend = none ∧ (t.dcoCh (1 - c)).pend = none)

/-- The camera interface (R387 to R397). -/
def Obligations.CameraPortsCaptureFrames : Prop :=
  (∀ (s : State) (m : Master) (p : Fin 4) (fsen : Bool) (o vc : BitVec 2) (dt : BitVec 6), s.Serves m (0xB01000 + 0x1000 * p.val) →
    let e := ((s.set R.CIF_P_CTL_OUTFMT o.toNat p).set R.CIF_P_CTL_DT dt.toNat p).cifCheck p
    let put (t : State) := t.get R.CIF_P_CTL_OUTFMT p = o.toNat ∧ t.get R.CIF_P_CTL_VC p = vc.toNat ∧ t.get R.CIF_P_CTL_DT p = dt.toNat ∧
      t.get R.CIF_P_CTL_FSEN p = b2n fsen ∧ (s.flag R.CIF_P_CTL_FSEN p = false → fsen = true → (t.cifPort p).next = s.cifSyncFrom p (s.tb + 1000))
    let same := s.get R.CIF_P_CTL_OUTFMT p = o.toNat ∧ s.get R.CIF_P_CTL_VC p = vc.toNat ∧ s.get R.CIF_P_CTL_DT p = dt.toNat
    let n := (s.cifPort p).frames.length
    (s.flag R.CIF_P_CTL_EN p = false → e = 0 → Completes (.cifPortEnable m p fsen o vc dt) s fun t => put t ∧ t.get R.CIF_P_CTL_EN p = 1 ∧
      t.dtu.pasid.lookup (66 + p.val) = some (s.get R.CIF_P_PASID_PASID p) ∧ (t.cifPort p).since = s.tb ∧
      (t.cifPort p).frames = (s.cifPort p).frames ∧ bitB (t.get R.CIF_STAT_ON) p = true) ∧
    (s.flag R.CIF_P_CTL_EN p = false → e ≠ 0 → Completes (.cifPortEnable m p fsen o vc dt) s fun t => put t ∧ t.get R.CIF_P_CTL_EN p = 0 ∧
      t.get R.CIF_P_STAT_CFGERR p = e ∧ t.dtu = s.dtu) ∧
    (s.flag R.CIF_P_CTL_EN p = true → same → Completes (.cifPortDisable m p fsen o vc dt) s fun t => put t ∧ t.get R.CIF_P_CTL_EN p = 0 ∧
      (t.cifPort p).frames = [] ∧ (t.cifPort p).wait = none ∧ t.get R.CIF_P_WCOUNT_COUNT p = s.get R.CIF_P_WCOUNT_COUNT p ∧
      t.get R.CIF_P_FCOUNT_COUNT p = s.get R.CIF_P_FCOUNT_COUNT p ∧
      (n ≠ 0 → t.get R.CIF_P_DROP_COUNT p = min (s.get R.CIF_P_DROP_COUNT p + n) (2 ^ 32 - 1) ∧ t.get R.CIF_P_STAT_LASTDROP p = 5)) ∧
    (s.flag R.CIF_P_CTL_EN p = true → ¬ same → Completes (.cifPortDisable m p fsen o vc dt) s fun t =>
      t = (s.begun m).errComp m .locked (0xB01000 + 0x1000 * p.val))) ∧
  (∀ (s : State) (p : Fin 4), let e := s.cifCheck p
    let w := s.get R.CIF_P_SIZE_W p
    let h := s.get R.CIF_P_SIZE_H p
    (w = 0 ∨ h = 0 ∨ 8192 < s.get R.CIF_P_WIN_X0 p + w ∨ 8192 < s.get R.CIF_P_WIN_Y0 p + h ↔ e = 1) ∧
    (e ≠ 1 → (s.get R.CIF_P_PHY_WIDTH p = 3 ∨ s.get R.CIF_P_PHY_RATE p < 8 ∨ 250 < s.get R.CIF_P_PHY_RATE p ↔ e = 2)) ∧
    (e ≠ 1 → e ≠ 2 → s.get R.CIF_P_CTL_OUTFMT p = 3 → e = 3) ∧ (3 < e → s.get R.CIF_P_PITCH_PITCH p < s.cifRow p → e = 4) ∧
    (e ≠ 0 → 4 < e → (s.get R.CIF_P_PASID_PASID p = 0 ↔ e = 5))) ∧
  (∀ (s : State) (p : Fin 4) (vc : BitVec 2) (ecc : Fin 3), let x := s.cifPort p
    let f : CifFrame := {
      fc := (s.get R.CIF_P_FCOUNT_COUNT p + 1) % 2 ^ 32, c := s.get R.CIF_P_WCOUNT_COUNT p + x.frames.length, sig := s.get R.CIF_P_SIG_HANDLE p,
      stamp := s.tb, sync := x.lastSync, flags := if ecc = 1 then 4 else 0 }
    let closes (fs : List CifFrame) := fs.length = x.frames.length ∧ ∀ g, x.open_ = some g →
      fs.getLast? = some { g with closed := true, flags := if g.got < s.get R.CIF_P_SIZE_H p then g.flags ||| 2 else g.flags }
    (s.cifOn p = false ∨ vc.toNat ≠ s.get R.CIF_P_CTL_VC p ∧ ecc ≠ 2 → Completes (.csiFrameStartPacket p vc ecc) s fun t => t = s) ∧
    (s.cifOn p = true → ecc = 2 → Completes (.csiFrameStartPacket p vc ecc) s fun t =>
      t.get R.CIF_P_ERR_ECC p = min (s.get R.CIF_P_ERR_ECC p + 1) 65535 ∧ t.get R.CIF_P_FCOUNT_COUNT p = s.get R.CIF_P_FCOUNT_COUNT p ∧
      ∀ g, x.open_ = some g → (t.cifPort p).open_ = some { g with mute := true }) ∧
    (s.cifOn p = true → ecc ≠ 2 → vc.toNat = s.get R.CIF_P_CTL_VC p → Completes (.csiFrameStartPacket p vc ecc) s fun t =>
      t.get R.CIF_P_FCOUNT_COUNT p = (s.get R.CIF_P_FCOUNT_COUNT p + 1) % 2 ^ 32 ∧ t.get R.CIF_P_WCOUNT_COUNT p = s.get R.CIF_P_WCOUNT_COUNT p ∧
      (s.cifFree p = true → ∃ fs, (t.cifPort p).frames = fs ++ [f] ∧ closes fs) ∧
      (s.cifFree p = false → closes (t.cifPort p).frames ∧ t.get R.CIF_P_STAT_LASTDROP p = 1 ∧
        t.get R.CIF_P_DROP_COUNT p = min (s.get R.CIF_P_DROP_COUNT p + 1) (2 ^ 32 - 1)))) ∧
  (∀ (s : State) (p : Fin 4) (vc : BitVec 2) (dt : BitVec 6) (ecc : Fin 3) (crc full : Bool) (b : List Byte), let x := s.cifPort p
    let mine := vc.toNat = s.get R.CIF_P_CTL_VC p ∧ dt.toNat = s.get R.CIF_P_CTL_DT p
    let y0 := s.get R.CIF_P_WIN_Y0 p
    let h := s.get R.CIF_P_SIZE_H p
    (s.cifOn p = false ∨ ecc ≠ 2 ∧ ¬ mine → Completes (.csiLongPacket p vc dt ecc crc full b) s fun t => t = s) ∧
    (s.cifOn p = true → ecc = 2 → Completes (.csiLongPacket p vc dt ecc crc full b) s fun t => t = s.incSat R.CIF_P_ERR_ECC p) ∧
    (s.cifOn p = true → ecc ≠ 2 → mine → x.open_ = none → Completes (.csiLongPacket p vc dt ecc crc full b) s fun t =>
      t = if crc then s.incSat R.CIF_P_ERR_CRC p else s) ∧
    ∀ f, s.cifOn p = true → ecc ≠ 2 → mine → x.open_ = some f → f.mute = false →
      let flags := if ecc = 1 then f.flags ||| 4 else f.flags
      (full = true → Completes (.csiLongPacket p vc dt ecc crc full b) s fun t => (t.cifPort p).frames = x.frames.dropLast ∧
        t.get R.CIF_P_STAT_LASTDROP p = 2 ∧ t.get R.CIF_P_DROP_COUNT p = min (s.get R.CIF_P_DROP_COUNT p + 1) (2 ^ 32 - 1)) ∧
      (full = false → f.lines < y0 ∨ y0 + h ≤ f.lines → Completes (.csiLongPacket p vc dt ecc crc full b) s fun t =>
        (t.cifPort p).frames = x.frames.dropLast ++ [{ f with lines := f.lines + 1, flags }] ∧ t.mem = s.mem) ∧
      (full = false → crc = false → y0 ≤ f.lines → f.lines < y0 + h → x.frames = [f] → f.fifo = [] →
        let va := (s.get R.CIF_P_RBASE_VA p * 4096 + f.c % (s.get R.CIF_P_RCFG_NBUFM1 p + 1) * s.get R.CIF_P_RCFG_STRIDE p * 4096 +
          (f.lines - y0) * s.get R.CIF_P_PITCH_PITCH p) % 2 ^ 64
        let bs := cifStoredLine (s.get R.CIF_P_CTL_OUTFMT p) (s.get R.CIF_P_CTL_DT p) (s.get R.CIF_P_WIN_X0 p) (s.get R.CIF_P_SIZE_W p)
          (b.map BitVec.toNat)
        let f' := { f with lines := f.lines + 1, flags, got := f.got + 1, last := s.tb, closed := decide (h ≤ f.got + 1), fifo := [(va, bs)] }
        let r := (s.cifPut p { x with frames := [f'] }).cifStore p f.fc va bs
        bs.length ≤ 32768 → Completes (.csiLongPacket p vc dt ecc crc full b) s fun t => t.mem = r.1.mem ∧
          (r.2 = .ok () → (t.cifPort p).frames = [{ f' with fifo := [], written := f.written + 1 }]) ∧
          (r.2 = .wait → (t.cifPort p).frames = [f']) ∧
          (r.2 = .fail → (t.cifPort p).frames = [] ∧ t.get R.CIF_P_STAT_LASTDROP p = 3))) ∧
  (∀ (a b c d l : Nat), cifStoredLine 1 0x2B 0 4 [a, b, c, d, l] =
      [a * 4 + bitsOf l 0 2, b * 4 + bitsOf l 2 2, c * 4 + bitsOf l 4 2, d * 4 + bitsOf l 6 2].flatMap (toBytes 2)) ∧
  (∀ (x w : Nat) (b : List Nat), cifStoredLine 0 0x2A x w b = (b.drop x).take w ∧ cifStoredLine 0 0x1E x w b = (b.drop (x * 2)).take (w * 2)) ∧
  (∀ (s : State) (p : Fin 4) (vc : BitVec 2) (ecc : Fin 3), let x := s.cifPort p
    (s.cifOn p = false ∨ ecc ≠ 2 ∧ (vc.toNat ≠ s.get R.CIF_P_CTL_VC p ∨ x.open_ = none) → Completes (.csiFrameEndPacket p vc ecc) s fun t => t = s) ∧
    (s.cifOn p = true → ecc = 2 → Completes (.csiFrameEndPacket p vc ecc) s fun t => t = s.incSat R.CIF_P_ERR_ECC p) ∧
    ∀ g, s.cifOn p = true → ecc ≠ 2 → vc.toNat = s.get R.CIF_P_CTL_VC p → x.open_ = some g → Completes (.csiFrameEndPacket p vc ecc) s fun t =>
      let fl := if ecc = 1 then g.flags ||| 4 else g.flags
      (t.cifPort p).frames = x.frames.dropLast ++
        [{ g with closed := true, flags := if g.got < s.get R.CIF_P_SIZE_H p then fl ||| 2 else fl }] ∧
      t = { s with regs := t.regs, cif := t.cif }) ∧
  (∀ (s : State) (p : Fin 4) (f : CifFrame) (fs : List CifFrame), (s.cifPort p).frames = f :: fs → (∀ g ∈ f :: fs, g.fifo = []) →
    let u := s.cifDrain p
    let hd := toBytes 4 f.fc ++ toBytes 4 f.flags ++ toBytes 8 f.stamp ++ toBytes 8 f.last ++
      toBytes 8 (f.written + s.get R.CIF_P_CTL_VC p * 2 ^ 16 + s.get R.CIF_P_CTL_DT p * 2 ^ 24) ++ toBytes 8 f.sync ++ List.replicate 24 0
    let r := u.cifStore p f.fc ((s.get R.CIF_P_HBASE_VA p * 64 + 64 * (f.c % (s.get R.CIF_P_RCFG_NBUFM1 p + 1))) % 2 ^ 64) hd
    let n := (s.get R.CIF_P_WCOUNT_COUNT p + 1) % 2 ^ 64
    (f.closed = false ∨ s.wtAcked = false → Completes (.cifFrameComplete p) s fun t => t = u ∧ (t.cifPort p).frames = f :: fs ∧ t.mem = s.mem) ∧
    (f.closed = true → s.wtAcked = true → Completes (.cifFrameComplete p) s fun t =>
      (r.2 = .wait → t = r.1) ∧
      (r.2 = .fail → (t.cifPort p).frames = fs ∧ t.get R.CIF_P_STAT_LASTDROP p = 3 ∧ t.get R.CIF_P_WCOUNT_COUNT p = s.get R.CIF_P_WCOUNT_COUNT p) ∧
      (r.2 = .ok () → (t.cifPort p).frames = fs ∧ t.get R.CIF_P_WCOUNT_COUNT p = n ∧ (hGen f.sig = 0 → t.mem = r.1.mem ∧ t.out = r.1.out ++ [.hostRead 0 0]) ∧
        (hGen f.sig ≠ 0 → r.1.objCheck 0 f.sig = 0 →
          t.mem = ((((r.1.embRelease 3).cifUpd p fun x => { x with frames := fs }).incWrap R.CIF_P_WCOUNT_COUNT p).synPlain f.sig n 0).mem)))) ∧
  (∀ (s : State) (p : Fin 4), let x := s.cifPort p
    let n := max x.next (s.cifSyncFrom p (s.tb + 1) - 1)
    (s.domLive 3 = true → s.flag R.CIF_P_CTL_FSEN p = true → s.cifSync p n ≤ s.tb → Completes (.fsyncPulse p) s fun t =>
      t.cifPort p = { x with next := n + 1, lastSync := s.cifSync p n, pulse := some (s.cifSync p n + s.get R.CIF_P_FSYNC_WIDTH p) } ∧
      bitB t.pad.fsync p = true) ∧
    (s.domLive 3 = false ∨ s.flag R.CIF_P_CTL_FSEN p = false ∨ s.tb < s.cifSync p n → Completes (.fsyncPulse p) s fun t => t = s)) ∧
  ∀ (s : State) (p : Fin 4), let x := s.cifPort p
    (∀ e, x.pulse = some e → e ≤ s.tb → Completes (.fsyncPulseEnd p) s fun t => t.cifPort p = { x with pulse := none } ∧ bitB t.pad.fsync p = false) ∧
    ((x.pulse = none ∨ ∃ e, x.pulse = some e ∧ s.tb < e) → Completes (.fsyncPulseEnd p) s fun t => t = s)

/-- AO camera, motion energy and inference engine (R400, R406 to R410, R412). -/
def Obligations.IslandCameraMotionAndInference : Prop :=
  (∀ (s : State) (m : Master), s.Serves m 0x380000 ∨ m = .m3 ∧ s.get R.BOOT_STAT_PHASE = 3 ∧ s.engRuns 7 = false →
    Completes (.rtcCapture m) s fun t => t.get R.FUM_TBSYNC_RTC_VALUE = s.get R.FUM_RTC_RTC % 2 ^ 48 ∧ t.get R.FUM_TBSYNC_TB_VALUE = s.tb ∧
      SameRegs s t [R.FUM_TBSYNC_RTC_VALUE.key 0 0, R.FUM_TBSYNC_TB_VALUE.key 0 0] ∧ t = { s.begun m with regs := t.regs }) ∧
  (∀ (s : State) (px : List (List (BitVec 10))), let rows := px.map fun r => r.map BitVec.toNat
    let b := 1 - s.get R.FUM_AOC_STAT_BUF
    let w := s.get R.FUM_AOC_SIZE_W
    let h := s.get R.FUM_AOC_SIZE_H
    let busy := s.fum.meBuf = some b ∨ ∃ r, s.fum.fie = some r ∧ r.buf = b
    (s.flag R.FUM_AOC_CTL_EN = false → Completes (.aocFrame px) s fun t => t = s) ∧
    (s.flag R.FUM_AOC_CTL_EN = true → 0 < s.fum.skip → Completes (.aocFrame px) s fun t => t = { s with fum := { s.fum with skip := s.fum.skip - 1 } }) ∧
    (s.flag R.FUM_AOC_CTL_EN = true → s.fum.skip = 0 → busy → Completes (.aocFrame px) s fun t => t.get R.FUM_AOC_STAT_OVR = 1 ∧
      t = { s with regs := t.regs, fum := { s.fum with skip := s.get R.FUM_AOC_CTL_SKIP } }) ∧
    (s.flag R.FUM_AOC_CTL_EN = true → s.fum.skip = 0 → ¬ busy → Completes (.aocFrame px) s fun t => t.get R.FUM_AOC_STAT_BUF = b ∧
      t.get R.FUM_AOC_STAT_FRAMES = (s.get R.FUM_AOC_STAT_FRAMES + 1) % 2 ^ 16 ∧ t.get R.FUM_AOC_STAMP_RTC = s.get R.FUM_RTC_RTC % 2 ^ 48 ∧
      t.fum = { s.fum with skip := s.get R.FUM_AOC_CTL_SKIP, meBuf := if s.flag R.FUM_ME_CFG_EN then some b else s.fum.meBuf } ∧
      (∀ y < h, ∀ x < w, ∀ v, aoOut (s.flag R.FUM_AOC_CTL_RAW10) (s.flag R.FUM_AOC_CTL_BIN2) rows (s.get R.FUM_AOC_WIN_X0) (s.get R.FUM_AOC_WIN_Y0) y x = some v →
        byteAt 0 t.ao (aoBuf b + y * w + x) = v % 256) ∧
      (∀ a, a < aoBuf b ∨ aoBuf b + h * w ≤ a → byteAt 0 t.ao a = byteAt 0 s.ao a) ∧ t = { s with regs := t.regs, fum := t.fum, ao := t.ao })) ∧
  (∀ (raw10 : Bool) (rows : List (List Nat)) (x0 y0 y x v : Nat), (rows[y0 + y]?).bind (·[x0 + x]?) = some v → v < 1024 →
    aoOut raw10 false rows x0 y0 y x = some (if raw10 then v / 4 else v % 256)) ∧
  (∀ s : State, s.fum.meBuf = none → Completes .meResult s fun t => t = s) ∧
  (∀ (s : State) (b : Nat), s.fum.meBuf = some b →
    let mu := (List.range 192).map fun c => s.meCell b c
    let score := match s.fum.meRef with
      | none => 0
      | some ref => ((List.range 192).filter fun c => bitB (s.get R.FUM_ME_MASK_CELLS (c / 32)) (c % 32) &&
          decide (s.get R.FUM_ME_CFG_CELLTHR < max (mu.getD c 0 - ref.getD c 0) (ref.getD c 0 - mu.getD c 0))).length
    let run := s.flag R.FUM_FIE_CTL_AUTO = true ∧ s.get R.FUM_ME_CFG_MEGATE ≤ score ∧ s.flag R.FUM_FIE_STAT_BUSY = false
    Completes .meResult s fun t => t.get R.FUM_ME_SCORE_SCORE = score ∧ t.fum.meRef = some mu ∧ t.fum.meBuf = none ∧ t.fum.asleep = false ∧
      (run → t.fum.fie = some { list := s.get R.FUM_FIE_CTL_LIST, buf := b, auto := true, ext := false } ∧ t.get R.FUM_FIE_STAT_BUSY = 1 ∧
        t.get R.FUM_FIE_STAT_ERR = 0 ∧ t.get R.FUM_FIE_STAT_SAT = 0) ∧
      (¬ run → t.fum.fie = s.fum.fie ∧ t.fum.code2 = 0 ∧ t.fum.code3 = score) ∧
      (s.get R.FUM_WDAC_SRC = 1 → s.flag R.FUM_STAT_MINIMAL = false → t.get R.FUM_WDAC_CODE = score)) ∧
  (∀ (s : State) (m : Master) (auto : Bool) (list : BitVec 18), s.Serves m 0x3800C0 ∨ m = .m3 ∧ s.get R.BOOT_STAT_PHASE = 3 ∧ s.engRuns 7 = false →
    (s.flag R.FUM_STAT_MINIMAL = true → Completes (.fieGo m auto list) s fun t => t = (s.begun m).errMark m) ∧
    (s.flag R.FUM_STAT_MINIMAL = false → Completes (.fieGo m auto list) s fun t => t.get R.FUM_FIE_CTL_AUTO = b2n auto ∧
      t.get R.FUM_FIE_CTL_LIST = list.toNat ∧ t.get R.FUM_FIE_STAT_BUSY = (if s.flag R.FUM_FIE_STAT_BUSY then s.get R.FUM_FIE_STAT_BUSY else 1) ∧
      t.fum.fie = (if s.flag R.FUM_FIE_STAT_BUSY then s.fum.fie
        else some { list := list.toNat, buf := s.get R.FUM_AOC_STAT_BUF, auto := false, ext := false }) ∧
      t = { s.begun m with regs := t.regs, fum := t.fum })) ∧
  (∀ s : State, s.fum.fie = none → Completes .fieRunDone s fun t => t = s) ∧
  (∀ (s : State) (r : FieRun), s.fum.fie = some r → let q := s.fieList r.buf 64 r.list false none
    Completes .fieRunDone s fun t => t.get R.FUM_FIE_STAT_BUSY = 0 ∧ t.get R.FUM_FIE_STAT_ERR = b2n q.2.1 ∧ t.get R.FUM_FIE_STAT_SAT = b2n q.2.2.1 ∧
      t.fum.fie = none ∧ t.ao = q.1.ao ∧ t.fum.code3 = max (s.get R.FUM_ME_SCORE_SCORE) t.fum.code2 ∧
      (q.2.1 = true ∨ 6 ≤ (s.fieLayer r.list r.buf).op → t.get R.FUM_FIE_SCORE_CODE = 0 ∧ t.fum.code2 = 0) ∧
      (∀ e, q.2.1 = false → q.2.2.2 = some e → -128 ≤ e → e ≤ 127 → t.get R.FUM_FIE_SCORE_CODE = (e + 128).toNat ∧ t.fum.code2 = (e + 128).toNat ∧
        (r.ext = true → Out.reply true (e + 128).toNat ∈ t.out))) ∧
  (∀ (s : State) (l : FieLayer) (y x c : Nat), l.op = 1 ∨ l.op = 2 ∨ l.op = 3 ∨ l.op = 5 →
    let acc := (s.fieAcc l y x c).1
    let o := max (-128) (min 127 ((acc * l.mult + 2 ^ (l.shift + 15)) / 2 ^ (l.shift + 16)))
    (s.fieElem l y x c).1 = if l.relu then max 0 o else o) ∧
  ∀ (s : State) (l : FieLayer) (c : Nat), l.op = 3 → let n := l.ih * l.iw * l.ic
    let v : Int := s.fieBias l c + sumInt ((List.range n).map fun i => s.fieW l (c * n + i) * s.fieIn l i)
    s.fieAcc l 0 0 c = (max (-2147483648) (min 2147483647 v), decide (2147483647 < v ∨ v < -2147483648))

/-- The microcontroller and the licensee extension (R403, R414 to R417). -/
def Obligations.MicrocontrollerAndItsExtension : Prop :=
  (∀ (s : State) (m : Master) (run : Bool) (div : BitVec 2), s.Serves m 0x380008 ∨ m = .m3 ∧ s.get R.BOOT_STAT_PHASE = 3 ∧ s.engRuns 7 = false →
    let here := s.aoNat 0x30000 4 = 0x46585431 ∧ ∀ o ∈ [8, 12, 16, 20], s.aoNat (0x30000 + o) 4 < 0xC000
    let gen := s.aoNat 0x30004 4
    let fits := s.fl (s.boot.fumarole + 0x1C) 4 ≤ gen ∧ gen ≤ s.fl (s.boot.fumarole + 0x20) 4
    let off := s.flag R.FUM_MCU_CTL_RUN = false
    Completes (.mcuRun m run div) s fun t => t.get R.FUM_MCU_CTL_DIV = div.toNat ∧
      (off → run = true → s.fum.bad = true → t = { s.begun m with regs := t.regs } ∧ SameRegs s t [R.FUM_MCU_CTL_DIV.key 0 0]) ∧
      (off → run = true → s.fum.bad = false → t.get R.FUM_MCU_CTL_RUN = 1 ∧
        (s.flag R.FUM_STAT_MINIMAL = false ∧ here ∧ fits → t.get R.FUM_MCU_CTL_EXT = 1 ∧ t.get R.BOOT_COMPAT_EXTOK = 1) ∧
        (¬ (s.flag R.FUM_STAT_MINIMAL = false ∧ here ∧ fits) → t.get R.FUM_MCU_CTL_EXT = 0 ∧ t.get R.BOOT_COMPAT_EXTOK = 0) ∧
        (s.flag R.FUM_STAT_MINIMAL = false → here → ¬ fits → t.fum.log.length = s.fum.log.length + 1 ∧
          Recorded s t fun r => r.cls = 10 ∧ r.cause = 3 ∧ r.d0 = gen)) ∧
      (¬ off → run = false → t.get R.FUM_MCU_CTL_RUN = 0 ∧ t.get R.FUM_MCU_CTL_EXT = 0 ∧ t.fum = { s.fum with asleep := false }) ∧
      ((off ↔ run = false) → t = { s.begun m with regs := t.regs } ∧ SameRegs s t [R.FUM_MCU_CTL_DIV.key 0 0])) ∧
  (∀ s : State, s.extOn = true → Completes .extWait s fun t => t = { s with fum := { s.fum with asleep := true } }) ∧
  (∀ s : State, s.extOn = true → let may := bitB (s.get R.FUM_WAKE_EN_EN) 3 = true ∧ s.flag R.FUM_ACMP_CFG_SRC 3 = true
    (¬ may → Completes .extWake s fun t => t = s.emit (.reply true 0xFFFFFFFF)) ∧
    (may → Completes .extWake s fun t => t.get R.FUM_WDAC_SRC = 4 ∧ t.get R.FUM_WDAC_MAN = 255 ∧ t.get R.FUM_WDAC_CODE = 255 ∧
      (s.get R.FUM_WDAC_SRC ≠ 4 → t.fum.holdOff = s.tb + 400) ∧ t = { s with regs := t.regs, fum := t.fum, out := s.out ++ [Out.reply true 0] })) ∧
  (∀ (s : State) (l : Word), s.extOn = true →
    (s.flag R.FUM_FIE_STAT_BUSY = true → Completes (.extFieRun l) s fun t => t = s.emit (.reply true 0xFFFFFFFF)) ∧
    (s.flag R.FUM_FIE_STAT_BUSY = false → Completes (.extFieRun l) s fun t => t.get R.FUM_FIE_STAT_BUSY = 1 ∧
      t.fum.fie = some { list := l.toNat, buf := s.get R.FUM_AOC_STAT_BUF, auto := false, ext := true } ∧ t = { s with regs := t.regs, fum := t.fum })) ∧
  (∀ (s : State) (c v : Word), s.extOn = true → Completes (.extLog c v) s fun t =>
    t = { s with fum := { s.fum with log := s.fum.log ++ [(s.get R.FUM_RTC_RTC, c.toNat, v.toNat)] } }) ∧
  (∀ s : State, s.extOn = true → Completes .extTime s fun t => t = s.emit (.reply true (s.get R.FUM_RTC_RTC))) ∧
  (∀ (s : State) (o n : Word), s.extOn = true → let k := min 256 n.toNat
    Completes (.extMbox o n) s fun t => bytesAt 0 t.ao 0x800 k = bytesAt 0 s.ao o.toNat k ∧
      (∀ a, a < 0x800 ∨ 0x800 + k ≤ a → byteAt 0 t.ao a = byteAt 0 s.ao a) ∧
      t.get R.FUM_MBOX_M2W = (s.get R.FUM_MBOX_M2W + 1) % 2 ^ 16 ∧ t = { s with regs := t.regs, ao := t.ao, out := s.out ++ [Out.irqWarden 2] }) ∧
  (∀ (s : State) (c : Instr), s.extOn = false → (c = .extWait ∨ c = .extWake ∨ (∃ l, c = .extFieRun l) ∨ (∃ x y, c = .extLog x y) ∨ c = .extTime ∨
    ∃ x y, c = .extMbox x y) → Completes c s fun t => t = s) ∧
  ∀ s : State, let on := s.flag R.FUM_MCU_CTL_RUN = true ∧ s.flag R.FUM_MCU_CTL_EXT = true
    (on → Completes .extEntryTimeout s fun t => t.get R.FUM_MCU_CTL_EXT = 0 ∧ t.fum.asleep = false ∧ t.fum.log.length = s.fum.log.length + 1 ∧
      SameRegs s t [R.FUM_MCU_CTL_EXT.key 0 0] ∧ t = { s with regs := t.regs, fum := t.fum, fresh := t.fresh }) ∧
    (¬ on → Completes .extEntryTimeout s fun t => t = s)

/-- Power states and wake (R411, R413, R525 to R539). -/
def Obligations.PowerStatesAreEnteredAndLeft : Prop :=
  (∀ (s : State) (m : Master) (v : Nat) (c : Instr), s.Serves m (if m = .m3 then 0x38F010 else 0x300000) →
    (v = 2 ∧ c = .pwrReqS2 m ∨ v = 3 ∧ c = .pwrReqS3 m ∨ v = 4 ∧ c = .pwrReqS4 m) → s.pwr.tripped = false →
    let r := if s.pwr.entry.isSome ∨ s.flag R.PWR_STAT_EXITING then 3 else if v ≠ 4 ∧ s.get R.FUM_WAKE_EN_EN = 0 then 2
      else if s.pwrQuiet % 128 ≠ 127 then 1 else 0
    (r ≠ 0 → Completes c s fun t => t.get R.PWR_STAT_REFUSE = r ∧ t.get R.PWR_EVT_REFUSED = 1 ∧
      (s.flag R.PWR_CTL_IRQ = false → SameRegs s t [R.PWR_STAT_REFUSE.key 0 0, R.PWR_EVT_REFUSED.key 0 0] ∧ t = { s.begun m with regs := t.regs })) ∧
    (r = 0 → Completes c s fun t => t.get R.PWR_STAT_ENTERING = 1 ∧ t.get R.PWR_STAT_STATE = 0 ∧ t.pwr.entry = some ⟨v, s.tb⟩ ∧
      SlotsRolled s t 8 ∧ (∀ c < 2, t.flag R.DCO_C_CTL_EN c = false) ∧ (∀ p < 4, t.flag R.CIF_P_CTL_EN p = false) ∧
      ∀ d < 32, d < 4 ∨ 16 ≤ d → s.domOn d = true → d ∈ t.pwr.drains)) ∧
  (∀ (s : State) (rtc : BitVec 48), s.pwr.entry = none → Completes (.stateEntryComplete rtc) s fun t => t = s) ∧
  (∀ (s : State) (rtc : BitVec 48) (e : PwrEntry), s.pwr.entry = some e → Completes (.stateEntryComplete rtc) s fun t =>
    t.pwr.entry = none ∧ t.get R.PWR_STAT_ENTERING = 0 ∧ t.get R.PWR_LAT_ENTRY = min 0xFFFF ((s.tb - e.t0) / 100) ∧
    t.get R.PWR_STAT_STATE = (if e.target = 2 then 2 else 3) ∧ t.get R.PWR_DOM_ON_ON_EMB = 0 ∧ t.emb = [] ∧
    (e.target ≠ 2 → t.get R.PWR_DOM_ON_ON_DOM = 0 ∧ t.get R.PAD_HOLD_STAT_GEN = 1 ∧ t.cru.latTb = s.tb ∧ t.cru.latRtc = rtc.toNat ∧
      t.pwr.s4 = (e.target == 4)) ∧
    (e.target ≠ 2 → s.flag R.PWR_CTL_RAILOFF = true ∨ e.target = 4 → Out.pin "PWR_EN" 0 ∈ t.out) ∧
    (e.target ≠ 4 → s.flag R.FUM_WSRC_ENTRYWAKE = true → t.get R.PWR_STAT_EXITING = 1 ∧ t.pwr.exit = some (s.tb, if e.target = 2 then 2 else 3))) ∧
  (∀ s : State, let ok := s.flag R.PWR_CTL_S1EN = true ∧ s.get R.PWR_STAT_STATE = 0 ∧ s.pwr.entry = none ∧ s.get R.BOOT_STAT_PHASE = 3 ∧
      s.pwr.tripped = false ∧ s.s1Quiet = true
    (ok → Completes .s1Entry s fun t => t.get R.PWR_STAT_STATE = 1 ∧ SameRegs s t [R.PWR_STAT_STATE.key 0 0] ∧ t = { s with regs := t.regs }) ∧
    (¬ ok → Completes .s1Entry s fun t => t = s)) ∧
  (∀ s : State, (s.get R.PWR_STAT_STATE = 1 → Completes .s1Exit s fun t => t.get R.PWR_STAT_STATE = 0 ∧
      t.get R.FUM_TBSYNC_TB_VALUE = s.tb ∧
      t = { s with regs := t.regs, pwr := { s.pwr with temps := [] } }) ∧ (s.get R.PWR_STAT_STATE ≠ 1 → Completes .s1Exit s fun t => t = s)) ∧
  (∀ (s : State) (trips levels : BitVec 4), let counted (n : Nat) := trips.getLsbD n && s.tripCounts n
    let may (n : Nat) := counted n && bitB (s.get R.FUM_WAKE_EN_EN) n
    let any := ∃ n < 4, may n = true
    let live := s.pwr.tripped = false ∧ s.flag R.PWR_STAT_EXITFAIL = false
    Completes (.comparatorTrip trips levels) s fun t =>
      (∀ n < 4, bitB (t.get R.FUM_ACMP_STAT_LEVEL) n = (levels.getLsbD n || counted n) ∧
        bitB (t.get R.FUM_ACMP_STAT_TRIP) n = (bitB (s.get R.FUM_ACMP_STAT_TRIP) n || counted n)) ∧
      ((∃ n < 4, counted n = true) → Out.irqMcu 2 ∈ t.out) ∧ t.get R.PWR_STAT_STATE = s.get R.PWR_STAT_STATE ∧
      (s.get R.PWR_STAT_STATE < 2 → s.pwr.entry = none → t.pwr = s.pwr ∧ t.get R.FUM_WSRC_SRC = s.get R.FUM_WSRC_SRC) ∧
      (∀ e, s.pwr.entry = some e → e.target ≠ 4 → live → any → t.get R.FUM_WSRC_ENTRYWAKE = 1 ∧
        (∀ n < 4, may n = true → bitB (t.get R.FUM_WSRC_SRC) n = true) ∧ t.pwr = s.pwr) ∧
      (s.pwr.entry = none → 2 ≤ s.get R.PWR_STAT_STATE → s.pwr.s4 = false → live → any →
        (∀ n < 4, may n = true → bitB (t.get R.FUM_WSRC_SRC) n = true) ∧
        (s.flag R.PWR_STAT_EXITING = true → t.pwr = s.pwr) ∧
        (s.flag R.PWR_STAT_EXITING = false → t.get R.PWR_STAT_EXITING = 1 ∧ t.pwr.exit = some (s.tb, s.get R.PWR_STAT_STATE) ∧
          (s.get R.PWR_STAT_STATE = 3 → s.flag R.PWR_CTL_RAILOFF = true → t.pwr.waitGood = true ∧ Out.pin "PWR_EN" 1 ∈ t.out)))) ∧
  (∀ (n : Nat) (s : State), n < 3 → s.tripCounts n = s.flag R.FUM_ACMP_CFG_EN n) ∧
  (∀ (s : State) (rtc : BitVec 48) (us : BitVec 16) (env : BootEnv) (t0 : Nat), s.pwr.exit = some (t0, 3) →
    let held := s.pwr.tripped = true ∨ s.domOn 0 = false ∨ 6 ∈ s.pwr.ramps ∨ 7 ∈ s.pwr.ramps
    (held → Completes (.s3ExitComplete rtc us env) s fun t => t = s) ∧
    (¬ held → s.resumeOk = true → Completes (.s3ExitComplete rtc us env) s fun t => t.get R.PWR_STAT_STATE = 0 ∧ t.get R.PWR_STAT_EXITING = 0 ∧
      t.get R.PWR_EVT_WAKE = 1 ∧ t.get R.PWR_LAT_EXIT = us.toNat ∧ t.get R.BOOT_STAT_PHASE = 3 ∧ t.pwr.exit = none ∧
      t.tb = (s.cru.latTb + (rtc.toNat - s.cru.latRtc) * 390625 / 128) % 2 ^ 64 ∧ t.get R.PAD_HOLD_STAT_HIF = 0 ∧ t.get R.PAD_HOLD_STAT_MEM = 0 ∧
      t.get R.PAD_HOLD_STAT_BOOT = 0 ∧ t.get R.PAD_HOLD_STAT_GEN = s.get R.PAD_HOLD_STAT_GEN ∧ t.flt.later = [])) ∧
  (∀ s : State, Completes .pwrGoodRise s fun t => t.pwr.waitGood = false ∧ t.pwr.powerGood = true ∧
    (s.pwr.waitGood = true → s.locked 0 = false → s.domOn 0 = false → 0 ∈ t.pwr.ramps) ∧
    (s.pwr.waitGood = false → t.pwr.ramps = s.pwr.ramps) ∧ t = { s with pwr := t.pwr }) ∧
  (∀ s : State, (s.pwr.waitGood = false → Completes .pwrGoodTimeout s fun t => t = s) ∧
    (s.pwr.waitGood = true → Completes .pwrGoodTimeout s fun t => t.get R.PWR_STAT_EXITFAIL = 1 ∧ t.get R.PWR_STAT_EXITING = 0 ∧ t.pwr.exit = none ∧
      t.pwr.waitGood = false ∧ t.get R.PWR_ABORTLOG_CAUSE = 4 ∧ t.get R.PWR_ABORTLOG_DOMAIN = 0 ∧ t.get R.PWR_STAT_STATE = s.get R.PWR_STAT_STATE ∧
      bitB (t.get R.PWR_ABORTED_AB_DOM) 0 = true)) ∧
  ∀ (s : State) (m : Master), s.Serves m 0x400F00 →
    (s.flag R.PAD_HOLD_STAT_GEN = false → Completes (.padHoldRelease m) s fun t => t = s.begun m) ∧
    (s.flag R.PAD_HOLD_STAT_GEN = true → Completes (.padHoldRelease m) s fun t => t.get R.PAD_HOLD_STAT_GEN = 0 ∧ t.pad.held = none)

/-- Domains, the power budget and temperature (R517 to R523, R541 to R546, R650). -/
def Obligations.DomainsCapsAndTemperature : Prop :=
  (∀ (s : State) (m : Master) (req : BitVec 5), s.Serves m 0x300020 → Completes (.pwrDomReqWrite m req) s fun t =>
    t.get R.PWR_DOM_REQ_REQ = req.toNat ∧ SameRegs s t [R.PWR_DOM_REQ_REQ.key 0 0] ∧ t = { s.begun m with regs := t.regs, pwr := t.pwr } ∧
    ∀ d, 1 ≤ d → d ≤ 5 →
      (req.getLsbD (d - 1) = true → s.locked d = false → s.domOn d = false → d ∈ t.pwr.ramps) ∧
      (req.getLsbD (d - 1) = true → s.locked d = true → (d ∈ t.pwr.ramps ↔ d ∈ s.pwr.ramps)) ∧
      (req.getLsbD (d - 1) = false → d ∉ t.pwr.ramps ∧ (s.domOn d = true → d ∈ t.pwr.drains))) ∧
  (∀ (s : State) (d : Fin 32),
    (d.val ∉ s.pwr.drains → Completes (.domainDrainDone d) s fun t => t = s) ∧
    (d.val ∈ s.pwr.drains → s.pwr.entry.isSome = true → Completes (.domainDrainDone d) s fun t => d.val ∉ t.pwr.drains ∧ t.regs = s.regs) ∧
    (d.val ∈ s.pwr.drains → s.pwr.entry = none → Completes (.domainDrainDone d) s fun t => d.val ∉ t.pwr.drains ∧ t.domOn d = false ∧
      (1 ≤ d.val → d.val ≤ 5 → bitB (s.get R.PWR_DOM_REQ_REQ) (d.val - 1) = true → s.locked d = false → d.val ∈ t.pwr.ramps) ∧
      (d.val = 1 → t.gfx = {}) ∧ (d.val = 2 → t.dco = {}) ∧ (d.val = 3 → t.cif = {}) ∧ (16 ≤ d.val → t.em (d.val - 16) = {}))) ∧
  (∀ (s : State) (d : Fin 32), d.val < 8 ∨ 16 ≤ d.val →
    (d.val ∉ s.pwr.ramps → Completes (.rampPass d) s fun t => t = s) ∧
    (d.val ∈ s.pwr.ramps → Completes (.rampPass d) s fun t => t.domOn d = true ∧ d.val ∉ t.pwr.ramps ∧
      (d.val = 0 → s.locked 6 = false → s.domOn 6 = false → 6 ∈ t.pwr.ramps))) ∧
  (∀ (s : State) (d : Fin 32) (cause : Nat) (c : Instr), d.val < 8 ∨ 16 ≤ d.val →
    (cause = 1 ∧ c = .rampWindowAbort d ∨ cause = 2 ∧ c = .rampCurrentAbort d) →
    (d.val ∉ s.pwr.ramps → Completes c s fun t => t = s) ∧
    (d.val ∈ s.pwr.ramps → Completes c s fun t => t.locked d = true ∧ d.val ∉ t.pwr.ramps ∧ t.get R.PWR_ABORTLOG_CAUSE = cause ∧
      t.get R.PWR_ABORTLOG_DOMAIN = min d.val 8 ∧ t.get R.PWR_ABORTLOG_EMBER = d.val - 16 ∧ t.get R.PWR_ABORTLOG_TB = s.tb % 2 ^ 32 ∧
      t.get R.PWR_EVT_ABORT = 1 ∧ (d.val < 8 → t.domOn d = s.domOn d) ∧ (d.val = 0 → t.get R.PWR_STAT_EXITFAIL = 1 ∧ t.pwr.exit = none) ∧
      (16 ≤ d.val → d.val - 16 ∈ t.wsp.outOf) ∧
      (0 < d.val → d.val < 8 → Recorded s t fun r => r.cls = 8 ∧ r.cause = cause ∧ r.src = d.val))) ∧
  (∀ (s : State) (p : BitVec 16), let prof := s.get R.CHIP_ID_VARIANT
    let c0 := if prof = 0 then 1400 else if prof = 1 then 4000 else 9000
    let b0 := if prof = 0 then 2200 else c0
    let sus := min c0 (s.get R.PWR_CAP_SUS)
    let burst := max sus (min b0 (s.get R.PWR_CAP_BURST))
    let e := s.pwr.bucket + p.toNat - min (s.pwr.bucket + p.toNat) sus
    let mode := if (burst - sus) * 2000 ≤ e then true else if 2 * e ≤ (burst - sus) * 2000 then false else s.pwr.sustained
    let lim := if mode then sus else burst
    let step := s.get R.PWR_LIMIT_CAPSTEP
    Completes (.powerMeasurement p) s fun t => t.get R.PWR_MEAS_P = p.toNat ∧ t.pwr.bucket = e ∧ t.get R.PWR_BUCKET_E = e / 10 % 2 ^ 32 ∧
      t.pwr.sustained = mode ∧
      (lim < p.toNat → t.get R.PWR_LIMIT_CAPSTEP = min 7 (step + 1) ∧ (6 ≤ step → t.flag R.PWR_STAT_CAPSAT = true ∧
        (s.flag R.PWR_STAT_CAPSAT = false → Recorded s t fun r => r.cls = 8 ∧ r.cause = 5 ∧ r.d0 = p.toNat))) ∧
      (p.toNat ≤ lim → t.get R.PWR_STAT_CAPSAT = 0 ∧
        t.get R.PWR_LIMIT_CAPSTEP = if 10 * p.toNat < 9 * lim ∧ 99 ≤ s.pwr.below then (step - 1) % 8 else step) ∧
      (t.get R.PWR_LIMIT_CAPSTEP ≠ step → t.get R.PWR_EVT_CAP = 1)) ∧
  (∀ s : State, let x := sgn 16 (s.get R.THM_MAX_TEMP)
    let trip := s.get R.PWR_THERM_TRIP
    let thr (f : Field) : Int := 8 * ((min (s.get f) (trip - 5) : Nat) : Int)
    let step := s.get R.PWR_LIMIT_THSTEP
    let runs := s.flag R.THM_MAX_VALID = true ∧ s.pwr.tripped = false
    (¬ runs → Completes .thermalControlRead s fun t => t = s) ∧
    (runs → 8 * (trip : Int) ≤ x → Completes .thermalControlRead s fun t => t.pwr.tripped = true ∧ t.get R.PWR_DOM_ON_ON_DOM = 0 ∧
      t.get R.PWR_DOM_ON_ON_EMB = 0 ∧ t.get R.PWR_ABORTLOG_DOMAIN = 15 ∧ t.get R.PWR_ABORTLOG_CAUSE = 3 ∧ t.mem = [] ∧ t.pwr.entry = none ∧
      t.pwr.exit = none) ∧
    (runs → x < 8 * (trip : Int) → Completes .thermalControlRead s fun t => t.pwr.crit = decide (thr R.PWR_THERM_CRIT ≤ x) ∧
      (thr R.PWR_THERM_CRIT ≤ x → t.get R.PWR_LIMIT_THSTEP = 7 ∧
        (s.pwr.crit = false → Recorded s t fun r => r.cls = 8 ∧ r.cause = 6 ∧ r.d0 = unsgn 16 x)) ∧
      (x < thr R.PWR_THERM_CRIT → thr R.PWR_THERM_THROT ≤ x → t.get R.PWR_LIMIT_THSTEP = min 7 (step + 1) ∧ t.get R.PWR_STAT_THROT = 1) ∧
      (x < thr R.PWR_THERM_CRIT → x < thr R.PWR_THERM_THROT →
        t.get R.PWR_LIMIT_THSTEP = (if x ≤ thr R.PWR_THERM_THROT - 40 ∧ 99 ≤ s.pwr.cool then (step - 1) % 8 else step) ∧
        (t.get R.PWR_LIMIT_THSTEP = 0 → t.get R.PWR_STAT_THROT = 0)) ∧
      (t.get R.PWR_LIMIT_THSTEP ≠ step → t.get R.PWR_EVT_THERM = 1))) ∧
  ∀ (s : State) (k : Fin 24) (x : BitVec 16),
    (2 ≤ s.get R.PWR_STAT_STATE ∨ s.pwr.tripped = true → Completes (.thermalSensorConversion k x) s fun t => t = s) ∧
    (s.get R.PWR_STAT_STATE < 2 → s.pwr.tripped = false → Completes (.thermalSensorConversion k x) s fun t =>
      t = { s with regs := t.regs, pwr := { s.pwr with temps := Cells.put s.pwr.temps k x.toNat } } ∧ t.get R.THM_MAX_VALID = 1 ∧
      (∃ y ∈ t.pwr.temps, t.get R.THM_MAX_TEMP = y.2 % 2 ^ 16 ∧ ∀ z ∈ t.pwr.temps, sgn 16 z.2 ≤ sgn 16 y.2) ∧
      (18 ≤ k.val → t.get R.THM_SITE_TEMP (k.val - 18) = x.toNat ∧ t.get R.THM_SITE_VALID (k.val - 18) = 1) ∧
      (∀ n < 16, k.val < 18 → s.physOf n = some k.val → (∀ j < n, s.physOf j ≠ some k.val) →
        t.get R.THM_EMB_TEMP n = x.toNat ∧ t.get R.THM_EMB_VALID n = 1))

/-- Resets (R461, R550, R639, R642, R654 to R661). -/
def Obligations.ResetsTakePlaceAndRelease : Prop :=
  let cold (s t : State) (k : ResetKind) := t.mem = [] ∧ t.ao = [] ∧ t.flash = s.flash ∧ t.rst.asserted = some k ∧ t.own = {} ∧ t.staged = [] ∧
    t.pad = { lvl := s.pad.lvl } ∧ t.boot = { keyHash := s.boot.keyHash } ∧ t.pending = s.pending ∧
    (∀ key f, fieldAt key = some f → f.kept &&& k.bit = 0 → ∀ d, Cells.get d t.regs key = d) ∧
    ∀ key f, fieldAt key = some f → f.kept &&& k.bit ≠ 0 → ∀ d, Cells.get d t.regs key = Cells.get d s.regs key
  let released (t : State) (k : ResetKind) (env : BootEnv) := t.rst.asserted = none ∧ t.get R.PAD_STRAP_STRAPS = env.straps.toNat ∧
    t.flag R.CHL_STAT_ROOT = env.straps.getLsbD 2 ∧ t.get R.CRU_RST_STAT_LAST = k.code ∧ t.get R.BOOT_STAT_ENTRY = k.code ∧ t.domOn 0 = true ∧
    Out.pin "PWR_EN" 1 ∈ t.out ∧ (2 ≤ env.straps.toNat % 4 → t.get R.BOOT_STAT_PHASE = 5) ∧
    (env.straps.toNat % 4 = 1 → env.straps.getLsbD 2 = true → t.get R.BOOT_STAT_PHASE = 4 ∧ t.get R.BOOT_FATAL_STEP = 1 ∧ t.get R.BOOT_FATAL_DETAIL = 0x600)
  let warm (s t : State) (k : ResetKind) (src : Nat) := t.get R.CRU_RST_STAT_LAST = k.code ∧ t.get R.CRU_RST_STAT_SRC = src ∧
    t.get R.CRU_RST_STAT_COUNT = min (s.get R.CRU_RST_STAT_COUNT + 1) 65535 ∧ t.get R.BOOT_STAT_ENTRY = k.code ∧ t.staged = [] ∧ t.txn = [] ∧
    t.ao = s.ao ∧ t.rst.held = []
  (∀ s : State, (s.rst.asserted = some .por → Completes .porReset s fun t => t = s) ∧
    (s.rst.asserted ≠ some .por → Completes .porReset s fun t => cold s t .por ∧ t.jtag = {}) ∧
    (s.rst.asserted.isSome = true → Completes .pinReset s fun t => t = s) ∧
    (s.rst.asserted = none → Completes .pinReset s fun t => cold s t .pin ∧ t.jtag = s.jtag.abort)) ∧
  (∀ (s : State) (env : BootEnv),
    (s.rst.asserted = some .por → Completes (.porRelease env) s fun t => released t .por env) ∧
    (s.rst.asserted ≠ some .por → Completes (.porRelease env) s fun t => t = s) ∧
    (s.rst.asserted = some .pin → Completes (.pinRelease env) s fun t => released t .pin env) ∧
    (s.rst.asserted ≠ some .pin → Completes (.pinRelease env) s fun t => t = s)) ∧
  (∀ (s : State) (env : BootEnv), let up := s.flag R.HIF_STAT_LINKUP = true ∧ s.rstReach = true
    (¬ up → Completes (.flr env) s fun t => t = s) ∧
    (up → s.get R.PWR_STAT_STATE = 2 → Completes (.flr env) s fun t => t = { s with rst := { s.rst with held := s.rst.held ++ [(1, env)] } }) ∧
    (up → s.get R.PWR_STAT_STATE < 2 → Completes (.flr env) s fun t => warm s t .warm 1)) ∧
  (∀ (s : State) (m : Master) (key : BitVec 16) (both : Bool) (env : BootEnv), s.Serves m 0x200400 →
    (key ≠ 0x5253 → Completes (.cruRstWarm m key env) s fun t => t = (s.begun m).errComp m .badkey 0x200400) ∧
    (key ≠ 0x5253 → Completes (.cruRstChn m key both env) s fun t => t = (s.begun m).errComp m .badkey 0x200400) ∧
    (s.rstReach = false → Completes (.cruRstWarm m 0x5253 env) s fun t => t = s.begun m) ∧
    (s.rstReach = true → Completes (.cruRstWarm m 0x5253 env) s fun t => warm s t .warm 3) ∧
    (s.rstReach = true → Completes (.cruRstChn m 0x5253 both env) s fun t => warm s t .chn 3 ∧
      ∀ p < 2, s.get R.CHLP_STAT_STATE p = 5 ∨ s.get R.CHLP_STAT_STATE p = 6 → (s.chlPort p).q = [] → (s.chlPort p).replay = [] →
        1 ≤ (s.chlPort p).cred.getD 2 0 → ∃ src dst tag st arg bs, Out.chl p 0x20 src dst tag st arg bs ∈ t.out ∧ arg % 512 = 0x10C)) ∧
  (∀ (s : State) (env : BootEnv), let due := s.get R.WDT_STAT_STAGE = 2 ∧ s.rstReach = true ∧ s.get R.PWR_STAT_STATE ≠ 2
    (¬ due → Completes (.wdtStage2Expiry env) s fun t => t = s) ∧
    (due → Completes (.wdtStage2Expiry env) s fun t => warm s t .wdt 0 ∧ t.get R.WDT_RINFO_VALID = 1 ∧ t.get R.WDT_RTB_TBASE = s.tb ∧
      t.get R.WDT_RKICK_TBASE = s.wdt.lastKick % 2 ^ 64 ∧ t.get R.WDT_RINFO_COUNT = min (s.get R.WDT_RINFO_COUNT + 1) 65535)) ∧
  (∀ (s : State) (kind : Fin 3) (up : Bool) (speed width : BitVec 4), let reach := s.rstReach = true ∧ s.domOn 7 = true
    (¬ reach → Completes (.hifLinkReset kind up speed width) s fun t => t = s) ∧
    (reach → kind = 1 → s.get R.PWR_STAT_STATE = 2 → Completes (.hifLinkReset kind up speed width) s fun t =>
      t = { s with rst := { s.rst with held := s.rst.held ++ [(6, { link := if up then some (speed.toNat, width.toNat) else none })] } }) ∧
    (reach → kind ≠ 1 ∨ s.get R.PWR_STAT_STATE ≠ 2 → s.engRuns 0 = false → Completes (.hifLinkReset kind up speed width) s fun t =>
      t.engRuns 0 = true ∧ t.get R.HIF_STAT_LINKUP = b2n up ∧ (up = true → t.get R.HIF_STAT_SPEED = speed.toNat % 8) ∧ t.ap = [] ∧
      (2 ≤ s.get R.OWN_STAT_STATE ∧ s.get R.OWN_STAT_OWNER = 0 → t.get R.OWN_STAT_STATE = 1) ∧
      (s.get R.OWN_STAT_STATE < 2 ∨ s.get R.OWN_STAT_OWNER ≠ 0 → t.get R.OWN_STAT_STATE = s.get R.OWN_STAT_STATE)) ∧
    (reach → s.get R.PWR_STAT_STATE = 0 → s.engRuns 0 = true → Completes (.hifLinkReset kind up speed width) s fun t => t = s)) ∧
  ∀ (s : State) (m : Master) (b : Nat) (c : Instr), s.Serves m 0x200404 →
    (b = 0 ∧ c = .engResetHif m ∨ b = 1 ∧ c = .engResetTxn m ∨ b = 2 ∧ c = .engResetDtu m ∨ b = 3 ∧ c = .engResetSin m ∨ b = 4 ∧ c = .engResetDco m ∨
      b = 5 ∧ c = .engResetCif m ∨ b = 6 ∧ c = .engResetPad m ∨ b = 7 ∧ c = .engResetFum m ∨ ∃ n : Fin 16, b = 16 + n.val ∧ c = .engResetEmber m n) →
    let absorbed := s.engRuns b = true ∨ 16 ≤ b ∧ s.embCount ≤ b - 16
    (absorbed → Completes c s fun t => t = s.begun m) ∧
    (¬ absorbed → Completes c s fun t => t.engRuns b = true ∧
      (b ∉ [0, 3, 6] → ∀ key f, fieldAt key = some f → engOf (key / 64) = some b → f.kept &&& 16 = 0 → (f.src == .b) = false →
        ∀ d, Cells.get d t.regs key = d) ∧
      (b = 0 → t.ap = [] ∧ (s.get R.OWN_STAT_OWNER = 0 → 2 ≤ s.get R.OWN_STAT_STATE → t.get R.OWN_STAT_STATE = 1)) ∧
      (b = 1 → SlotsRolled s t 7) ∧ (b = 2 → t.dtu.hnd = [] ∧ t.dtu.miss = [] ∧ t.dtu.park = [] ∧ t.dtu.atc = []) ∧ (b = 3 → t.sin = {}) ∧
      (b = 4 → t.dco.ch = [] ∧ t.dco.pose = none) ∧ (b = 5 → t.cif = {}) ∧ (b = 6 → ∀ x ∈ t.pad.ser, x.1 = 3) ∧
      (b = 7 → t.get R.FUM_MCU_CTL_RUN = 0 ∧ t.get R.FUM_RTC_RTC = s.get R.FUM_RTC_RTC ∧ t.ao = s.ao) ∧ (16 ≤ b → t.em (b - 16) = {}))

/-- The time limits of the bring-up's two waits (R569, R570). -/
def Obligations.WaitsOfTheBringUpEnd : Prop :=
  (∀ s : State, (s.boot.waitSlot = false → Completes .slotWaitTimeout s fun t => t = s) ∧
    (s.boot.waitSlot = true → Completes .slotWaitTimeout s fun t => t.boot.waitSlot = false ∧
      t.boot.crumbs.lookup (s.get R.BOOT_BC_HEAD_HEAD % 256) = some (12 + 5 * 2 ^ 8 + 0x0100 * 2 ^ 16, s.tb))) ∧
  ∀ s : State, (s.boot.waitChain = false → Completes .chainwaitExpiry s fun t => t = s) ∧
    (s.boot.waitChain = true → s.boot.env.hang ≠ some 21 → Completes .chainwaitExpiry s fun t => t.boot.waitChain = false ∧ t.get R.BOOT_STAT_PHASE = 3 ∧
      t.get R.BOOT_READY_TB_TBASE = s.tb ∧ t.get R.OWN_STAT_STATE = 1 ∧
      ∀ d < 8, bitB (t.get R.BOOT_CHAIN_WAIT) d = (decide (d ≠ 0) && s.onChain d && !bitB (s.get R.BOOT_CHAIN_READY ||| s.get R.BOOT_CHAIN_FAILED) d))

/-- Mailbox, BOOT_CTL and TAP (R557, R558, R584, R585, R589, R671 to R674). -/
def Obligations.MailboxBootControlAndTestPort : Prop :=
  let answers (a t : State) (status : Nat) := bitB (t.rawGet 0x4FF4) 31 = false ∧ bitB (t.rawGet 0x4FF4) 30 = true ∧ t.rawGet 0x4800 % 2 ^ 16 = a.mbxNum 0 2 ∧
    t.rawGet 0x4804 = a.mbxNum 4 4 ∧ t.rawGet 0x4808 = status ∧ t.mem = a.mem ∧ t.ao = a.ao ∧ t.pending = a.pending ∧ t.boot = a.boot ∧
    (bitB (a.rawGet 0x4FF0) 31 = true → a.isDie0 = true → bitB (a.rawGet (0x8000 + 16 * 14 + 12)) 0 = false → Out.msix 14 ∈ t.out)
  let refuses (a t : State) (status : Nat) := answers a t status ∧ t.flash = a.flash
  let info (a t : State) := refuses a t 0
  let writes (ok : Bool) (a t : State) := let n := a.mbxNum 2 2 - 8; let off := a.mbxNum 20 4
    let sized := 8 ≤ a.mbxNum 2 2 ∧ a.mbxNum 2 2 ≤ 2016
    (¬ sized → refuses a t 2) ∧
    (sized → a.mbxRegion (a.mbxNum 16 4) = none → refuses a t 4) ∧
    (sized → a.mbxRegion (a.mbxNum 16 4) = some none → refuses a t 2) ∧
    ∀ e, sized → a.mbxRegion (a.mbxNum 16 4) = some (some e) →
      (e.len < off + n → refuses a t 2) ∧ (off + n ≤ e.len → ok = false → refuses a t 3) ∧
      (off + n ≤ e.len → ok = true → answers a t 0 ∧ (∀ i < n, byteAt 0xFF t.flash (e.off + off + i) = byteAt 0xFF a.flash (e.off + off + i) &&& a.mbxByte (24 + i)) ∧
        ∀ x, x < e.off + off ∨ e.off + off + n ≤ x → byteAt 0xFF t.flash x = byteAt 0xFF a.flash x)
  let erases (ok : Bool) (a t : State) := let i := a.mbxNum 20 4
    (a.mbxRegion (a.mbxNum 16 4) = none → refuses a t 4) ∧
    (a.mbxRegion (a.mbxNum 16 4) = some none → refuses a t 2) ∧
    ∀ e, a.mbxRegion (a.mbxNum 16 4) = some (some e) →
      (e.len < 65536 * (i + 1) → refuses a t 2) ∧ (65536 * (i + 1) ≤ e.len → ok = false → refuses a t 3) ∧
      (65536 * (i + 1) ≤ e.len → ok = true → answers a t 0 ∧ (∀ x, e.off + 65536 * i ≤ x → x < e.off + 65536 * i + 65536 → byteAt 0xFF t.flash x = 0xFF) ∧
        ∀ x, x < e.off + 65536 * i ∨ e.off + 65536 * i + 65536 ≤ x → byteAt 0xFF t.flash x = byteAt 0xFF a.flash x)
  let trial (ok : Bool) (a t : State) := let v := a.mbxNum 16 4
    (1 < v → refuses a t 2) ∧ (v ≤ 1 → v = a.get R.BOOT_STAT_SLOT → refuses a t 4) ∧
    (v ≤ 1 → v ≠ a.get R.BOOT_STAT_SLOT → a.dirEnt (1 + v) = none → refuses a t 2) ∧
    ∀ e, v ≤ 1 → v ≠ a.get R.BOOT_STAT_SLOT → a.dirEnt (1 + v) = some e → (ok = false → refuses a t 3) ∧
      (ok = true → answers a t 0 ∧ t.flash = (a.dirFlags (1 + v) (putBit (putBit e.flags 0 true) 1 false)).flash)
  let restarts (a t : State) := t.get R.CRU_RST_STAT_LAST = 2 ∧ t.get R.CRU_RST_STAT_SRC = 2 ∧
    t.get R.CRU_RST_STAT_COUNT = min (a.get R.CRU_RST_STAT_COUNT + 1) 65535 ∧ t.get R.BOOT_STAT_ENTRY = 2 ∧ t.ao = a.ao
  (∀ (s : State) (ok : Bool) (env : BootEnv), let a := s.wakeS1
    (s.mbxServes = false → ∀ c ∈ [Instr.mbxInfo, .mbxFlashWrite ok, .mbxFlashErase ok, .mbxSetTrial ok, .mbxRestart env, .mbxDone ok env], Completes c s fun t => t = s) ∧
    (s.mbxServes = true → ∀ op, op = s.mbxNum 0 2 →
      (op ≠ 1 → Completes .mbxInfo s fun t => t = s) ∧ (op ≠ 2 → Completes (.mbxFlashWrite ok) s fun t => t = s) ∧
      (op ≠ 3 → Completes (.mbxFlashErase ok) s fun t => t = s) ∧ (op ≠ 4 → Completes (.mbxSetTrial ok) s fun t => t = s) ∧
      (op ≠ 5 → Completes (.mbxRestart env) s fun t => t = s) ∧
      (op = 1 → Completes .mbxInfo s (info a) ∧ Completes (.mbxDone ok env) s (info a)) ∧
      (op = 2 → Completes (.mbxFlashWrite ok) s (writes ok a) ∧ Completes (.mbxDone ok env) s (writes ok a)) ∧
      (op = 3 → Completes (.mbxFlashErase ok) s (erases ok a) ∧ Completes (.mbxDone ok env) s (erases ok a)) ∧
      (op = 4 → Completes (.mbxSetTrial ok) s (trial ok a) ∧ Completes (.mbxDone ok env) s (trial ok a)) ∧
      (op = 5 → Completes (.mbxRestart env) s (restarts a) ∧ Completes (.mbxDone ok env) s (restarts a)) ∧
      (op = 0 ∨ 5 < op → Completes (.mbxDone ok env) s fun t => refuses a t 1 ∧ t.rawGet 0x4800 = op))) ∧
  (∀ (s : State) (m : Master), s.Serves m 0x100014 → let a := s.begun m
    (s.flag R.BOOT_STAT_TRIAL = false → Completes (.bootConfirm m) s fun t => SameRegs a t [R.BOOT_CTL_FORCECOLD.key 0 0] ∧
      t.get R.BOOT_CTL_FORCECOLD = s.get R.BOOT_CTL_FORCECOLD % 2 ∧ t = { a with regs := t.regs }) ∧
    (s.flag R.BOOT_STAT_TRIAL = true → Completes (.bootConfirm m) s fun t => t.get R.BOOT_STAT_TRIAL = 0 ∧
      (∀ e, s.dirEnt (1 + s.get R.BOOT_STAT_SLOT) = some e →
        t.flash = (s.dirFlags (1 + s.get R.BOOT_STAT_SLOT) (putBit (putBit e.flags 0 false) 1 false)).flash) ∧
      (s.dirEnt (1 + s.get R.BOOT_STAT_SLOT) = none → t.flash = s.flash) ∧ t = { a with regs := t.regs, flash := t.flash })) ∧
  (∀ (s : State) (m : Master) (key : BitVec 16), s.Serves m 0x100014 → let a := s.begun m
    (key ≠ 0xB007 → Completes (.bootSvnadv m key) s fun t => t = a.errComp m .badkey 0x100014) ∧
    (Completes (.bootSvnadv m 0xB007) s fun t => t = { a with regs := t.regs } ∧
      SameRegs s t [R.BOOT_CTL_FORCECOLD.key 0 0, R.BOOT_SVN_FUSED.key 0 0] ∧
      (s.flag R.BOOT_STAT_TRIAL = true → t.get R.BOOT_SVN_FUSED = s.get R.BOOT_SVN_FUSED) ∧
      (s.flag R.BOOT_STAT_TRIAL = false → t.get R.BOOT_SVN_FUSED = max (s.get R.BOOT_SVN_FUSED) (min 64 (s.get R.BOOT_SVN_IMG)) % 2 ^ 7))) ∧
  ∀ s : State,
    let acts (code : Nat) := if s.get R.BOOT_PROF_DBG ≤ (if code = 8 ∨ code = 9 then 1 else 2) then code else 31
    let loaded (code : Nat) : State := ({ s with jtag := { s.jtag with ir := acts code, drive := if acts code = 0 ∨ acts code = 4 then 1 else if acts code = 5 then 2 else 0 } } : State).padDriven s
    (∀ (rest restIn : BitVec 128) (out en : BitVec 48), s.rst.asserted = some .por →
      ∀ c ∈ [Instr.jtagExtest rest restIn out en, .jtagSamplePreload rest restIn out en, .jtagClamp, .jtagHighz, .jtagIdcode, .jtagBypass, .dapstatClear], Completes c s fun t => t = s) ∧
    (s.rst.asserted ≠ some .por →
      (Completes .jtagClamp s fun t => t = (loaded 4).emit (.tdo 0)) ∧ (Completes .jtagHighz s fun t => t = (loaded 5).emit (.tdo 0)) ∧
      (Completes .jtagBypass s fun t => t = (({ s with jtag := { s.jtag with ir := 31, drive := 0 } } : State).padDriven s).emit (.tdo 0)) ∧
      (Completes .jtagIdcode s fun t => ∃ u : State, u = ({ s with jtag := { s.jtag with ir := 2, drive := 0 } } : State).padDriven s ∧
        t = u.emit (.tdo (s.get R.CHIP_ID_REV % 16 * 2 ^ 28 + 0xC016 * 2 ^ 12 + 0x2B7 * 2 + 1))) ∧
      (∀ (rest restIn : BitVec 128) (out en : BitVec 48),
        (2 < s.get R.BOOT_PROF_DBG → Completes (.jtagExtest rest restIn out en) s fun t => t = (loaded 0).emit (.tdo 0)) ∧
        (2 < s.get R.BOOT_PROF_DBG → Completes (.jtagSamplePreload rest restIn out en) s fun t => t = (loaded 1).emit (.tdo 0)) ∧
        ∀ code c, (code = 0 ∧ c = Instr.jtagExtest rest restIn out en ∨ code = 1 ∧ c = Instr.jtagSamplePreload rest restIn out en) → s.get R.BOOT_PROF_DBG ≤ 2 →
          Completes c s fun t => ∃ v u : State, ∃ cap, (∀ n < 48, bitB cap n = (loaded code).padLevel n) ∧ cap < 2 ^ 48 ∧
            u = (loaded code).emit (.tdo (cap + rest.toNat * 2 ^ 48)) ∧
            v = { u with jtag := { u.jtag with bndOut := out.toNat, bndEn := en.toNat, bndRest := restIn.toNat },
                         out := u.out ++ if u.jtag.drive = 1 then [.pin "BOUNDARY" restIn.toNat] else [] } ∧ t = v.padDriven (loaded code)) ∧
      (1 < s.get R.BOOT_PROF_DBG → Completes .dapstatClear s fun t => t = (loaded 9).emit (.tdo 0)) ∧
      (s.get R.BOOT_PROF_DBG ≤ 1 → Completes .dapstatClear s fun t => t.jtag.dapErr = false ∧
        ∃ v, Out.tdo v ∈ t.out ∧ bitB v 0 = s.jtag.dapErr ∧ bitB v 1 = s.domOn 0)) ∧
    Completes .tapReset s fun t => t = ({ s with jtag := {} } : State).padDriven s

/-- Pins and serial controllers (R620 to R628, R631). -/
def Obligations.PinEventsAndSerialCommands : Prop :=
  let counted (u t : State) := ∃ v, v.get R.PAD_GCNT_COUNT = (u.get R.PAD_GCNT_COUNT + 1) % 2 ^ 64 ∧ SameRegs u v [R.PAD_GCNT_COUNT.key 0 0] ∧
    v = { u with regs := v.regs } ∧ (hGen (v.get R.PAD_GSIG_HANDLE) = 0 → t = v) ∧
    (hGen (v.get R.PAD_GSIG_HANDLE) ≠ 0 → t = v.synPort (v.get R.PAD_GSIG_HANDLE) (v.get R.PAD_GCNT_COUNT) 0)
  let rises (c : Nat) (was : Bool) (u t : State) := (was = true → t = u) ∧ (was = false → c < 3 → counted u t) ∧ (was = false → c = 3 → t = u.emit (.irqMcu 8))
  let ibiTaken (c addr : Nat) (pay : List Nat) (s t : State) := ∃ u, u.get (serF c R.SER_IBI_ADDR) = addr ∧
    u.get (serF c R.SER_IBI_PAYLOAD) = ofBytes (pay.take 3) % 2 ^ 24 ∧ u.get (serF c R.SER_STAT_IBI) = 1 ∧
    SameRegs s u [(serF c R.SER_IBI_ADDR).key 0 0, (serF c R.SER_IBI_PAYLOAD).key 0 0, (serF c R.SER_STAT_IBI).key 0 0] ∧ u = { s with regs := u.regs } ∧
    rises c (s.flag (serF c R.SER_STAT_IBI)) u t
  let ended (c result count : Nat) (s t : State) := ∃ u v : State, (v.serSt c).cmd = none ∧ (v.serSt c).ibis = [] ∧
    (v.serSt c).open_ = (result == 0 && (s.serSt c).cmd.any (·.nostop)) ∧ v.get (serF c R.SER_STAT_BUSY) = 0 ∧ v.get (serF c R.SER_STAT_RESULT) = result ∧
    v.get (serF c R.SER_STAT_COUNT) = count % 2 ^ 7 ∧ v.get (serF c R.SER_STAT_DONE) = 1 ∧ (∀ j, j ≠ c → v.serSt j = s.serSt j) ∧
    SameRegs s v ([(serF c R.SER_STAT_BUSY).key 0 0, (serF c R.SER_STAT_RESULT).key 0 0, (serF c R.SER_STAT_COUNT).key 0 0, (serF c R.SER_STAT_DONE).key 0 0] ++
      (List.range 16).map ((serF c R.SER_DAT_DATA).key 0 ·)) ∧ v = { s with regs := v.regs, pad := v.pad } ∧
    rises c (s.flag (serF c R.SER_STAT_DONE)) v u ∧ t = (s.serSt c).ibis.foldl (fun s i => s.serIbiTake c i.1 i.2) u ∧
    (result ≠ 0 → (∃ k, (s.serSt c).cmd = some k ∧ k.kind = 3) → c ≠ 2 → ∀ i < 16, v.get (serF c R.SER_DAT_DATA) 0 i = s.get (serF c R.SER_DAT_DATA) 0 i)
  let received (c n : Nat) (data : List Byte) (t : State) := ∀ i (h : i < data.length), i < n → t.serByte c i = data[i].toNat
  (∀ (s : State) (pins levels : BitVec 48), let detects := s.domOn 0 = true ∧ s.get R.PWR_STAT_STATE < 2
    Completes (.padPinEvent pins levels) s fun t => ∃ lvl, (∀ n < 48, bitB lvl n = if pins.getLsbD n then levels.getLsbD n else bitB s.pad.lvl n) ∧
      let u : State := { s with pad := { s.pad with lvl := lvl } }
      let due (n : Nat) := n < 48 ∧ pins.getLsbD n = true ∧ (let o := s.padLevel n; let l := u.padLevel n
        s.get R.PAD_PIN_IMODE n = 1 ∧ o = false ∧ l = true ∨ s.get R.PAD_PIN_IMODE n = 2 ∧ o = true ∧ l = false ∨ s.get R.PAD_PIN_IMODE n = 3 ∧ o ≠ l ∨
        s.get R.PAD_PIN_IMODE n = 4 ∧ l = true ∨ s.get R.PAD_PIN_IMODE n = 5 ∧ l = false)
      (¬ detects → t = u) ∧ ((∀ n, ¬ due n) → t = u) ∧
      (detects → (∃ n, due n) → ∃ v, (∀ n < 48, due n → v.pinBit R.PAD_IRQSTAT_EVT n = true) ∧
        (∀ n < 48, ¬ due n → v.pinBit R.PAD_IRQSTAT_EVT n = u.wakeS1.pinBit R.PAD_IRQSTAT_EVT n) ∧
        SameRegs u.wakeS1 v [R.PAD_IRQSTAT_EVT.key 0 0, R.PAD_IRQSTAT_EVT.key 1 0] ∧ v = { u.wakeS1 with regs := v.regs } ∧
        ((∀ n, due n → u.wakeS1.pinBit R.PAD_IRQSTAT_EVT n = true) → t = v) ∧ ((∃ n, due n ∧ u.wakeS1.pinBit R.PAD_IRQSTAT_EVT n = false) → counted v t))) ∧
  (∀ (s : State) (m : Master) (inst : Fin 4) (rd nostop : Bool) (len : BitVec 6) (addr : BitVec 7) (ccc : BitVec 8) (kind : Nat) (k : SerCmd) (c : Instr),
    s.Serves m (if inst.val < 3 then 0x400404 + 0x100 * inst.val else 0x380404) →
    (kind = 0 ∧ c = .serPrivateTransfer m inst rd len nostop addr ∧ k = ⟨0, rd, len.toNat, nostop, addr.toNat, 0⟩ ∨
      kind = 1 ∧ c = .serBroadcastCcc m inst rd len nostop ccc ∧ k = ⟨1, rd, len.toNat, nostop, 0, ccc.toNat⟩ ∨
      kind = 2 ∧ c = .serDirectCcc m inst rd len nostop addr ccc ∧ k = ⟨2, rd, len.toNat, nostop, addr.toNat, ccc.toNat⟩ ∨
      kind = 3 ∧ c = .serEntdaa m inst nostop addr ∧ k = ⟨3, false, 0, nostop, addr.toNat, 0⟩) →
    let ready := s.flag (serF inst R.SER_CTL_EN) = true ∧ s.flag (serF inst R.SER_STAT_BUSY) = false
    (¬ ready → Completes c s fun t => t = (s.begun m).errMark m) ∧
    (ready → Completes c s fun t => (t.serSt inst).cmd = some k ∧ (t.serSt inst).open_ = (s.serSt inst).open_ ∧ (t.serSt inst).dyn = (s.serSt inst).dyn ∧
      (t.serSt inst).daa = (kind == 3 && inst.val != 2) ∧ t.get (serF inst R.SER_STAT_BUSY) = 1 ∧ SameRegs s t [(serF inst R.SER_STAT_BUSY).key 0 0] ∧
      (∀ j, j ≠ inst.val → t.serSt j = s.serSt j) ∧
      (∃ data, t.out = s.out ++ [.serial inst ((kind + 4 * b2n nostop + 8 * b2n (s.serSt inst).open_ + 16 * b2n (s.serSt inst).daa) :: k.addr ::
        ((if kind = 1 ∨ kind = 2 then [ccc.toNat] else []) ++ data))] ∧
        data = if rd = true ∧ inst.val ≠ 2 ∧ kind ≠ 3 ∨ kind = 3 then [] else (List.range (len.toNat + 1)).map (s.serByte inst)) ∧
      t = { s.begun m with regs := t.regs, pad := t.pad, out := t.out })) ∧
  (∀ (s : State) (inst : Fin 4) (result : Fin 3) (count : BitVec 7) (data : List Byte),
    ((s.serSt inst).cmd = none → Completes (.serCmdEnd inst result count data) s fun t => t = s) ∧
    ∀ k, (s.serSt inst).cmd = some k → let daa := k.kind = 3 ∧ inst.val ≠ 2
      (daa → Completes (.serCmdEnd inst result count data) s fun t => ended inst result count.toNat s t ∧
        ((s.serSt inst).ibis = [] → s.flag (serF inst R.SER_STAT_DONE) = true → (result = 0 → received inst 8 data t) ∧
          (t.serSt inst).dyn = (if result = 0 then [k.addr] else []) ++ (s.serSt inst).dyn)) ∧
      (¬ daa → k.len < 64 → Completes (.serCmdEnd inst result count data) s fun t => ended inst result (min count.toNat (k.len + 1)) s t ∧
        ((s.serSt inst).ibis = [] → s.flag (serF inst R.SER_STAT_DONE) = true → k.rd = true ∨ inst.val = 2 →
          received inst (min count.toNat (k.len + 1)) data t))) ∧
  (∀ (s : State) (inst : Fin 4) (count : BitVec 7),
    ((s.serSt inst).cmd = none ∨ inst.val = 2 → Completes (.serSclTimeout inst count) s fun t => t = s) ∧
    ∀ k, (s.serSt inst).cmd = some k → inst.val ≠ 2 → Completes (.serSclTimeout inst count) s fun t => ended inst 4 (min count.toNat (k.len + 1)) s t) ∧
  ∀ (s : State) (inst : Fin 4) (addr : BitVec 7) (payload : List Byte),
    let pay := if addr = 2 then [] else payload.map BitVec.toNat
    let accepts := inst.val ≠ 2 ∧ s.flag (serF inst R.SER_CTL_EN) = true ∧ bitB (s.get (serF inst R.SER_CTL_SMODE)) 0 = false ∧
      (addr = 2 ∨ addr.toNat ∈ (s.serSt inst).dyn)
    (¬ accepts → Completes (.serIbi inst addr payload) s fun t => t = s) ∧
    (accepts → (s.serSt inst).cmd.isSome = true → Completes (.serIbi inst addr payload) s fun t =>
      t.serSt inst = { s.serSt inst with ibis := (s.serSt inst).ibis ++ [(addr.toNat, pay)] } ∧ t = { s with pad := t.pad }) ∧
    (accepts → (s.serSt inst).cmd = none → Completes (.serIbi inst addr payload) s fun t => ibiTaken inst addr.toNat pay s t)

/-- Ports and training (R423, R425 to R427, R438, R448, R454). -/
def Obligations.ChainPortsTrainAndRetrain : Prop :=
  let trained (s t : State) (p : Nat) (c : Nat × Nat × Nat) (peer inv : Nat) (rev : Bool) := t.get R.CHLP_STAT_RATE p = c.1 % 4 ∧ t.get R.CHLP_STAT_WIDTH p = c.2.1 % 4 ∧
    t.get R.CHLP_STAT_PEERPORT p = peer % 2 ∧ t.get R.CHLP_LANES_ACTIVE p = c.2.2 % 256 ∧ t.get R.CHLP_LANES_INV p = inv ∧ t.get R.CHLP_LANES_REV p = b2n rev ∧
    (s.get R.CHLP_STAT_STATE p = 9 → t.get R.CHLP_STAT_STATE p = (s.chlPort p).was % 16 ∧ ∃ rest, t.out = s.out ++ onWire p (s.chlPort p).replay ++ rest) ∧
    (s.get R.CHLP_STAT_STATE p ≠ 9 → t.get R.CHLP_STAT_STATE p = 2 ∧ (t.chlPort p).flitup = true ∧ (t.chlPort p).seq = 0 ∧ (t.chlPort p).rx = 0 ∧
      (t.chlPort p).replay = [] ∧ (t.chlPort p).cred = [128, 384, 32, 64] ∧
      t.out = s.out ++ [(0, 128), (1, 384), (2, 32), (3, 64)].map (fun v => Out.chl p 0xF3 0 0 0 0 (v.1 + v.2 * 2 ^ 16) []) ∧ t = { s with regs := t.regs, chl := t.chl, out := t.out })
  (∀ (s : State) (m : Master) (p : Fin 2) (enc : Bool) (rate width : BitVec 2), s.Serves m (0x901000 + 0x1000 * p.val) → let a := s.begun m
    let fields (t : State) (en : Nat) := t.get R.CHLP_CTL_EN p = en ∧ t.get R.CHLP_CTL_ENC p = b2n enc ∧ t.get R.CHLP_CTL_MAXRATE p = rate.toNat ∧ t.get R.CHLP_CTL_MAXWIDTH p = width.toNat
    let ctl := [R.CHLP_CTL_EN.key p 0, R.CHLP_CTL_ENC.key p 0, R.CHLP_CTL_MAXRATE.key p 0, R.CHLP_CTL_MAXWIDTH.key p 0]
    (s.flag R.CHLP_CTL_EN p = false → Completes (.chlPortEnable m p enc rate width) s fun t => fields t 1 ∧ t.get R.CHLP_STAT_STATE p = 1 ∧ (t.chlPort p).held = false ∧
      (t.chlPort p).tries = 0 ∧ (t.chlPort p).q = [] ∧ (∀ j, j ≠ p.val → t.chlPort j = s.chlPort j) ∧ SameRegs s t (R.CHLP_STAT_STATE.key p 0 :: R.CRU_TB_STAT_STATE.key 0 0 :: R.CRU_TB_STAT_LOCK.key 0 0 :: R.CRU_TB_STAT_EVT.key 0 0 :: ctl) ∧
      t = { a with regs := t.regs, chl := { s.chl with port := t.chl.port } }) ∧
    (s.flag R.CHLP_CTL_EN p = true → Completes (.chlPortEnable m p enc rate width) s fun t => fields t 1 ∧ SameRegs s t ctl ∧ t = { a with regs := t.regs }) ∧
    (s.flag R.CHLP_CTL_EN p = false → Completes (.chlPortDisable m p enc rate width) s fun t => fields t 0 ∧ SameRegs s t ctl ∧ t = { a with regs := t.regs }) ∧
    (s.flag R.CHLP_CTL_EN p = true → Completes (.chlPortDisable m p enc rate width) s fun t => fields t 0 ∧ Downed a t p 9 false ∧ (t.chlPort p).tries = 0) ∧
    let own := [R.CHLP_CTL_EN, R.CHLP_CTL_ENC, R.CHLP_CTL_MAXRATE, R.CHLP_CTL_MAXWIDTH]
    let sized := ∀ f ∈ own, s.get f p < 2 ^ f.w
    (sized → s.get R.CHLP_STAT_STATE p ∉ [5, 6] ∨ s.flag R.CHLP_CTL_EN p = false → Completes (.chlRetrain m p) s fun t =>
      (∀ f ∈ own, t.get f p = s.get f p) ∧ SameRegs s t ctl ∧ t = { a with regs := t.regs }) ∧
    (sized → s.get R.CHLP_STAT_STATE p ∈ [5, 6] → s.flag R.CHLP_CTL_EN p = true → Completes (.chlRetrain m p) s fun t =>
      ∃ u : State, (∀ f ∈ own, u.get f p = s.get f p) ∧ SameRegs s u ctl ∧ u = { a with regs := u.regs } ∧ Retrains u t p)) ∧
  (∀ (s : State) (p : Fin 2),
    Completes (.lossOfSignal p) s (Retrains s · p) ∧ (s.get R.CHLP_STAT_STATE p ≠ 9 → Completes (.chlHoldExpiry p) s fun t => t = s) ∧
    (s.get R.CHLP_STAT_STATE p = 9 → Completes (.chlHoldExpiry p) s fun t => Downed s t p 7 false)) ∧
  (∀ (s : State) (p : Fin 2) (term : BitVec 8),
    let found := ∃ g ∈ [(0, 0xFF), (1, 0x0F), (1, 0xF0), (2, 0x03), (2, 0x0C), (2, 0x30), (2, 0xC0)], min (s.get R.CHLP_CTL_MAXWIDTH p) 2 ≤ g.1 ∧ 2 ≤ popc 8 (g.2 &&& term.toNat)
    (s.get R.CHLP_STAT_STATE p ≠ 1 → Completes (.chlDetectPoll p term) s fun t => t = s) ∧
    (s.get R.CHLP_STAT_STATE p = 1 → ¬ found → Completes (.chlDetectPoll p term) s fun t => t.get R.CHLP_STAT_DREASON p = 1 ∧
      SameRegs s t [R.CHLP_STAT_DREASON.key p 0] ∧ t = { s with regs := t.regs }) ∧
    (s.get R.CHLP_STAT_STATE p = 1 → found → Completes (.chlDetectPoll p term) s fun t => t.get R.CHLP_STAT_STATE p = 2 ∧
      t.chlPort p = { s.chlPort p with tried := [], since := s.tb } ∧ SameRegs s t [R.CHLP_STAT_STATE.key p 0] ∧ t = { s with regs := t.regs, chl := { s.chl with port := t.chl.port } })) ∧
  (∀ (s : State) (p : Fin 2) (rate : Fin 3) (pass inv : BitVec 8) (maxRate maxWidth : BitVec 2) (hash : Word) (peer : BitVec 1) (rev : Bool),
    let c := Instr.chlTrainRate p rate pass maxRate maxWidth hash peer inv rev
    let st := s.get R.CHLP_STAT_STATE p
    let x := s.chlPort p
    let cap := max (min (s.get R.CHLP_CTL_MAXRATE p) 2) (min maxRate.toNat 2)
    let wcap := max (min (s.get R.CHLP_CTL_MAXWIDTH p) 2) (min maxWidth.toNat 2)
    let trains := st = 2 ∧ x.flitup = false ∨ st = 9 ∨ st = 7
    let same := st = 9 → x.hash = hash.toNat
    let quick := st = 9 ∧ x.full = false ∧ rate.val = s.get R.CHLP_STAT_RATE p
    let next := rate.val = match x.tried.getLast? with | some t => t.1 + 1 | none => cap
    let tried := x.tried ++ [(rate.val, pass.toNat)]
    let more := groupOf pass.toNat wcap = none ∧ rate.val < 2
    let noted (t : State) := t.chlPort p = { x with tried := tried, maxRate := maxRate.toNat, maxWidth := maxWidth.toNat, hash := hash.toNat, since := (t.chlPort p).since }
    (¬ trains → Completes c s fun t => t = s) ∧ (trains → ¬ same → Completes c s fun t => Downed s t p 7 false) ∧
    (quick → same → s.get R.CHLP_LANES_ACTIVE p &&& pass.toNat = s.get R.CHLP_LANES_ACTIVE p → Completes c s fun t => Resumes s t p) ∧
    (quick → same → s.get R.CHLP_LANES_ACTIVE p &&& pass.toNat ≠ s.get R.CHLP_LANES_ACTIVE p → Completes c s fun t => t.chlPort p = { x with full := true, tried := [] } ∧
      t = { s with chl := { s.chl with port := t.chl.port } }) ∧
    (trains → same → ¬ quick → ¬ next → Completes c s fun t => t = s) ∧
    (trains → same → ¬ quick → next → more → Completes c s fun t => noted t ∧ t.get R.CHLP_STAT_STATE p = (if st = 7 then 2 else st) ∧
      SameRegs s t [R.CHLP_STAT_STATE.key p 0] ∧ t = { s with regs := t.regs, chl := { s.chl with port := t.chl.port } }) ∧
    (trains → same → ¬ quick → next → ¬ more → bestLanes tried wcap = none → Completes c s fun t => Downed s t p 2 false) ∧
    (trains → same → ¬ quick → next → ¬ more → ∀ b, bestLanes tried wcap = some b → Completes c s fun t => trained s t p b peer.toNat inv.toNat rev)) ∧
  ∀ (tried : List (Nat × Nat)) (cap : Nat), cap < 3 →
    let groups := [(0, 0xFF), (1, 0x0F), (1, 0xF0), (2, 0x03), (2, 0x0C), (2, 0x30), (2, 0xC0)]
    (bestLanes tried cap = none → ∀ t ∈ tried, ∀ g ∈ groups, cap ≤ g.1 → g.2 &&& t.2 ≠ g.2) ∧
    ∀ b, bestLanes tried cap = some b → (∃ t ∈ tried, t.1 = b.1 ∧ b.2 ∈ groups ∧ cap ≤ b.2.1 ∧ b.2.2 &&& t.2 = b.2.2) ∧
      ∀ t ∈ tried, ∀ g ∈ groups, cap ≤ g.1 → g.2 &&& t.2 = g.2 → b.1 + b.2.1 < t.1 + g.1 ∨ b.1 + b.2.1 = t.1 + g.1 ∧ b.2.1 ≤ g.1

/-- Timers of the chain link (R425, R437, R438, R448), and the end of S2 (R519, R659). -/
def Obligations.ChainTimersAndTheEndOfS2 : Prop :=
  let sent (p seq : Nat) := Out.chl p 0xF2 0 0 0 0 seq []
  (∀ (s : State) (p : Fin 2), let x := s.chlPort p
    let st := s.get R.CHLP_STAT_STATE p
    let isOpen := 3 ≤ st ∧ st ≤ 6
    let starved := ∃ v < 4, ∃ m, (x.q.find? fun m => chlVc m.op == v) = some m ∧ x.cred.getD v 0 < m.cost
    (x.flitup = false → Completes (.flitupTimeout p) s fun t => t = s) ∧ (x.flitup = true → Completes (.flitupTimeout p) s fun t => Downed s t p 2 false) ∧
    (st ≠ 3 → Completes (.authTimeout p) s fun t => t = s) ∧
    (st = 3 → Completes (.authTimeout p) s fun t => Downed s t p 3 (3 ≤ x.tries) ∧ (t.chlPort p).tries = x.tries + 1) ∧
    (∀ c l, (c = .authRetry p ∧ l = [3] ∨ c = .redetectTimer p ∧ l = [2, 4, 7]) →
      let again := st = 8 ∧ x.held = false ∧ s.flag R.CHLP_CTL_EN p = true ∧ s.get R.CHLP_STAT_DREASON p ∈ l
      (¬ again → Completes c s fun t => t = s) ∧
      (again → Completes c s fun t => t.get R.CHLP_STAT_STATE p = 1 ∧ t.chlPort p = { x with since := s.tb } ∧ (∀ j, j ≠ p.val → t.chlPort j = s.chlPort j) ∧
        SameRegs s t [R.CHLP_STAT_STATE.key p 0] ∧ t = { s with regs := t.regs, chl := { s.chl with port := t.chl.port } })) ∧
    (¬ (isOpen ∧ starved) → Completes (.creditTimeout p) s fun t => t = s) ∧ (isOpen → starved → Completes (.creditTimeout p) s fun t => Downed s t p 4 false) ∧
    (¬ isOpen ∨ x.replay = [] → Completes (.replayTimeout p) s fun t => t = s) ∧
    (∀ m l, isOpen → x.replay = m :: l → Completes (.replayTimeout p) s fun t => Replays s t p m.seq) ∧
    (x.naked = false → Completes (.nakResendTimer p) s fun t => t = s) ∧ (x.naked = true → Completes (.nakResendTimer p) s fun t => t = { s with out := s.out ++ [sent p x.rx] })) ∧
  (∀ (s : State) (tag : BitVec 16), let hit := s.chl.req.find? fun r => r.msg.tag == tag.toNat
    (hit = none → Completes (.requestTimeout tag) s fun t => t = s) ∧
    ∀ r, hit = some r → let p := s.portTo r.msg.dst
      (Completes (.requestTimeout tag) s fun t => Recorded s t fun f => f.cls = 7 ∧ f.cause = 0x11 ∧ f.src = p ∧ f.d0 = (s.chlPort p).uid % 2 ^ 64 ∧ f.d1 = r.msg.dpa) ∧
      (r.msg.op = 1 ∨ r.msg.op = 2 → Completes (.requestTimeout tag) s fun t => t.chl.req = s.chl.req.filter (fun x => x.msg.tag != tag.toNat) ∧
        t.sin.fills = s.sin.fills.filter (fun f => !(f.remote && decide (r.msg.dpa ≤ f.line) && decide (f.line < r.msg.dpa + 128 * r.lines))) ∧
        (s.domOn 0 = true → s.get R.PWR_STAT_STATE ≠ 3 → s.flt.staged.length < 63 → ∃ f ∈ t.flt.staged, f.seq = (s.get R.FQ_STAT_NEXTSEQ + 1) % 2 ^ R.FQ_STAT_NEXTSEQ.w ∧
          f.cls = 3 ∧ f.cause = 4 ∧ f.d0 = r.msg.dpa) ∧
        (∀ id, r.msg.op = 2 → r.acc = some (16, id) → ∃ v, Out.reply false v ∈ t.out) ∧ t.mem = s.mem ∧ t.wsp = s.wsp ∧ t.emb = s.emb) ∧
      (r.msg.op ∈ [3, 4] → r.who = [] → Completes (.requestTimeout tag) s fun t => t.chl.req = s.chl.req.filter (fun x => x.msg.tag != tag.toNat) ∧
        t.mem = s.mem ∧ t.wsp = s.wsp ∧ t.emb = s.emb ∧ t.sin = s.sin) ∧
      (r.msg.op = 5 → ∀ id, r.acc = some (16, id) → Completes (.requestTimeout tag) s fun t => Out.reply false 0 ∈ t.out ∧ t.mem = s.mem ∧ t.wsp = s.wsp)) ∧
  (∀ s : State,
    ((∀ t0, s.pwr.exit ≠ some (t0, 2)) → Completes .s2ExitComplete s fun t => t = s) ∧
    ∀ t0, s.pwr.exit = some (t0, 2) → Completes .s2ExitComplete s fun t => ∃ u : State, u.get R.PWR_STAT_STATE = 0 ∧ u.pwr.exit = none ∧ u.rst = s.rst ∧
      u.chl.defer = s.chl.defer ∧ u.pending = s.pending ∧ t = (s.chl.defer.foldl (fun (s : State) x => s.synMsg x.2) { u with chl := { u.chl with defer := [] } }).heldRun) ∧
  ∀ s : State, (s.rst.held = [] → s.heldRun = s) ∧
    (∀ env, (4, env) ∈ s.rst.held ∨ (5, env) ∈ s.rst.held → s.heldRun.get R.CRU_RST_STAT_LAST = ResetKind.chn.code ∧ s.heldRun.rst.held = []) ∧
    ((∀ h ∈ s.rst.held, h.1 ≠ 4 ∧ h.1 ≠ 5) → ∀ env, (1, env) ∈ s.rst.held → s.heldRun.get R.CRU_RST_STAT_LAST = 2 ∧ s.heldRun.get R.CRU_RST_STAT_SRC = 1 ∧
      s.heldRun.rst.held = [])

/-- Gating, forwarding and sending of messages (R425, R427, R430, R433, R435, R445, R446, R449, R450). -/
def Obligations.ChainMessagesAreGatedForwardedAndSent : Prop :=
  (∀ (s : State) (p : Fin 2) (src dst : Fin 8) (tag : BitVec 16) (line : BitVec 37) (n5 : BitVec 5) (n6 : BitVec 6) (data : List Byte) (x y z : Bool) (mask : BitVec 128)
      (dpa : BitVec 44) (fn : Fin 10) (b c v : DWord) (st : Fin 7) (h id : Word) (byte step sub cls : Byte) (kind : Fin 4) (code : BitVec 4) (phase : BitVec 3) (uid : BitVec 128)
      (ptag : BitVec 7) (pasid : BitVec 20) (off : BitVec 25) (vec : Fin 16) (e : ChlEnv) (sig : BitVec 512) (num : Option (Fin 8)) (idx : BitVec 16) (tail : Word),
    let brings (i : Instr) (op : Nat) := Completes i s fun t => ∃ m : ChlMsg, m.op = op ∧ m.src = src.val ∧ m.dst = dst.val ∧ t = s.chlTake p m.rx {}
    let manages (i : Instr) (k : Nat) (e : ChlEnv) := Completes i s fun t => ∃ m : ChlMsg, m.op = 0x20 ∧ m.sub = k ∧ m.local_ = false ∧ m.src = src.val ∧ m.dst = dst.val ∧ t = s.chlTake p m.rx e
    let near (i : Instr) (k : Nat) (e : ChlEnv) := Completes i s fun t => ∃ m : ChlMsg, m.op = 0x20 ∧ m.sub = k ∧ m.local_ = true ∧ t = s.chlTake p m.rx e
    brings (.chlRd p src dst tag line) 1 ∧ brings (.chlRdb p src dst tag line n5) 2 ∧ brings (.chlWr p src dst tag line n5 data x) 3 ∧ brings (.chlWrp p src dst tag line mask data x) 4 ∧
    brings (.chlAtm p src dst tag dpa fn x y b c) 5 ∧ brings (.chlRdr p src dst tag st n6 data x) 8 ∧ brings (.chlRsp p src dst tag st v) 9 ∧ brings (.sigpend p src dst h v) 0x10 ∧
    brings (.chlSig p src dst h tag v) 0x11 ∧ brings (.chlWait p src dst h id v) 0x12 ∧ brings (.chlWaitsat p src dst id tag x) 0x13 ∧ brings (.chlDb p src dst h tail byte) 0x14 ∧
    brings (.objchk p src dst h kind) 0x15 ∧ brings (.objres p src dst h kind byte) 0x16 ∧ brings (.chlInv p src dst v id n6 x tail) 0x17 ∧ brings (.chlInvdone p src dst id) 0x18 ∧
    brings (.prxreq p src dst x ptag pasid v y) 0x19 ∧ brings (.prxrsp p src dst x ptag y v n6 x y z x code) 0x1A ∧
    manages (.regreq p src dst off x id e) 5 e ∧ manages (.regrsp p src dst off x y id) 6 {} ∧ manages (.chlWake p (some (src, dst)) kind) 0x0A {} ∧ manages (.chlDmwin p src dst b c) 0x0B {} ∧
    manages (.chlIrq p src dst vec src) 0x0D {} ∧ manages (.slotreq p src dst phase step sub cls uid) 0x0E {} ∧ manages (.slotgrant p src dst phase step sub cls uid) 0x0E {} ∧
    manages (.slotret p src dst phase step sub cls uid) 0x0E {} ∧ manages (.bootrepReport p src dst phase step sub cls uid) 0x0E {} ∧ manages (.flashrec p src dst x data) 0x0F {} ∧
    near (.hello p uid data data x e) 1 e ∧ near (.proof p sig e) 2 e ∧ near (.rollinfo p uid x num y z h id tail) 3 {} ∧ near (.fwblk p idx data e) 7 e ∧ near (.chlSleep p) 9 {} ∧
    near (.chlWake p none kind) 0x0A {} ∧ near (.chnrst p e) 0x0C e) ∧
  (∀ (s : State) (p : Nat) (r : ChlRx) (e : ChlEnv), p < 2 →
    let m := r.msg
    let a := s.wakeS1
    let st := s.get R.CHLP_STAT_STATE p
    let t := s.chlTake p r e
    let takes := (s.chlPort p).flitup = false ∧ 3 ≤ st ∧ st ≤ 7
    let near := m.local_ = true ∨ m.op = 0x20 ∧ m.sub = 4 ∧ a.flag R.CHL_ROLL_VALID = false
    let credited (v t : State) := let o := 3 ≤ v.get R.CHLP_STAT_STATE p ∧ v.get R.CHLP_STAT_STATE p ≤ 6
      (o → t = { v with out := v.out ++ [.chl p 0xF3 0 0 0 0 (chlVc m.op + m.cost * 2 ^ 16) []] }) ∧ (¬ o → t = v)
    let dropped (v t : State) := t.get R.CHLP_DROP_COUNT p = min (v.get R.CHLP_DROP_COUNT p + 1) (2 ^ 32 - 1) ∧ SameRegs v t [R.CHLP_DROP_COUNT.key p 0] ∧ t = { v with regs := t.regs }
    let violates := ∃ v u : State, dropped a v ∧ (let l := v.tb :: (v.chlPort p).viol.filter (fun x => decide (v.tb - x < 100000))
      (64 < l.length → Downed v u p 6 true) ∧ (l.length ≤ 64 → u.chlPort p = { v.chlPort p with viol := l } ∧ (∀ j, j ≠ p → u.chlPort j = v.chlPort j) ∧
        u = { v with chl := { v.chl with port := u.chl.port } })) ∧ credited u t
    let answered (v t : State) (code : Nat) := t = v.chlPost p { op := if m.op < 3 then 8 else 9, src := v.die, dst := m.src, tag := m.tag, st := code }
    let foreign := a.flag R.CHL_ROLL_VALID = true ∧ (m.src = a.die ∨ a.portTo m.src ≠ p)
    ((s.chlPort p).flitup = true → t = (s.chlFlitUp p).chlTake p r e) ∧
    ((s.chlPort p).flitup = false → ¬ (3 ≤ st ∧ st ≤ 7) → t = s) ∧
    (takes → r.bad = true → violates) ∧
    (takes → r.bad = false → near → credited (a.chlAct p m e) t) ∧
    (takes → r.bad = false → ¬ near → st < 5 → m.op ≠ 0x20 → ∃ v : State, dropped a v ∧ credited v t) ∧
    (takes → r.bad = false → ¬ near → st = 6 → chlVc m.op ≠ 2 → ∃ v w : State, dropped a v ∧ (m.op < 8 → answered v w 6) ∧ (8 ≤ m.op → w = v) ∧ credited w t) ∧
    (takes → r.bad = false → ¬ near → (m.op = 0x20 ∨ 5 ≤ st ∧ st ≠ 6) → foreign → violates) ∧
    (takes → r.bad = false → ¬ near → (m.op = 0x20 ∨ 5 ≤ st ∧ st ≠ 6) → ¬ foreign → m.dst = a.die → credited (a.chlAct p m e) t) ∧
    (takes → r.bad = false → ¬ near → (m.op = 0x20 ∨ 5 ≤ st ∧ st ≠ 6) → ¬ foreign → m.dst ≠ a.die → ∃ w : State, (m ∈ (w.chlPort (a.portTo m.dst)).q → t = w) ∧
      (m ∉ (w.chlPort (a.portTo m.dst)).q → credited w t) ∧
      (m.op = 0x20 → a.mgmtReach m.dst = true → w = a.chlPost (a.portTo m.dst) m) ∧ (m.op = 0x20 → a.mgmtReach m.dst = false → dropped a w) ∧
      (m.op ≠ 0x20 → a.memReach m.dst = false → (m.op < 8 → answered a w 6) ∧ (8 ≤ m.op → dropped a w)) ∧
      (m.op < 8 → a.memReach m.dst = true → bitB (a.route m.dst) 3 = true → answered a w 3) ∧
      (m.op < 8 → a.memReach m.dst = true → bitB (a.route m.dst) 3 = false →
        w = ({ a with chl := { a.chl with fwd := a.chl.fwd ++ [⟨m.src, m.tag, m.op, a.portTo m.dst⟩] } } : State).chlPost (a.portTo m.dst) m) ∧
      (8 ≤ m.op → m.op < 0x10 → a.memReach m.dst = true →
        w = ({ a with chl := { a.chl with fwd := a.chl.fwd.filter fun f => !(f.src == m.dst && f.tag == m.tag) } } : State).chlPost (a.portTo m.dst) m) ∧
      (0x10 ≤ m.op → m.op ≠ 0x20 → a.memReach m.dst = true → w = a.chlPost (a.portTo m.dst) m))) ∧
  (∀ (s : State) (p : Nat), (s.chlPort p).flitup = true → ∃ (u : State) (m : ChlMsg), u.get R.CHLP_STAT_STATE p = 3 ∧ (u.chlPort p).flitup = false ∧ m.op = 0x20 ∧ m.sub = 1 ∧ m.local_ = true ∧
    m.src = s.die ∧ (∃ n k, (u.chlPort p).mine = s.dieCert ++ toBytes 32 n ++ toBytes 64 k ++ [s.get R.CHLP_CTL_ENC p]) ∧ m.data = flitPad (u.chlPort p).mine ∧
    u = { s with regs := u.regs, chl := { s.chl with port := u.chl.port }, fresh := s.fresh + 2 } ∧ s.chlFlitUp p = u.chlPost p m) ∧
  ∀ (s : State) (p : Nat) (m : ChlMsg),
    let x := s.chlPort p
    let st := s.get R.CHLP_STAT_STATE p
    let t := s.chlPost p m
    let goes := 3 ≤ st ∧ st ≤ 6 ∧ m.cost ≤ x.cred.getD (chlVc m.op) 0 ∧ (x.replay.map ChlSent.flits).sum + m.flits ≤ 512 ∧ ∀ w ∈ x.q, chlVc w.op ≠ chlVc m.op
    let waits := 3 ≤ st ∧ st ≤ 6 ∨ st = 7 ∨ st = 9
    (goes → (t.chlPort p).seq = (x.seq + m.flits) % 4096 ∧ (t.chlPort p).cred = x.cred.set (chlVc m.op) (x.cred.getD (chlVc m.op) 0 - m.cost) ∧
      (t.chlPort p).replay = x.replay ++ [⟨x.seq, m.flits, 1, m⟩] ∧ (t.chlPort p).q = x.q ∧ (∀ j, j ≠ p → t.chlPort j = s.chlPort j) ∧
      (∃ rest, t.out = s.out ++ .chl p m.op m.src m.dst m.tag m.st m.arg (m.raw ++ m.data) :: rest ∧ (s.flag R.CHLP_STAT_ENCON p = false → rest = [])) ∧
      t = { s with chl := { s.chl with port := t.chl.port }, out := t.out }) ∧
    (¬ goes → ¬ waits → t = s) ∧
    (¬ goes → waits → (m.src ≠ s.die ∨ 4 ≤ m.op ∨ chlMerge x.q m = none) → t.chlPort p = { x with q := x.q ++ [m] } ∧ (∀ j, j ≠ p → t.chlPort j = s.chlPort j) ∧
      t = { s with chl := { s.chl with port := t.chl.port } }) ∧
    (¬ goes → waits → m.src = s.die → m.op < 4 → ∀ q tag, chlMerge x.q m = some (q, tag) → t.chlPort p = { x with q := q } ∧ q.length = x.q.length ∧
      (∀ r ∈ t.chl.req, r.msg.tag ≠ m.tag) ∧ t = { s with chl := { s.chl with port := t.chl.port, req := t.chl.req } })

/-- Flits and link control (R428 to R430, R435 to R438, R442, R449). -/
def Obligations.FlitsAndLinkControl : Prop :=
  let alike (s u : State) (p : Nat) := (∀ j, j ≠ p → u.chlPort j = s.chlPort j) ∧ u = { s with chl := { s.chl with port := u.chl.port } }
  let one (s : State) (p : Nat) (e : ChlEnv) (r : ChlRx) : State :=
    if 0xF0 ≤ r.msg.op ∧ r.msg.op ≤ 0xF3 then s.chlControl p r.msg.op r.msg.arg else s.chlTake p r e
  (∀ (s : State) (p : Fin 2) (body plain : List Byte) (crc : BitVec 16) (e : ChlEnv),
    let c := Instr.flitReceive p body crc plain e
    let x := s.chlPort p
    let st := s.get R.CHLP_STAT_STATE p
    let bytes := body.map BitVec.toNat
    let hears := 3 ≤ st ∧ st ≤ 7 ∨ x.flitup = true
    let secret := s.flag R.CHLP_STAT_ENCON p = true ∧ x.proved = true
    let fits := flitCrc x.rx bytes = crc.toNat
    (¬ hears → Completes c s fun t => t = s) ∧
    (hears → ¬ fits → Completes c s fun t => t.get R.CHLP_CRCERR_COUNT p = min (s.get R.CHLP_CRCERR_COUNT p + 1) (2 ^ 32 - 1) ∧
      SameRegs s t [R.CHLP_CRCERR_COUNT.key p 0] ∧ (t.chlPort p).naked = true ∧ (t.chlPort p).rx = x.rx ∧
      t.out = s.out ++ (if x.naked = true then [] else [.chl p 0xF2 0 0 0 0 x.rx []]) ∧ t = { s with regs := t.regs, chl := { s.chl with port := t.chl.port }, out := t.out }) ∧
    (hears → fits → x.flitup = false → Completes c s fun t => ∃ (u : State) (q : List ChlRx × List ChlRx), (if x.part.any (fun r => r.need != 0) then
          flitData (if secret then plain.map BitVec.toNat else bytes) x.part else x.part ++ flitHeader (if secret then plain.map BitVec.toNat else bytes)) = q.1 ++ q.2 ∧
      (∀ r ∈ q.1, r.need = 0) ∧ (∀ r, q.2.head? = some r → r.need ≠ 0) ∧
      u.chlPort p = { x with rx := (x.rx + 1) % 4096, naked := false, part := q.2 } ∧ u.out = s.out ++ [.chl p 0xF1 0 0 0 0 x.rx []] ∧ alike { s with out := u.out } u p ∧
      (¬ secret → (∀ r ∈ q.1, r.msg.op ≠ 0xF4) → q.1.length ≤ 1 → t = q.1.foldl (fun s r => one s p e r) u) ∧
      (secret → (∀ r ∈ q.1, r.msg.op ≠ 0xF4) → t.chlPort p = { u.chlPort p with grp := x.grp ++ q.1 } ∧ alike u t p)) ∧
    (hears → fits → x.flitup = true → Completes c s fun t => exec c (s.chlFlitUp p) = .next t)) ∧
  (∀ (n : Nat) (bs : List Nat), let w := fun i k => ofBytes ((bs.drop i).take k)
    flitEntries 0 bs = [] ∧ ∃ r, flitEntries (n + 1) bs = r :: flitEntries (n - min n (chlRaw r.msg.op)) (bs.drop (16 * (1 + min n (chlRaw r.msg.op)))) ∧
      r.msg.op = w 0 1 ∧ r.msg.src = bitsOf (w 1 1) 5 3 ∧ r.msg.dst = bitsOf (w 1 1) 2 3 ∧ r.msg.tag = w 2 2 ∧ r.msg.poison = bitB (w 4 1) 6 ∧ r.msg.st = w 5 1 ∧
      (r.msg.op ≠ 0xF4 → r.msg.arg = w 6 10) ∧ (r.msg.op = 0xF4 → r.msg.arg = w 6 8) ∧ r.msg.raw = (bs.drop 16).take (16 * chlRaw r.msg.op) ∧ r.msg.data = [] ∧ r.need = r.nd ∧
      (r.msg.op < 0xF0 → r.nd = bitsOf (w 4 1) 0 6) ∧ (0xF0 ≤ r.msg.op → r.nd = 0) ∧ (chlRaw r.msg.op ≤ n → r.vc = w 1 1 % 4) ∧ (n < chlRaw r.msg.op → r.bad = true)) ∧
  (∀ bs : List Nat, let l := flitEntries 8 bs
    let o := l.filter (fun r => r.msg.op == 0xF1) ++ l.filter fun r => r.msg.op != 0xF1
    ((l.map ChlRx.nd).sum ≤ 256 → flitHeader bs = o) ∧
    (256 < (l.map ChlRx.nd).sum → (flitHeader bs).length = l.length ∧ ∀ r ∈ flitHeader bs, r.msg.op < 0xF0 → r.bad = true)) ∧
  (∀ (body : List Nat) (a b : List ChlRx) (r : ChlRx), (∀ x ∈ a, x.need = 0) → r.need ≠ 0 →
    flitData body (a ++ r :: b) = a ++ { r with need := r.need - 1, msg := { r.msg with data := r.msg.data ++ body } } :: b) ∧
  (∀ (s : State) (p : Fin 2) (seq : BitVec 12) (vc : Fin 4) (n : BitVec 10) (g : DWord) (e : ChlEnv),
    let x := s.chlPort p
    let st := s.get R.CHLP_STAT_STATE p
    let takes := 3 ≤ st ∧ st ≤ 7
    (Completes (.chlIdle p) s fun t => t = s.chlFlitUp p) ∧
    (x.flitup = false → ¬ takes → ∀ c ∈ [Instr.chlAck p seq, .chlNak p seq, .chlCredit p vc n], Completes c s fun t => t = s) ∧
    (x.flitup = true → ∀ c ∈ [Instr.chlAck p seq, .chlNak p seq, .chlCredit p vc n], Completes c s fun t => exec c (s.chlFlitUp p) = .next t) ∧
    (x.flitup = false → takes → Completes (.chlAck p seq) s fun t => ∃ u : State, alike s u p ∧
      u.chlPort p = { x with replay := x.replay.filter fun m => !seqLe m.last seq.toNat } ∧ t = u.chlPump p) ∧
    (x.flitup = false → takes → Completes (.chlNak p seq) s fun t => Replays s t p seq.toNat) ∧
    (x.flitup = false → takes → Completes (.chlCredit p vc n) s fun t => ∃ u : State, alike s u p ∧
      u.chlPort p = { x with cred := x.cred.set vc (min ([128, 384, 32, 64].getD vc 0) (x.cred.getD vc 0 + n.toNat)) } ∧ t = u.chlPump p) ∧
    (let secret := s.flag R.CHLP_STAT_ENCON p = true ∧ x.proved = true;
      (¬ takes ∨ ¬ secret → Completes (.chlGtag p g e) s fun t => t = s) ∧
      (takes → secret → (e.tagOk = false ∨ g.toNat ≠ x.rxg) → Completes (.chlGtag p g e) s fun t => Downed s t p 8 true) ∧
      (takes → secret → e.tagOk = true → g.toNat = x.rxg → Completes (.chlGtag p g e) s fun t => ∃ u : State, alike s u p ∧
        u.chlPort p = { x with rxg := x.rxg + 1, grp := [] } ∧ t = x.grp.foldl (fun s r => one s p e r) u))) ∧
  ∀ (s : State) (p : Nat), (s.chlPort p).q = [] → s.chlPump p = s

/-- Memory messages of the chain (R164, R174, R196, R430, R433, R448, R449, R519). -/
def Obligations.ChainMemoryMessagesAreServed : Prop :=
  (∀ (s : State) (p : Fin 2) (src dst : Fin 8) (tag : BitVec 16) (line : BitVec 37) (n : BitVec 5) (data : List Byte) (mask : BitVec 128) (poison : Bool),
    s.Accepts p src dst → s.NoPoison →
    let l := s.dpaLoc (line.toNat * 128)
    let code := match s.locStatus l with | .ok => 0 | .domainAsleep => 3 | _ => 1
    let reads (k : Nat) (t : State) := t.mem = s.mem ∧ ∃ ds, Answered s t p 8 src tag.toNat code 0 ds ∧ ds.length = 128 * k ∧ ∀ a, l = .loc a → code = 0 → ds = bytesAt 0 s.mem a (128 * k)
    let poisons (k : Nat) (t : State) := poison = true → ∀ i < k, (t.poisoned (line.toNat * 128 + 128 * i) false).isSome = true ∨ t.get R.SIN_STAT_POISON_OVF = 1
    let byte (i : Nat) := (data.getD i 0).toNat
    ((∀ d, l ≠ .remote d) → Completes (.chlRd p src dst tag line) s (reads 1) ∧ Completes (.chlRdb p src dst tag line n) s (reads (n.toNat + 1)) ∧
      (code ≠ 0 → Completes (.chlWr p src dst tag line n data poison) s (fun t => t.mem = s.mem ∧ Answered s t p 9 src tag.toNat code 0 []) ∧
        Completes (.chlWrp p src dst tag line mask data poison) s (fun t => t.mem = s.mem ∧ Answered s t p 9 src tag.toNat code 0 []))) ∧
    ∀ a, l = .loc a → code = 0 →
      (Completes (.chlWr p src dst tag line n data poison) s fun t => Answered s t p 9 src tag.toNat 0 0 [] ∧ poisons (n.toNat + 1) t ∧
        ∀ x, byteAt 0 t.mem x = if a ≤ x ∧ x < a + 128 * (n.toNat + 1) then byte (x - a) else byteAt 0 s.mem x) ∧
      (a + 128 ≤ s.dramBytes → Completes (.chlWrp p src dst tag line mask data poison) s fun t => poisons 1 t ∧ Answered s t p 9 src tag.toNat 0 0 [] ∧
        ∀ x, byteAt 0 t.mem x = if a ≤ x ∧ x < a + 128 ∧ mask.getLsbD (x - a) = true then byte (x - a) else byteAt 0 s.mem x)) ∧
  (∀ (s : State) (p : Fin 2) (src dst : Fin 8) (tag : BitVec 16) (dpa : BitVec 44) (op : Fin 10) (w64 sgn : Bool) (b c : DWord) (a : Nat),
    s.Accepts p src dst → s.NoPoison → s.dpaLoc dpa.toNat = .loc a → s.locStatus (.loc a) = .ok →
    let n := if w64 then 8 else 4
    let old := ofBytes (bytesAt 0 s.mem a n)
    let kept := op = 7 ∧ old ≠ c.toNat % 2 ^ (8 * n)
    Completes (.chlAtm p src dst tag dpa op w64 sgn b c) s fun t => Answered s t p 9 src tag.toNat 0 old [] ∧ (kept → t.mem = s.mem) ∧
      (¬ kept → ∀ x, byteAt 0 t.mem x = if a ≤ x ∧ x < a + n then (toBytes n (atomNew op w64 sgn old (b.toNat % 2 ^ (8 * n)) (c.toNat % 2 ^ (8 * n)))).getD (x - a) 0 else byteAt 0 s.mem x)) ∧
  ∀ (s : State) (p : Fin 2) (src dst : Fin 8) (tag : BitVec 16) (st : Fin 7) (n : BitVec 6) (data : List Byte) (old : DWord), s.Accepts p src dst → n.toNat ≤ 32 →
    let hit (rd : Bool) := s.chl.req.find? fun r => r.msg.tag == tag.toNat && r.msg.dst == src.val && decide (r.msg.op < 3) == rd
    let bytes := (data.map BitVec.toNat ++ List.replicate (128 * n.toNat) 0).take (128 * n.toNat)
    let counted (t : State) := t.get R.CHLP_DROP_COUNT p = min (s.get R.CHLP_DROP_COUNT p + 1) (2 ^ 32 - 1) ∧
      ((s.chlPort p).viol.length < 64 → t.chl.req = s.chl.req ∧ t.mem = s.mem ∧ t.sin = s.sin ∧ t.wsp = s.wsp)
    let gone (t : State) := t.chl.req = s.chl.req.filter fun x => x.msg.tag != tag.toNat
    let still (t : State) := t.mem = s.mem ∧ t.wsp = s.wsp ∧ t.emb = s.emb
    let waits (t : State) := t.chl.req = (s.chl.req.map fun x => if x.msg.tag == tag.toNat then { x with wait := true } else x) ∧ still t ∧ t.sin = s.sin
    (hit true = none → Completes (.chlRdr p src dst tag st n data false) s counted) ∧ (hit false = none → Completes (.chlRsp p src dst tag st old) s counted) ∧
    (∀ r, hit true = some r →
      (st = 0 → n.toNat ≠ r.lines → Completes (.chlRdr p src dst tag st n data false) s counted) ∧
      (st = 3 → (∀ id, r.acc ≠ some (16, id)) → Completes (.chlRdr p src dst tag st n data false) s waits) ∧
      (st = 0 → n.toNat = r.lines → r.msg.op = 1 ∨ r.msg.op = 2 → Completes (.chlRdr p src dst tag st n data false) s fun t => gone t ∧ still t ∧
        (∀ id, r.msg.op = 2 → r.acc = some (16, id) → Out.reply true (ofBytes ((bytes.drop (id / 8192)).take (id % 8192))) ∈ t.out) ∧
        (∀ f, r.lines = 1 → (s.sin.fills.find? fun f => f.line == r.msg.dpa && f.remote) = some f → t.sin.fills = s.sin.fills.erase f)) ∧
      (st = 0 → n.toNat = r.lines → r.msg.op = 1 ∨ r.msg.op = 2 → Completes (.chlRdr p src dst tag st n data true) s fun t => gone t ∧ still t ∧
        ∀ id, r.msg.op = 2 → r.acc = some (16, id) → ∃ v, Out.reply false v ∈ t.out)) ∧
    ∀ r, hit false = some r →
      (st = 3 → (∀ id, r.acc ≠ some (16, id)) → Completes (.chlRsp p src dst tag st old) s waits) ∧
      (r.msg.op ∈ [3, 4] → st ≠ 3 → st = 0 ∨ r.who = [] → Completes (.chlRsp p src dst tag st old) s fun t => gone t ∧ still t ∧ t.sin = s.sin) ∧
      (r.msg.op = 5 → ∀ id, r.acc = some (16, id) → st ≠ 3 → Completes (.chlRsp p src dst tag st old) s fun t => gone t ∧ still t ∧
        Out.reply (st == 0) old.toNat ∈ t.out)

/-- SYN-class messages (R234, R235, R250, R251, R257, R258, R262, R430, R431, R519). -/
def Obligations.ChainSynMessagesAct : Prop :=
  let credited (u t : State) (p : Fin 2) := t = { u with out := u.out ++ [.chl p 0xF3 0 0 0 0 (3 + 2 * 2 ^ 16) []] }
  (∀ (s : State) (p : Fin 2) (src dst : Fin 8) (h id tail pasid seq : Word) (v w va tb : DWord) (code err : BitVec 16) (e page glob nw ok r wr u g : Bool) (pg res : Byte)
      (kind : Fin 4) (npg lg : BitVec 6) (tag : BitVec 7) (ps : BitVec 20) (prg : BitVec 4), s.Accepts p src dst → src.val ≠ s.die → s.portTo src = p →
    let i := hIdx h.toNat
    let live := s.objCheck 0 h.toNat = 0 ∧ hDie h.toNat = s.die
    let fails (t : State) := t.get R.SYN_OBJERR_COUNT = min (s.get R.SYN_OBJERR_COUNT + 1) (2 ^ 32 - 1) ∧
      Recorded s t fun f => f.cls = 4 ∧ f.cause = 3 ∧ f.src = 0xFF ∧ f.sub = s.objCheck 0 h.toNat
    let sat (t : State) (err : Nat) (e : Bool) := Answered s t p 0x13 src 0 0 0x13 (flitPad (toBytes 4 0 ++ toBytes 4 id.toNat ++ toBytes 2 err ++ [b2n e]))
    (live → Completes (.sigpend p src dst h v) s fun t => t.syn.pend = s.syn.pend ++ [⟨i, src, v.toNat⟩] ∧ (t.synObj i).pendBit = true ∧
      (t.synObj i).pmax = max (s.synObj i).pmax v.toNat) ∧
    (live → Completes (.chlSig p src dst h code v) s fun t => SameObj (t.synObj i) ((s.synObj i).signal v.toNat code.toNat) ∧ (∀ x ∈ t.syn.pend, x ∈ s.syn.pend) ∧
      ∀ x ∈ t.syn.waits, x.idx = i → max (s.synObj i).value v.toNat < x.w) ∧
    (s.objCheck 0 h.toNat ≠ 0 → Completes (.sigpend p src dst h v) s fails ∧ Completes (.chlSig p src dst h code v) s fails) ∧
    (s.memReach src = true → live → w.toNat ≤ (s.synObj i).value → Completes (.chlWait p src dst h id w) s fun t => let o := s.synObj i
      sat t (if isErr o.err = true ∧ w.toNat < o.epoint then 0 else o.err) (isErr o.err && decide (o.epoint ≤ w.toNat)) ∧ t.syn.waits = s.syn.waits) ∧
    (live → (s.synObj i).value < w.toNat → Completes (.chlWait p src dst h id w) s fun t => t.syn.waits = s.syn.waits ++ [⟨i, w.toNat, src, id.toNat⟩]) ∧
    (s.memReach src = true → s.objCheck 0 h.toNat ≠ 0 → Completes (.chlWait p src dst h id w) s fun t => sat t 9 true ∧ t.syn = s.syn) ∧
    ((∀ x ∈ s.syn.remote, x.2.2 ≠ id.toNat) → Completes (.chlWaitsat p src dst id err e) s fun t => credited s t p) ∧
    ((∃ x ∈ s.syn.remote, x.2.2 = id.toNat) → Completes (.chlWaitsat p src dst id err e) s fun t => t.syn.sat.lookup id.toNat = some (err.toNat, e) ∧
      t.syn.remote = s.syn.remote.filter (fun x => x.2.2 != id.toNat) ∧ credited { s with syn := t.syn } t p) ∧
    (Completes (.chlDb p src dst h tail pg) s fun t => ∃ u : State, u = s.bellHere h.toNat tail.toNat pg.toNat ∧ (u.get R.CHLP_STAT_STATE p = 5 → credited u t p)) ∧
    (Completes (.objchk p src dst h kind) s fun t => Answered s t p 0x16 src 0 0 0x16 (flitPad (toBytes 4 h.toNat ++ [kind.val,
      match s.objCheck kind h.toNat with | 1 => 3 | 2 => 1 | 3 => 2 | _ => 0])) ∧ t = { s with chl := t.chl, out := t.out }) ∧
    (Completes (.objres p src dst h kind res) s fun t => t.wsp.win = (s.wsp.win.map fun k => { k with chk := k.chk.map fun c =>
      if c.1 = h.toNat ∧ c.2 = none then (h.toNat, some res.toNat) else c }) ∧ credited { s with wsp := { s.wsp with win := t.wsp.win } } t p) ∧
    (Completes (.chlInv p src dst va pasid npg glob seq) s fun t => let sz := 4096 * 2 ^ min 52 npg.toNat; let lo := va.toNat / sz * sz
      NoMatch t lo (lo + sz) (if pasid.getLsbD 31 then none else some (pasid.toNat % 2 ^ 20)) glob ∧ t.dtu.invSeq = s.dtu.invSeq + 1 ∧
      t.dtu.invq = s.dtu.invq ++ [{ seq := s.dtu.invSeq, lo := lo, hi := lo + sz, itag := none, fwd := some seq.toNat, wait := [] }] ∧ credited { s with dtu := t.dtu } t p) ∧
    (Completes (.chlInvdone p src dst seq) s fun t => t.dtu.invq = (s.dtu.invq.map fun x => if x.seq = seq.toNat then { x with wait := x.wait.filter fun d => decide (d ≠ src.val) } else x) ∧
      credited { s with dtu := { s.dtu with invq := t.dtu.invq } } t p) ∧
    (let free := s.isDie0 = true ∧ (s.dtu.prx.filter fun x => x.2.die == src.val).length < 16 ∧ ∃ k < 64, s.dtu.prx.lookup k = none;
      (¬ free → Completes (.prxreq p src dst page tag ps va nw) s fun t => credited s t p) ∧
      (free → Completes (.prxreq p src dst page tag ps va nw) s fun t => ∃ k < 64, s.dtu.prx.lookup k = none ∧ (∀ j < k, s.dtu.prx.lookup j ≠ none) ∧
        t.dtu.prx.lookup k = some { die := src.val, tag := tag.toNat, page := page } ∧
        credited { s with dtu := { s.dtu with prx := t.dtu.prx }, out := s.out ++ [if page then .pageReq (128 + k) ps.toNat va.toNat true nw else .atsReq (32 + k) ps.toNat va.toNat nw] } t p)) ∧
    (Completes (.prxrsp p src dst false tag ok tb lg r wr u g prg) s fun t => ∃ x : State,
      x = s.atsDone tag.toNat { ok := ok, tbase := tb.toNat, lg := max 12 lg.toNat, r := r, w := wr, u := u, g := g } ∧ (x.get R.CHLP_STAT_STATE p = 5 → credited x t p)) ∧
    (Completes (.prxrsp p src dst true tag ok tb lg r wr u g prg) s fun t => ∃ x : State, x = s.prgDone tag.toNat prg.toNat ∧ (x.get R.CHLP_STAT_STATE p = 5 → credited x t p))) ∧
  ∀ (s : State) (p : Fin 2) (src dst : Fin 8) (h id tail pasid seq : Word) (v w : DWord) (err : BitVec 16) (e : Bool) (pg : Byte) (kind : Fin 4) (npg : BitVec 6) (tag : BitVec 7)
      (ps : BitVec 20) (prg : BitVec 4), s.get R.PWR_STAT_STATE = 2 → (s.chlPort p).flitup = false → s.get R.CHLP_STAT_STATE p = 5 → dst.val = s.die →
    (s.flag R.CHL_ROLL_VALID = true → src.val ≠ s.die ∧ s.portTo src = p) →
    (Completes (.chlDb p src dst h tail pg) s fun t => credited s t p) ∧
    ∀ c ∈ [Instr.sigpend p src dst h v, .chlSig p src dst h err v, .chlWait p src dst h id w, .chlWaitsat p src dst id err e, .objchk p src dst h kind, .objres p src dst h kind pg,
        .chlInv p src dst v pasid npg e seq, .chlInvdone p src dst seq, .prxreq p src dst e tag ps v e, .prxrsp p src dst e tag e v npg e e e e prg],
      Completes c s fun t => ∃ m : ChlMsg, m.src = src.val ∧ m.dst = dst.val ∧ credited { s with chl := { s.chl with defer := s.chl.defer ++ [(p.val, m)] } } t p

/-- Joining, numbers and sleep (R425, R440, R441, R443 to R446, R448, R449, R453, R520). -/
def Obligations.DiesJoinSleepAndAreNumbered : Prop :=
  let follows (s t : State) (p q : Nat) := (4 ≤ s.get R.CHLP_STAT_STATE p → s.get R.CHLP_STAT_STATE p ≤ 6 →
      (q ≠ 0 → t.get R.CHLP_STAT_STATE p = 6 ∧ t.get R.CHLP_STAT_QREASON p = q) ∧
      (q = 0 → (∃ d < 8, t.routedBy p d = true) → t.get R.CHLP_STAT_STATE p = 5 ∧ t.get R.CHLP_STAT_QREASON p = 0)) ∧
    (s.get R.CHLP_STAT_STATE p < 4 ∨ 6 < s.get R.CHLP_STAT_STATE p → t.get R.CHLP_STAT_STATE p = s.get R.CHLP_STAT_STATE p)
  (∀ (s : State) (p : Fin 2) (uid : BitVec 128) (nonce key : List Byte) (enc : Bool) (sig : BitVec 512) (e : ChlEnv) (root chain8 pend : Bool) (num : Option (Fin 8))
      (gen lo hi : Word) (left : Fin 4), (s.chlPort p).flitup = false → 3 ≤ s.get R.CHLP_STAT_STATE p → s.get R.CHLP_STAT_STATE p ≤ 7 → s.get R.PWR_STAT_STATE = 0 →
    let x := s.chlPort p
    let st := s.get R.CHLP_STAT_STATE p
    let violates (t : State) := t.get R.CHLP_DROP_COUNT p = min (s.get R.CHLP_DROP_COUNT p + 1) (2 ^ 32 - 1) ∧ (x.viol.length < 64 → t.get R.CHLP_STAT_STATE p = st ∧ t.mem = s.mem)
    let shown (t : State) := ∀ k < 4, t.get R.CHLP_PEER_UID_UID p k = bitsOf uid.toNat (32 * k) 32
    let fails (t : State) := Downed s t p 3 (decide (3 ≤ x.tries)) ∧ (t.chlPort p).tries = x.tries + 1
    (st ≠ 3 → Completes (.hello p uid nonce key enc e) s violates) ∧
    (st = 3 → e.certOk = false ∨ e.hashOk = false → Completes (.hello p uid nonce key enc e) s fun t => fails t ∧ shown t) ∧
    (st = 3 → e.certOk = true → e.hashOk = true → Completes (.hello p uid nonce key enc e) s fun t => shown t ∧ t.get R.CHLP_STAT_STATE p = 3 ∧ helloUid (t.chlPort p).hello = uid.toNat ∧
      t.get R.CHLP_STAT_ENCON p = b2n (bitB (x.mine.getD 288 0) 0 || enc) ∧ ∃ bs, Answered s t p 0x20 (s.get R.CHLP_STAT_PEERDIE p) 0 0 0x102 bs) ∧
    (st ≠ 3 ∨ x.hello = [] → Completes (.proof p sig e) s violates) ∧
    (st = 3 → x.hello ≠ [] → e.proofOk = false → Completes (.proof p sig e) s fails) ∧
    (st = 3 → x.hello ≠ [] → e.proofOk = true → x.asleep = true → helloUid x.hello ≠ x.uid → Completes (.proof p sig e) s fun t => Downed s t p 7 false) ∧
    (st = 3 → x.hello ≠ [] → e.proofOk = true → x.asleep = true → helloUid x.hello = x.uid → Completes (.proof p sig e) s fun t => t.get R.CHLP_STAT_STATE p = 7 ∧
      (t.chlPort p).proved = true ∧ (t.chlPort p).tries = 0) ∧
    (st = 3 → x.hello ≠ [] → e.proofOk = true → x.asleep = false → Completes (.proof p sig e) s fun t => t.get R.CHLP_STAT_STATE p = 4 ∧ (t.chlPort p).proved = true ∧
      (t.chlPort p).tries = 0 ∧ (t.chlPort p).uid = helloUid x.hello ∧ Answered s t p 0x20 (s.get R.CHLP_STAT_PEERDIE p) 0 0 0x103 (flitPad s.rollInfo)) ∧
    (Completes (.rollinfo p uid root num chain8 pend gen lo hi) s fun t => t.get R.CHLP_PEER_GEN_GEN p = gen.toNat ∧ t.get R.CHLP_PEER_GEN_MIN p = lo.toNat ∧
      (∀ k : Fin 8, num = some k → t.get R.CHLP_STAT_PEERDIE p = k) ∧ (num = none → t.get R.CHLP_STAT_PEERDIE p = s.get R.CHLP_STAT_PEERDIE p) ∧ (t.chlPort p).pend = pend ∧
      (pend = false → SameRegs s t [R.CHLP_PEER_GEN_GEN.key p 0, R.CHLP_PEER_GEN_MIN.key p 0, R.CHLP_STAT_PEERDIE.key p 0] ∧ t = { s with regs := t.regs, chl := t.chl, out := t.out })) ∧
    (st ≠ 5 → st ≠ 6 → Completes (.chlSleep p) s fun t => t = { s with out := t.out }) ∧
    (st = 5 ∨ st = 6 → Completes (.chlSleep p) s fun t => t.get R.CHLP_STAT_STATE p = 7 ∧ (t.chlPort p).asleep = true ∧ (t.chlPort p).was = st ∧
      (∀ d < 8, t.route d = if s.routedBy p d then s.route d % 8 + 8 else s.route d) ∧ t = { s with regs := t.regs, chl := t.chl, out := t.out }) ∧
    (Completes (.chlWake p none left) s fun t => let back := st = 7 ∧ x.asleep = true ∧ x.proved = true
      (back → t.get R.CHLP_STAT_STATE p = x.was % 16 ∧ (t.chlPort p).asleep = false ∧ ∀ d < 8, t.route d = if s.routedBy p d then s.route d % 8 else s.route d) ∧
      (¬ back → t.get R.CHLP_STAT_STATE p = st ∧ ∀ d < 8, t.route d = s.route d) ∧ (∀ r ∈ t.chl.req, t.routedBy p r.msg.dst = true → r.wait = false) ∧
      t = { s with regs := t.regs, chl := t.chl, out := t.out })) ∧
  (∀ (s : State) (p : Fin 2) (src dst : Fin 8) (left : Fin 4), s.Accepts p src dst → Completes (.chlWake p (some (src, dst)) left) s fun t =>
    (∀ r ∈ t.chl.req, r.msg.dst = src.val → r.wait = false) ∧ t = { s with chl := t.chl, out := t.out }) ∧
  (∀ (s : State) (p : Fin 2) (num count : Fin 8) (quar : Bool) (routes hops : Word) (epoch : BitVec 16) (q0 q1 : Fin 7),
    let c := Instr.rollset p num quar count routes hops epoch q0 q1
    let takes := 3 ≤ s.get R.CHLP_STAT_STATE p ∧ s.get R.CHLP_STAT_STATE p ≤ 7
    (¬ takes → Completes c s fun t => t = s) ∧
    (takes → s.get R.PWR_STAT_STATE = 0 → Completes c s fun t => t.get R.CHL_ROLL_DIE = num ∧ t.get R.CHL_ROLL_VALID = 1 ∧ t.get R.CHL_ROLL_COUNT = count ∧
      t.get R.CHL_ROLL_EPOCH = epoch.toNat ∧ t.get R.CHL_STAT_QDIE = b2n quar ∧ (∀ d < 8, t.route d = bitsOf routes.toNat (4 * d) 4 ∧ t.hops d = bitsOf hops.toNat (4 * d) 4) ∧
      follows s t 0 q0 ∧ follows s t 1 q1)) ∧
  (∀ (s : State) (walk : List RollDie) (ring : Bool), let runs := s.flag R.CHL_STAT_ROOT = true ∧ s.domLive 0 = true ∧ s.rst.asserted = none
    (¬ runs → Completes (.rollCall walk ring) s fun t => t = s) ∧
    (runs → Completes (.rollCall walk ring) s fun t => let r := ring && decide (2 ≤ walk.length)
      let pl := s.rollPlan walk r
      let own := rollTable pl.nodes pl.links r pl.zero
      t.get R.CHL_ROLL_DIE = 0 ∧ t.get R.CHL_ROLL_VALID = 1 ∧ t.get R.CHL_ROLL_COUNT = ((pl.nodes.filter fun x => x.num.isSome).length - 1) % 8 ∧
      t.get R.CHL_ROLL_EPOCH = (s.get R.CHL_ROLL_EPOCH + 1) % 2 ^ 16 ∧ t.get R.CHL_STAT_ROLLBUSY = 0 ∧ t.chl.names = pl.names ∧ t.chl.ring = r ∧
      (∀ d < 8, t.route d = (own.getD d (3, 0)).1 % 16 ∧ t.hops d = (own.getD d (3, 0)).2 % 16 ∧ bitB (t.get R.CHL_ROLL_QMASK) d = bitB (own.getD d (3, 0)).1 2) ∧
      follows s t 0 (s.rollPort walk r pl 0) ∧ follows s t 1 (s.rollPort walk r pl 1))) ∧
  (∀ walk : List RollDie, rollNumbers [] walk = (List.range walk.length).map (· + 1)) ∧
  ∀ (names : List (Nat × Nat)) (walk : List RollDie), names ≠ [] → walk.length ≤ 7 → (∀ n ∈ names, n.1 < 8 ∧ ∀ d ∈ walk, n.2 = d.uid → n.1 ≠ 0) →
    (rollNumbers names walk).length = walk.length ∧ (rollNumbers names walk).Nodup ∧ (∀ n ∈ rollNumbers names walk, 1 ≤ n ∧ n ≤ 7) ∧
    ∀ i (h : i < walk.length) n, walk[i].held = some n → 1 ≤ n → n ≤ 7 → (∀ j (h' : j < i), walk[j].held ≠ some n) → (rollNumbers names walk)[i]? = some n

/-- Management messages (R25, R212, R464, R566 to R570, R575, R597, R655, R659). -/
def Obligations.ChainManagementActs : Prop :=
  (∀ (s : State) (p : Fin 2) (src dst : Fin 8) (off : BitVec 25) (val : Word) (wr err : Bool) (e : ChlEnv), s.Accepts p src dst → src.val ≠ s.die → s.portTo src = p → s.mgmtReach src = true →
    let reply (u t : State) (err : Bool) (v : Nat) := u.get R.CHLP_STAT_STATE p = 5 → u.mgmtReach src = true → u.portTo src = p → u.die = s.die →
      Answered s t p 0x20 src 0 (b2n err) (6 + 65536 * (off.toNat + 2 ^ 25 * b2n wr)) (flitPad (toBytes 4 v)) ∧ t = { u with chl := t.chl, out := t.out }
    (0x1800000 ≤ off.toNat → Completes (.regreq p src dst off wr val e) s fun t => reply { s with busErr := false } t false 0) ∧
    (off.toNat < 0x1800000 → wr = false → Completes (.regreq p src dst off wr val e) s fun t => reply (s.regRead .m1 off.toNat 4).2 t false (s.regRead .m1 off.toNat 4).1) ∧
    (off.toNat < 0x1800000 → wr = true → Completes (.regreq p src dst off wr val e) s fun t => reply (s.regWrite .m1 off.toNat 4 val.toNat e.bus) t (s.regWrite .m1 off.toNat 4 val.toNat e.bus).busErr 0) ∧
    (let hit := s.chl.win.find? fun w => w.1 == src.val;
      (hit = none → Completes (.regrsp p src dst off wr err val) s fun t => t = { s with out := t.out }) ∧
      ∀ w, hit = some w → Completes (.regrsp p src dst off wr err val) s fun t => t.chl.win = s.chl.win.erase w ∧ t.get R.CHIP_RWIN_ERR = b2n err ∧
        (w.2.2 = 2 → t.jtag.dapStat = 2 ∧ (w.2.1 = false → t.jtag.dapData = if err then 2 ^ 32 - 1 else val.toNat)) ∧
        (w.2.2 ≠ 2 → w.2.1 = false → Out.reply true (if err then 2 ^ 32 - 1 else val.toNat) ∈ t.out) ∧ t.mem = s.mem)) ∧
  (∀ (s : State) (p : Fin 2) (idx : BitVec 16) (data : List Byte) (e : ChlEnv), (s.chlPort p).flitup = false → 3 ≤ s.get R.CHLP_STAT_STATE p → s.get R.CHLP_STAT_STATE p ≤ 7 →
    s.get R.PWR_STAT_STATE = 0 →
    let takes := s.receiving = true ∧ (s.boot.recvPort = none ∨ s.boot.recvPort = some p.val)
    let bytes := (data.map BitVec.toNat ++ List.replicate 4096 0).take 4096
    let blocks := Cells.put s.boot.blocks idx.toNat bytes
    let whole := ∃ h, blocks.lookup 0 = some h ∧ bundleLen h ≤ blocks.length
    let c := Instr.fwblk p idx data e
    (¬ takes → Completes c s fun t => t = { s with out := t.out }) ∧
    (takes → ¬ whole → Completes c s fun t => t.boot = { s.boot with recvPort := some p.val, blocks := blocks } ∧ t.flash = s.flash ∧
      (5 ≤ s.get R.CHLP_STAT_STATE (1 - p.val) → s.get R.CHLP_STAT_STATE (1 - p.val) ≤ 6 → (s.chlPort (1 - p.val)).pend = true →
        Answered s t (1 - p.val) 0x20 (s.get R.CHLP_STAT_PEERDIE (1 - p.val)) 0 0 (0x107 + 65536 * idx.toNat) bytes)) ∧
    (takes → whole → e.bundleOk = false → s.boot.tries < 2 → Completes c s fun t => t.boot = { s.boot with recvPort := none, blocks := [], tries := s.boot.tries + 1 } ∧ t.flash = s.flash) ∧
    (takes → whole → e.bundleOk = false → 2 ≤ s.boot.tries → Completes c s fun t => t.get R.BOOT_STAT_PHASE = 4 ∧ t.get R.BOOT_FATAL_VALID = 1 ∧ t.get R.BOOT_FATAL_STEP = 22 ∧
      t.get R.BOOT_FATAL_DETAIL = 0x200) ∧
    (takes → whole → e.bundleOk = true → ∃ t, exec c s = .next t)) ∧
  (∀ (s : State) (p : Fin 2) (e : ChlEnv), (s.chlPort p).flitup = false → 3 ≤ s.get R.CHLP_STAT_STATE p → s.get R.CHLP_STAT_STATE p ≤ 7 →
    (s.rstReach = true → s.get R.PWR_STAT_STATE = 0 → Completes (.chnrst p e) s fun t => t.get R.CRU_RST_STAT_LAST = ResetKind.chn.code ∧ t.get R.CRU_RST_STAT_SRC = 4 + p.val ∧
      t.get R.CRU_RST_STAT_COUNT = min (s.get R.CRU_RST_STAT_COUNT + 1) 65535 ∧ t.staged = [] ∧ t.ao = s.ao) ∧
    (s.rstReach = true → s.get R.PWR_STAT_STATE = 2 → Completes (.chnrst p e) s fun t => t.rst.held = s.rst.held ++ [(4 + p.val, e.bus.boot)] ∧ t = { s with rst := t.rst, chl := t.chl, out := t.out }) ∧
    (s.rstReach = false → s.get R.PWR_STAT_STATE ≠ 1 → Completes (.chnrst p e) s fun t => t = { s with out := t.out })) ∧
  (∀ (s : State) (p : Fin 2) (src dst : Fin 8) (base lim : DWord) (v : Fin 16) (die : Fin 8), s.Accepts p src dst →
    (s.isDie0 = true → Completes (.chlDmwin p src dst base lim) s fun t => t = { s with out := t.out }) ∧
    (s.isDie0 = false → Completes (.chlDmwin p src dst base lim) s fun t => t.get R.DTU_DMWIN_BASE_ADDR = base.toNat / 2 ^ 30 % 2 ^ R.DTU_DMWIN_BASE_ADDR.w ∧
      t.get R.DTU_DMWIN_BASE_EN = base.toNat % 2 ∧ t.get R.DTU_DMWIN_LIM_ADDR = lim.toNat / 2 ^ 30 % 2 ^ R.DTU_DMWIN_LIM_ADDR.w ∧
      SameRegs s t [R.DTU_DMWIN_BASE_ADDR.key 0 0, R.DTU_DMWIN_BASE_EN.key 0 0, R.DTU_DMWIN_LIM_ADDR.key 0 0] ∧ t = { s with regs := t.regs, out := t.out }) ∧
    (¬ (s.isDie0 = true ∧ s.flag R.HIF_CTL_FWD = true) → Completes (.chlIrq p src dst v die) s fun t => t = { s with out := t.out }) ∧
    (s.isDie0 = true → s.flag R.HIF_CTL_FWD = true → Completes (.chlIrq p src dst v die) s fun t => bitB (t.get R.HIF_IDIE_BYTES (v.val / 4)) (v.val % 4 * 8 + die.val) = true ∧
      (bitB (s.rawGet (0x8000 + 16 * v.val + 12)) 0 = false → Out.msix v.val ∈ t.out) ∧
      (bitB (s.rawGet (0x8000 + 16 * v.val + 12)) 0 = true → bitB (t.rawGet 0x9000) v.val = true) ∧ SameRegs s t [R.HIF_IDIE_BYTES.key (v.val / 4) 0] ∧
      t = { s with regs := t.regs, raw := t.raw, out := t.out })) ∧
  (∀ (s : State) (p : Fin 2) (src dst : Fin 8) (phase : BitVec 3) (step sub cls : Byte) (uid : BitVec 128), s.Accepts p src dst →
    (s.isDie0 = false → ∀ c ∈ [Instr.slotreq p src dst phase step sub cls uid, .slotret p src dst phase step sub cls uid, .bootrepReport p src dst phase step sub cls uid],
      Completes c s fun t => t = { s with out := t.out }) ∧
    (s.isDie0 = true → s.boot.testconc ≤ s.boot.slots.length → Completes (.slotreq p src dst phase step sub cls uid) s fun t =>
      t = { s with boot := { s.boot with slotQ := s.boot.slotQ ++ [src.val] }, out := t.out }) ∧
    (s.isDie0 = true → src.val ≠ 0 → s.boot.slotQ = [] → s.boot.slots.length < s.boot.testconc → Completes (.slotreq p src dst phase step sub cls uid) s fun t =>
      t.boot = { s.boot with slots := src.val :: s.boot.slots } ∧ (s.mgmtReach src = true → s.portTo src = p → Answered s t p 0x20 src 0 0 0x0E (flitPad (s.bootRep 2 src)))) ∧
    (s.isDie0 = true → s.boot.slotQ = [] → Completes (.slotret p src dst phase step sub cls uid) s fun t =>
      t = { s with boot := { s.boot with slots := s.boot.slots.filter fun d => d != src.val }, out := t.out }) ∧
    (s.boot.waitSlot = true → Completes (.slotgrant p src dst phase step sub cls uid) s fun t => t.boot.waitSlot = false) ∧
    (s.boot.waitSlot = false → s.flag R.CHL_ROLL_VALID = true → s.mgmtReach 0 = true → s.portTo 0 = p → Completes (.slotgrant p src dst phase step sub cls uid) s fun t =>
      Answered s t p 0x20 0 0 0 0x0E (flitPad (s.bootRep 3 s.die)) ∧ t = { s with chl := t.chl, out := t.out }) ∧
    (s.isDie0 = true → Completes (.bootrepReport p src dst phase step sub cls uid) s fun t => ∀ d < 8,
      bitB (t.get R.BOOT_CHAIN_READY) d = (if d = src.val then phase == 3 else bitB (s.get R.BOOT_CHAIN_READY) d) ∧
      bitB (t.get R.BOOT_CHAIN_FAILED) d = (if d = src.val then phase == 4 else bitB (s.get R.BOOT_CHAIN_FAILED) d))) ∧
  ∀ (s : State) (p : Fin 2) (src dst : Fin 8) (journal : Bool) (bs : List Byte), s.Accepts p src dst →
    let ent := s.dirEnt (if journal then 8 else 7)
    let put (u t : State) (a n : Nat) := (∀ i < n, byteAt 0xFF t.flash (a + i) = byteAt 0xFF u.flash (a + i) &&& (bs.getD i 0).toNat) ∧
      (∀ x, x < a ∨ a + n ≤ x → byteAt 0xFF t.flash x = byteAt 0xFF u.flash x) ∧ t = { s with flash := t.flash, out := t.out }
    (s.isChainDie = true ∨ ent = none → Completes (.flashrec p src dst journal bs) s fun t => t = { s with out := t.out }) ∧
    ∀ d, s.isChainDie = false → ent = some d →
      (journal = false → s.supCount d < d.len / 32 → Completes (.flashrec p src dst journal bs) s fun t => put s t (d.off + 32 * s.supCount d) 32) ∧
      (journal = false → d.len / 32 ≤ s.supCount d → Completes (.flashrec p src dst journal bs) s fun t => t = { s with out := t.out }) ∧
      (journal = true → Completes (.flashrec p src dst journal bs) s fun t => put (s.jslot d).1 t (s.jslot d).2 256)

/-- Register writes (R9, R10, R12, R14, R466, R470, R483). -/
def Obligations.RegisterWritesFollowTheirCodes : Prop :=
  (∀ (s : State) (m : Master) (off : BitVec 25) (val : Word) (e : BusEnv) (r : Reg) (i k : Nat),
    let c := Instr.registerWrite m off 4 val e
    findReg off.toNat = some (r, i, k) → r.off ∉ actingOffs →
    (r.wide = false → s.Serves m off.toNat →
      (s.Unlocked off.toNat r i k val.toNat → Completes c s fun t => Written (s.begun m) t r i k val.toNat) ∧
      (¬ s.Unlocked off.toNat r i k val.toNat → Completes c s fun t => t = (s.begun m).errComp m .locked off.toNat)) ∧
    (r.wide = true → s.Serves m off.toNat → s.lockHolds off.toNat = false →
      Completes c s fun t => t = { s.begun m with latch := Cells.set {} (s.begun m).latch m.idx { wr := some (off.toNat, val.toNat) } }) ∧
    (m ≠ .warden → ¬ (m = .m3 ∧ 0x380000 ≤ off.toNat) → s.Admits m off.toNat → (engOf off.toNat).any s.engRuns = false → s.owns m = false →
      Completes c s fun t => t = (s.begun m).errComp m .nonowner off.toNat) ∧
    ∀ n, m ≠ .warden → r.wide = false → s.Admits m off.toNat → (engOf off.toNat).any s.engRuns = false → s.owns m = true → s.txnHolder off.toNat = some n →
      (s.get R.TXN_S_STAT_STATE n = 1 → s.staged.length < 256 → Completes c s fun t => t.get R.TXN_S_STAT_COUNT n = (s.get R.TXN_S_STAT_COUNT n + 1) % 2 ^ R.TXN_S_STAT_COUNT.w ∧
        SameRegs s t [R.TXN_S_STAT_COUNT.key n 0] ∧ t = { s.begun m with regs := t.regs, staged := s.staged ++ [{ slot := n, off := off.toNat, val := val.toNat, wide := false }] }) ∧
      (s.get R.TXN_S_STAT_STATE n = 1 → 256 ≤ s.staged.length → Completes c s fun t => t.get R.TXN_S_STAT_STATE n = 3 ∧ t.get R.TXN_S_STAT_REASON n = 6 ∧ t.staged = s.staged) ∧
      (s.get R.TXN_S_STAT_STATE n = 2 → Completes c s fun t => t = (s.begun m).errComp m .txnHeld off.toNat)) ∧
  (∀ (s : State) (m : Master) (off : BitVec 25) (val : Word) (e : BusEnv) (r : Reg) (i k : Nat), 4 ≤ off.toNat → findReg (off.toNat - 4) = some (r, i, k) → findReg off.toNat = none →
    r.off ∉ actingOffs → r.wide = true → s.Serves m off.toNat → s.lockHolds (off.toNat - 4) = false →
    let held := (Cells.get {} s.latch m.idx).wr
    (∀ lo < 2 ^ 32, held = some (off.toNat - 4, lo) → Completes (.registerWrite m off 4 val e) s fun t => Written (s.begun m) t r i k (val.toNat * 2 ^ 32 + lo)) ∧
    ((∀ h, held = some h → h.1 ≠ off.toNat - 4) → Completes (.registerWrite m off 4 val e) s fun t =>
      Written (s.begun m) t r i k (val.toNat * 2 ^ 32 + s.regWord r i k % 2 ^ 32))) ∧
  (∀ (s : State) (m : Master) (off : BitVec 25) (size : Fin 9) (val : Word) (e : BusEnv), off.toNat < 0x1800000 → ¬ (0x38F000 ≤ off.toNat ∧ off.toNat < 0x38F014) → s.Admits m off.toNat →
    (size.val ≠ 4 ∨ off.toNat % 4 ≠ 0 → Completes (.registerWrite m off size val e) s fun t => t = (s.begun m).errComp m .unaligned off.toNat) ∧
    (0x20000 ≤ off.toNat → off.toNat < 0x100000 → off.toNat % 4 = 0 → s.txnHolder off.toNat = none → Completes (.registerWrite m off 4 val e) s fun t => t = s.begun m)) ∧
  ∀ (s : State) (m : Master), s.Serves m 0x900000 →
    (s.isDie0 = false → Completes (.chlRollreq m) s fun t => t = s.begun m) ∧
    (s.isDie0 = true → Completes (.chlRollreq m) s fun t => t.get R.CHL_STAT_ROLLBUSY = 1 ∧ SameRegs s t [R.CHL_STAT_ROLLBUSY.key 0 0] ∧ t = { s.begun m with regs := t.regs })

/-- The chain window (R25 to R27), BAR4 (R458 to R460, R492), DAPREG (R674), and the apply (R485). -/
def Obligations.WindowsAperturesDebugPortAndApply : Prop :=
  (∀ (s : State) (m : Master) (w : BitVec 23) (size : Fin 9) (val : Word) (e : BusEnv), m = .m0 ∨ m = .m2 → s.get R.BOOT_STAT_PHASE = 3 → s.get R.PWR_STAT_STATE = 0 → s.domLive 0 = true →
    let rd := Instr.rwinWindowAccess m w size false val e
    let wr := Instr.rwinWindowAccess m w size true val e
    let d := s.get R.CHIP_RWIN_DIE
    let x := s.get R.CHIP_RWIN_SEG * 0x800000 + w.toNat
    let b := s.begun m
    (s.isDie0 = false ∨ s.get R.CHIP_RWIN_EN = 0 ∨ s.get R.CHIP_RWIN_SEG = 3 →
      Completes rd s (fun t => t = b.emit (.reply true 0)) ∧ Completes wr s fun t => t = b) ∧
    (s.isDie0 = true → s.flag R.CHIP_RWIN_EN = true → s.get R.CHIP_RWIN_SEG < 3 →
      (d = 0 → Completes rd s (fun t => t = ((b.regRead .m1 x size).2.set R.CHIP_RWIN_ERR 0).emit (.reply true (b.regRead .m1 x size).1)) ∧
        Completes wr s fun t => ∃ u, exec (.registerWrite .m1 (.ofNat 25 x) size val e) b = .next u ∧ t = u.setB R.CHIP_RWIN_ERR u.busErr) ∧
      (d ≠ 0 → size.val = 4 → w.toNat % 4 = 0 → s.mgmtReach d = false →
        Completes rd s (fun t => t.get R.CHIP_RWIN_ERR = 1 ∧ t.out = s.out ++ [.reply true (2 ^ 32 - 1)] ∧ t.get R.CHIP_ECNT_COUNT = min (s.get R.CHIP_ECNT_COUNT + 1) (2 ^ R.CHIP_ECNT_COUNT.w - 1) ∧
          t = { b with regs := t.regs, fresh := t.fresh, out := t.out }) ∧
        Completes wr s fun t => t.get R.CHIP_RWIN_ERR = 1 ∧ t = { b with regs := t.regs, fresh := t.fresh }) ∧
      (d ≠ 0 → size.val = 4 → w.toNat % 4 = 0 → s.mgmtReach d = true → s.get R.CHLP_STAT_STATE (s.portTo d) = 5 →
        Completes rd s (fun t => t.chl.win = s.chl.win ++ [(d, false, m.idx)] ∧ Answered s t (s.portTo d) 0x20 d 0 0 (5 + 65536 * x) (List.replicate 128 0) ∧
          t = { b with chl := t.chl, out := t.out }) ∧
        Completes wr s fun t => t.chl.win = s.chl.win ++ [(d, true, m.idx)] ∧
          Answered s t (s.portTo d) 0x20 d 0 0 (5 + 65536 * (x + 2 ^ 25)) (flitPad (toBytes 4 val.toNat)) ∧ t = { b with chl := t.chl, out := t.out }))) ∧
  (∀ s : State, (s.chl.win = [] → Completes .rwinForwardTimeout s fun t => t = s) ∧
    ∀ w l, s.chl.win = w :: l → Completes .rwinForwardTimeout s fun t => t.chl.win = l ∧ t.get R.CHIP_RWIN_ERR = 1 ∧
      (w.2.2 = 2 → t.jtag.dapStat = 2 ∧ (w.2.1 = false → t.jtag.dapData = 2 ^ 32 - 1)) ∧ (w.2.2 ≠ 2 → w.2.1 = false → t.out = s.out ++ [.reply true (2 ^ 32 - 1)]) ∧
      t = { s with regs := t.regs, chl := { s.chl with win := l }, jtag := t.jtag, fresh := t.fresh, out := t.out }) ∧
  (∀ (s : State) (m : Master) (n : Fin 16) (val : DWord) (e : BusEnv), s.Serves m (0x1104 + 8 * n) →
    let c := Instr.hifApertureResolve m n val e
    let addr := val.toNat % 2 ^ 28
    let h := val.toNat / 2 ^ 32
    let ro := val.toNat.testBit 29
    let mode := val.toNat / 2 ^ 30 % 4
    let entry (t : State) := t.ap.lookup n.val
    let frame (t : State) := t = { s.begun m with regs := t.regs, ap := t.ap } ∧ t.get R.HIF_AP_ADDR n = addr ∧ t.get R.HIF_AP_HANDLE n = h ∧ t.get R.HIF_AP_WRO n = b2n ro ∧
      SameRegs s t [R.HIF_AP_ADDR.key n 0, R.HIF_AP_HANDLE.key n 0, R.HIF_AP_MODE.key n 0, R.HIF_AP_WRO.key n 0, R.HIF_STAT_APERR.key 0 0] ∧
      ∀ k, k ≠ n.val → t.ap.lookup k = s.ap.lookup k
    (mode = 0 ∨ mode = 3 → Completes c s fun t => frame t ∧ entry t = none ∧ t.get R.HIF_AP_MODE n = mode) ∧
    (mode = 1 → Completes c s fun t => frame t ∧ entry t = some { base := addr * 65536, limit := 2 ^ 24, ro } ∧ t.get R.HIF_AP_MODE n = 1) ∧
    (mode = 2 → (s.begun m).objCheck 3 h = 0 → hDie h = s.die →
      let base := bitsOf (s.recNat 3 (hIdx h) 0 4) 0 25
      let size := bitsOf (s.recNat 3 (hIdx h) 4 4) 0 20
      let w := s.recNat 3 (hIdx h) 8 4
      let no (k : Nat) (t : State) := frame t ∧ entry t = none ∧ t.get R.HIF_AP_MODE n = 0 ∧ t.get R.HIF_STAT_APERR = k
      (bitB w 22 = false → Completes c s (no 4)) ∧ (bitB w 22 = true → size ≤ addr → Completes c s (no 5)) ∧
      (bitB w 22 = true → addr < size → Completes c s fun t => frame t ∧
        entry t = some { base := s.die * 2 ^ 41 + (base + addr) * 65536, limit := min (2 ^ 24) ((size - addr) * 65536), ro := ro || bitB w 23 } ∧ t.get R.HIF_AP_MODE n = 2)) ∧
    (mode = 2 → (s.begun m).objCheck 3 h ≠ 0 → Completes c s fun t => frame t ∧ entry t = none ∧ t.get R.HIF_AP_MODE n = 0 ∧
      t.get R.HIF_STAT_APERR = (s.begun m).objCheck 3 h % 2 ^ R.HIF_STAT_APERR.w)) ∧
  (∀ (s : State) (off : BitVec 28) (n : BitVec 13) (data : List Byte) (poison : Bool) (op : Fin 3) (w64 : Bool) (b c : DWord), s.hostOpen = true → s.get R.BOOT_STAT_PHASE = 3 →
    s.get R.PWR_STAT_STATE = 0 → s.domLive 0 = true →
    let at_ := off.toNat % 2 ^ 24
    let hit := s.ap.lookup (off.toNat / 2 ^ 24)
    let rd := Instr.bar4Access off false n data poison
    let wr := Instr.bar4Access off true n data poison
    let logged (t : State) := t.get R.CHIP_ECNT_COUNT = min (s.get R.CHIP_ECNT_COUNT + 1) (2 ^ R.CHIP_ECNT_COUNT.w - 1) ∧ (s.get R.CHIP_ELOG_VALID = 0 →
      t.get R.CHIP_ELOG_VALID = 1 ∧ t.get R.CHIP_ELOG_BAR = 1 ∧ t.get R.CHIP_ELOG_KIND = ElogKind.aperture.code ∧ t.get R.CHIP_ELOG_ADDR_OFFSET = off.toNat % 2 ^ R.CHIP_ELOG_ADDR_OFFSET.w)
    ((hit = none ∨ ∃ x, hit = some x ∧ x.limit < at_ + n.toNat) → Completes rd s fun t => logged t ∧ t.out = s.out ++ [.reply true (2 ^ (8 * n.toNat) - 1)] ∧ t = { s with regs := t.regs, out := t.out }) ∧
    ((hit = none ∨ ∃ x, hit = some x ∧ (x.limit < at_ + data.length ∨ x.ro = true)) → Completes wr s fun t => logged t ∧ t = { s with regs := t.regs }) ∧
    ((hit = none ∨ ∃ x, hit = some x ∧ (x.limit < at_ + (if w64 then 8 else 4) ∨ x.ro = true)) → Completes (.bar4Atomicop off op w64 b c) s fun t => logged t ∧
      t = { s with regs := t.regs, fresh := t.fresh, out := t.out }) ∧
    ∀ x a, hit = some x → s.dpaLoc (x.base + at_) = .loc a → s.locStatus (.loc a) = .ok → s.NoPoison →
      (at_ + n.toNat ≤ x.limit → Completes rd s fun t => t.out = s.out ++ [.reply true (ofBytes (bytesAt 0 s.mem a n.toNat))] ∧
        t = { s with regs := t.regs, sin := t.sin, fresh := t.fresh, out := t.out }) ∧
      (at_ + data.length ≤ x.limit → x.ro = false → poison = true → Completes wr s fun t => t = s) ∧
      (at_ + data.length ≤ x.limit → x.ro = false → poison = false → Completes wr s fun t =>
        (∀ y, byteAt 0 t.mem y = if a ≤ y ∧ y < a + data.length then (data.getD (y - a) 0).toNat else byteAt 0 s.mem y) ∧
        t = { s with regs := t.regs, sin := t.sin, fresh := t.fresh, mem := t.mem }) ∧
      (at_ + (if w64 then 8 else 4) ≤ x.limit → x.ro = false → Completes (.bar4Atomicop off op w64 b c) s fun t =>
        let sz := if w64 then 8 else 4
        let old := ofBytes (bytesAt 0 s.mem a sz)
        let new := match op.val with | 0 => (old + b.toNat) % 2 ^ (8 * sz) | 1 => b.toNat % 2 ^ (8 * sz) | _ => if old = c.toNat % 2 ^ (8 * sz) then b.toNat % 2 ^ (8 * sz) else old
        t.out = s.out ++ [.reply true old] ∧ ofBytes (bytesAt 0 t.mem a sz) = new ∧ (∀ y, y < a ∨ a + sz ≤ y → byteAt 0 t.mem y = byteAt 0 s.mem y) ∧
        t = { s with regs := t.regs, sin := t.sin, fresh := t.fresh, mem := t.mem, out := t.out })) ∧
  (∀ (s : State) (off data : Word) (e : BusEnv), s.tapLive = true → s.get R.BOOT_PROF_DBG ≤ 1 →
    let x := off.toNat % 2 ^ 25
    let u := (({ s with jtag := { s.jtag with ir := 8, drive := 0 } } : State).padDriven s).emit (.tdo (s.jtag.dapStat * 2 ^ 64 + s.jtag.dapData * 2 ^ 32 + s.jtag.dapOff))
    let v := { u with jtag := { u.jtag with dapOff := x } }
    let c := [Instr.dapregRead off e, .dapregWrite off data e]
    (s.jtag.dapStat = 1 → ∀ i ∈ c, Completes i s fun t => t = u) ∧
    (s.jtag.dapStat ≠ 1 → s.domOn 0 = false ∨ s.rst.asserted.isSome = true → ∀ i ∈ c, Completes i s fun t => t = { v with jtag := { v.jtag with dapStat := 3 } }) ∧
    (s.jtag.dapStat ≠ 1 → s.domOn 0 = true → s.rst.asserted = none → x < 0x1800000 →
      (let r := v.regRead .m2 x 4
       Completes (.dapregRead off e) s fun t => t = { r.2 with jtag := { r.2.jtag with dapStat := 2, dapData := r.1 } }) ∧
      Completes (.dapregWrite off data e) s fun t => ∃ w, exec (.registerWrite .m2 (.ofNat 25 x) 4 data e) v = .next w ∧
        t = { w with jtag := { w.jtag with dapStat := if w.busErr then 3 else 2 } })) ∧
  ∀ (s : State) (n : Fin 4) (e : BusEnv),
    let c := Instr.txnBoundaryApply n e
    let mine := s.staged.filter fun x => x.slot == n.val
    (s.get R.TXN_S_STAT_STATE n ≠ 2 ∨ s.txnDue n = false → Completes c s fun t => t = s) ∧
    (s.get R.TXN_S_STAT_STATE n = 2 → s.txnDue n = true → s.get R.PWR_STAT_STATE = 0 →
      (mine = [] → Completes c s fun t => SlotEnded s t n 1 ∧ t = { s with regs := t.regs, raw := t.raw, busErr := false, txn := t.txn, staged := t.staged, chl := t.chl, out := t.out }) ∧
      (∀ x l, mine = x :: l → s.txnRefuses x e = true → Completes c s fun t => SlotEnded s t n 5 ∧ t.get R.TXN_S_STAT_FAILIDX n = 0 ∧
        t = { s with regs := t.regs, raw := t.raw, txn := t.txn, staged := t.staged, chl := t.chl, out := t.out }) ∧
      ∀ x r i k, mine = [x] → x.wide = false → findReg x.off = some (r, i, k) → r.off ∉ actingOffs → 0x200000 ≤ x.off → (x.off < 0xF00000 ∨ 0x1000000 ≤ x.off) →
        (domOf x.off).all s.domLive = true → (engOf x.off).any s.engRuns = false → s.Unlocked x.off r i k x.val →
        Completes c s fun t => SlotEnded s t n 1 ∧ (∀ f ∈ r.fields, f.Follows (s.get f i k) x.val (t.get f i k)) ∧
          t = { s with regs := t.regs, raw := t.raw, busErr := false, txn := t.txn, staged := t.staged, chl := t.chl, out := t.out })

/-- The queue is served in order; an empty queue ticks (log entry 20, DESIGN CHOICE), by R505 where TBASE stands still. -/
def Obligations.StepRunsFrontCommand : Prop :=
  (∀ (c : Instr) (l : List Instr) (s : State), step { s with pending := c :: l } = exec c { s with pending := l }) ∧
  (∀ s : State, s.pending = [] →
    (s.rst.asserted ≠ none ∨ 3 ≤ s.get R.PWR_STAT_STATE ∨ s.get R.CRU_RPLL_STAT_LOCK = 0 → step s = .next s) ∧
    (s.rst.asserted = none → s.get R.PWR_STAT_STATE < 3 → s.get R.CRU_RPLL_STAT_LOCK ≠ 0 → s.cru.holdTo = none →
      ∃ t, step s = .next t ∧ t.get R.CRU_TB_NOW_TBASE = (s.get R.CRU_TB_NOW_TBASE + 1) % 2 ^ 64 ∧ t.mem = s.mem ∧ t.pending = []))

/-- The machine under power-on reset (R17, R18, R661). -/
def Obligations.ResetLeavesResetValues : Prop :=
  (∀ (f : Field) (i k : Nat), f.rstAt i k < 2 ^ 64 → State.reset.get f i k = f.rstAt i k) ∧
  State.reset.get R.CHIP_ID_PART = 0xC016 ∧ State.reset.get R.OWN_STAT_STATE = 1 ∧ State.reset.get R.CRU_ECLK_REQ_STEP = 7 ∧ State.reset.get R.CRU_ECLK_STAT_CUR = 7 ∧
  State.reset.get R.CRU_TB_CFG_STEPTHR = 100 ∧ State.reset.get R.CRU_TB_NOW_TBASE = 0 ∧ State.reset.get R.PWR_STAT_STATE = 0 ∧ State.reset.get R.PWR_CAP_BURST = 0xFFFF ∧
  State.reset.get R.DTU_CTL_SLOTMAX = 64 ∧ State.reset.get R.SIN_CTL_RMT_WAYS = 8 ∧ State.reset.get R.CHL_TMO_HOLD = 20 ∧ State.reset.get R.CHL_TMO_REQ = 40 ∧
  State.reset.get R.CHL_TMO_CREDIT = 10 ∧ State.reset.get R.CHL_TMO_RTLIM = 8 ∧ State.reset.get R.WDT_S1TMO_N = 0x9000 ∧ State.reset.get R.WDT_S2TMO_N = 0x1000 ∧
  (∀ c < 2, State.reset.get R.DCO_C_PXDIV_DIV c = 0xD5555) ∧ (∀ p < 4, State.reset.get R.CIF_P_PHY_RATE p = 250) ∧ State.reset.get R.TXN_CFG_TMO = 100 ∧
  (∀ n < 4, State.reset.get R.TXN_S_STAT_FAILIDX n = 0x1FF) ∧ (∀ e < 16, State.reset.get R.EMB_CTL_REPACK_MIN e = 16 ∧ State.reset.get R.EMB_CTL_REPACK_EN e = 1 ∧
    State.reset.get R.TPH_SEED_STATE e = 0x9E3779B97F4A7C15) ∧
  State.reset.Canonical ∧ State.reset.pending = [] ∧ State.reset.out = [] ∧ State.reset.staged = [] ∧ State.reset.flt.staged = [] ∧ State.reset.sin.lines = [] ∧
  State.reset.wsp.win = [] ∧ State.reset.chl.req = [] ∧ State.reset.emb = [] ∧ State.reset.mem = [] ∧ State.reset.flash = [] ∧ State.reset.ao = [] ∧
  State.reset.rst.asserted = some .por

/-- Equal storage contents stay equal data, and no command touches the queue: an invariant of every step. -/
def Obligations.EveryStepKeepsStorageAndQueue : Prop :=
  ∀ s t : State, s.Canonical → step s = .next t → t.Canonical ∧ t.pending = s.pending.tail
end

