-- ==== Sys2Proof/Laws/Cells.lean ====
section
/-!
SUPPORT. The laws of sparse data: reading after writing, and the canonical form kept.
-/

namespace Sys2Proof.Machine.Cells

variable {α : Type}

/-! ## Reading after writing, for any list -/

@[simp] theorem get_nil (d : α) (k : Nat) : get d [] k = d := rfl

theorem get_cons (d : α) (a : Nat) (v : α) (l : List (Nat × α)) (k : Nat) :
    get d ((a, v) :: l) k = if a = k then v else get d l k := rfl

@[simp] theorem get_del_same (d : α) (l : List (Nat × α)) (k : Nat) : get d (del l k) k = d := by
  induction l with
  | nil => rfl
  | cons c l ih =>
    obtain ⟨a, v⟩ := c
    by_cases h : a = k
    · simp [del, h, ih]
    · simp [del, h, get_cons, ih]

theorem get_del_ne (d : α) (l : List (Nat × α)) {k j : Nat} (h : j ≠ k) : get d (del l k) j = get d l j := by
  induction l with
  | nil => rfl
  | cons c l ih =>
    obtain ⟨a, v⟩ := c
    by_cases e : a = k
    · subst e; simp [del, get_cons, ih, Ne.symm h]
    · simp [del, e, get_cons, ih]

@[simp] theorem get_put_same (d : α) (l : List (Nat × α)) (k : Nat) (x : α) : get d (put l k x) k = x := by
  induction l with
  | nil => simp [put, get_cons]
  | cons c l ih =>
    obtain ⟨a, v⟩ := c
    simp only [put]
    split
    · simp [get_cons]
    · split
      · simp [get_cons]
      · simp [get_cons, *]

theorem get_put_ne (d : α) (l : List (Nat × α)) {k j : Nat} (x : α) (h : j ≠ k) : get d (put l k x) j = get d l j := by
  induction l with
  | nil => simp [put, get_cons, Ne.symm h]
  | cons c l ih =>
    obtain ⟨a, v⟩ := c
    simp only [put]
    split
    · simp [get_cons, Ne.symm h]
    · split
      · rename_i e; subst e; simp [get_cons, Ne.symm h]
      · simp [get_cons, ih]

@[simp] theorem get_set_same [DecidableEq α] (d : α) (l : List (Nat × α)) (k : Nat) (x : α) :
    get d (set d l k x) k = x := by
  unfold set
  split
  · simp [*]
  · simp

theorem get_set_ne [DecidableEq α] (d d' : α) (l : List (Nat × α)) {k j : Nat} (x : α) (h : j ≠ k) :
    get d' (set d l k x) j = get d' l j := by
  unfold set
  split
  · exact get_del_ne d' l h
  · exact get_put_ne d' l x h

/-! ## Keys of a written list -/

theorem mem_del {l : List (Nat × α)} {k : Nat} {c : Nat × α} (h : c ∈ del l k) : c ∈ l := by
  induction l with
  | nil => exact h
  | cons b l ih =>
    obtain ⟨a, v⟩ := b
    simp only [del] at h
    split at h
    · exact List.mem_cons_of_mem _ (ih h)
    · rcases List.mem_cons.1 h with rfl | h
      · exact List.mem_cons_self
      · exact List.mem_cons_of_mem _ (ih h)

theorem mem_put {l : List (Nat × α)} {k : Nat} {x : α} {c : Nat × α} (h : c ∈ put l k x) : c = (k, x) ∨ c ∈ l := by
  induction l with
  | nil => simp [put] at h; exact .inl h
  | cons b l ih =>
    obtain ⟨a, v⟩ := b
    simp only [put] at h
    split at h
    · simpa using h
    · split at h
      · rcases List.mem_cons.1 h with rfl | h
        · exact .inl rfl
        · exact .inr (List.mem_cons_of_mem _ h)
      · rcases List.mem_cons.1 h with rfl | h
        · exact .inr List.mem_cons_self
        · rcases ih h with h | h
          · exact .inl h
          · exact .inr (List.mem_cons_of_mem _ h)

/-! ## The canonical form -/

theorem risingFrom_weaken {l : List (Nat × α)} {b c : Nat} (h : b ≤ c) (r : risingFrom c l = true) : risingFrom b l = true := by
  cases l with
  | nil => rfl
  | cons x l =>
    obtain ⟨a, v⟩ := x
    simp only [risingFrom, Bool.and_eq_true, decide_eq_true_eq] at r ⊢
    exact ⟨by omega, r.2⟩

theorem risingFrom_del {l : List (Nat × α)} {b k : Nat} (r : risingFrom b l = true) : risingFrom b (del l k) = true := by
  induction l generalizing b with
  | nil => rfl
  | cons x l ih =>
    obtain ⟨a, v⟩ := x
    simp only [risingFrom, Bool.and_eq_true, decide_eq_true_eq] at r
    simp only [del]
    split
    · exact ih (risingFrom_weaken (by omega) r.2)
    · simp only [risingFrom, Bool.and_eq_true, decide_eq_true_eq]
      exact ⟨r.1, ih r.2⟩

theorem risingFrom_put {l : List (Nat × α)} {b k : Nat} {x : α} (h : b < k) (r : risingFrom b l = true) :
    risingFrom b (put l k x) = true := by
  induction l generalizing b with
  | nil => simp [put, risingFrom, h]
  | cons c l ih =>
    obtain ⟨a, v⟩ := c
    simp only [risingFrom, Bool.and_eq_true, decide_eq_true_eq] at r
    simp only [put]
    split
    · simp [risingFrom, *]
    · split
      · rename_i e; subst e; simpa [risingFrom, h] using r.2
      · simp only [risingFrom, Bool.and_eq_true, decide_eq_true_eq]
        exact ⟨r.1, ih (by omega) r.2⟩

theorem rising_of_risingFrom {l : List (Nat × α)} {b : Nat} (r : risingFrom b l = true) : rising l = true := by
  cases l with
  | nil => rfl
  | cons x l =>
    obtain ⟨a, v⟩ := x
    simp only [risingFrom, Bool.and_eq_true] at r
    exact r.2

theorem rising_del {l : List (Nat × α)} {k : Nat} (r : rising l = true) : rising (del l k) = true := by
  cases l with
  | nil => rfl
  | cons x l =>
    obtain ⟨a, v⟩ := x
    simp only [rising] at r
    simp only [del]
    split
    · exact rising_of_risingFrom (risingFrom_del r)
    · exact risingFrom_del r

theorem rising_put {l : List (Nat × α)} {k : Nat} {x : α} (r : rising l = true) : rising (put l k x) = true := by
  cases l with
  | nil => rfl
  | cons c l =>
    obtain ⟨a, v⟩ := c
    simp only [rising] at r
    simp only [put]
    split
    · simp [rising, risingFrom, *]
    · split
      · rename_i e; subst e; exact r
      · exact risingFrom_put (by omega) r

/-- A write keeps the canonical form. -/
theorem wf_set [DecidableEq α] {d : α} {l : List (Nat × α)} (k : Nat) (x : α) (h : wf d l = true) :
    wf d (set d l k x) = true := by
  simp only [wf, Bool.and_eq_true, List.all_eq_true, decide_eq_true_eq] at h ⊢
  unfold set
  split
  · exact ⟨rising_del h.1, fun c hc => h.2 c (mem_del hc)⟩
  · rename_i hx
    refine ⟨rising_put h.1, fun c hc => ?_⟩
    rcases mem_put hc with rfl | hc
    · exact hx
    · exact h.2 c hc

theorem risingFrom_filter (p : Nat × α → Bool) {l : List (Nat × α)} {b : Nat} (r : risingFrom b l = true) :
    risingFrom b (l.filter p) = true := by
  induction l generalizing b with
  | nil => rfl
  | cons c l ih =>
    obtain ⟨a, v⟩ := c
    simp only [risingFrom, Bool.and_eq_true, decide_eq_true_eq] at r
    simp only [List.filter_cons]
    split
    · simp only [risingFrom, Bool.and_eq_true, decide_eq_true_eq]
      exact ⟨r.1, ih r.2⟩
    · exact ih (risingFrom_weaken (by omega) r.2)

theorem rising_filter (p : Nat × α → Bool) {l : List (Nat × α)} (r : rising l = true) : rising (l.filter p) = true := by
  cases l with
  | nil => rfl
  | cons c l =>
    obtain ⟨a, v⟩ := c
    simp only [rising] at r
    simp only [List.filter_cons]
    split
    · exact risingFrom_filter p r
    · exact rising_of_risingFrom (risingFrom_filter p r)

/-- Removing entries keeps the canonical form. -/
theorem wf_filter [DecidableEq α] {d : α} {l : List (Nat × α)} (p : Nat × α → Bool) (h : wf d l = true) :
    wf d (l.filter p) = true := by
  simp only [wf, Bool.and_eq_true, List.all_eq_true, decide_eq_true_eq] at h ⊢
  exact ⟨rising_filter p h.1, fun c hc => h.2 c (List.mem_filter.1 hc).1⟩

@[simp] theorem wf_nil [DecidableEq α] (d : α) : wf d ([] : List (Nat × α)) = true := rfl

end Sys2Proof.Machine.Cells
end

