-- ==== Sys2Proof/Laws/Memory.lean ====
section
/-!
SUPPORT. Reading bytes after writing them, and that every memory operation keeps the canonical form.
-/

namespace Sys2Proof.Machine

/-! ## One byte -/

theorem byteAt_putByte_same (d : Nat) (l : List Host.Cell) (a v : Nat) : byteAt d (putByte d l a v) a = v % 256 := by
  show (Cells.get _ (Cells.set _ l a _) a).toNat = _
  rw [Cells.get_set_same, BitVec.toNat_ofNat]

theorem byteAt_putByte_ne (d : Nat) (l : List Host.Cell) {a b : Nat} (v : Nat) (h : b ≠ a) :
    byteAt d (putByte d l a v) b = byteAt d l b := by
  show (Cells.get _ (Cells.set _ l a _) b).toNat = _
  rw [Cells.get_set_ne _ _ _ _ h]; rfl

theorem byteAt_lt (d : Nat) (l : List Host.Cell) (a : Nat) : byteAt d l a < 256 := (Cells.get _ l a).isLt

/-! ## A run of bytes -/

/-- After a store of bytes from `a` up, each address in the run holds its byte and every other address what it held. -/
theorem byteAt_putBytes (d : Nat) (l : List Host.Cell) (a x : Nat) (bs : List Nat) :
    byteAt d (putBytes d l a bs) x = if a ≤ x ∧ x < a + bs.length then bs.getD (x - a) 0 % 256 else byteAt d l x := by
  induction bs generalizing l a with
  | nil => simp [putBytes, show ¬ (a ≤ x ∧ x < a) by omega]
  | cons b bs ih =>
    rw [putBytes, ih]
    by_cases e : x = a
    · subst e
      simp [byteAt_putByte_same, show ¬ (x + 1 ≤ x) by omega]
    · by_cases h : a + 1 ≤ x ∧ x < a + 1 + bs.length
      · rw [if_pos h, if_pos (by simp; omega), show x - a = (x - (a + 1)) + 1 by omega, List.getD_cons_succ]
      · rw [if_neg h, if_neg (by simp; omega), byteAt_putByte_ne _ _ _ e]

theorem length_bytesAt (d : Nat) (l : List Host.Cell) (a n : Nat) : (bytesAt d l a n).length = n := by
  induction n generalizing a with
  | zero => rfl
  | succ n ih => simp [bytesAt, ih]

theorem getD_bytesAt (d : Nat) (l : List Host.Cell) (a n i : Nat) (h : i < n) : (bytesAt d l a n).getD i 0 = byteAt d l (a + i) := by
  induction n generalizing a i with
  | zero => omega
  | succ n ih =>
    cases i with
    | zero => simp [bytesAt]
    | succ i => rw [bytesAt, List.getD_cons_succ, ih _ _ (by omega)]; congr 1; omega

/-- Bytes that a store does not touch read as before. -/
theorem bytesAt_putBytes_off (d : Nat) (l : List Host.Cell) (a b n : Nat) (bs : List Nat) (h : b + n ≤ a ∨ a + bs.length ≤ b) :
    bytesAt d (putBytes d l a bs) b n = bytesAt d l b n := by
  induction n generalizing b with
  | zero => rfl
  | succ n ih => simp only [bytesAt]; rw [byteAt_putBytes, if_neg (by omega), ih _ (by omega)]

/-! ## The canonical form -/

theorem Memory.wf_putByte {d : Nat} {l : List Host.Cell} (a v : Nat) (h : Memory.wf d l = true) : Memory.wf d (putByte d l a v) = true :=
  Cells.wf_set a _ h

theorem Memory.wf_putBytes {d : Nat} {l : List Host.Cell} (a : Nat) (bs : List Nat) (h : Memory.wf d l = true) :
    Memory.wf d (putBytes d l a bs) = true := by
  induction bs generalizing l a with
  | nil => exact h
  | cons b bs ih => exact ih _ (Memory.wf_putByte a b h)

theorem State.Canonical.memSet {s : State} (a n v : Nat) (h : s.Canonical) : (s.memSet a n v).Canonical :=
  ⟨Memory.wf_putBytes a _ h.1, h.2⟩

theorem State.Canonical.aoPut {s : State} (a : Nat) (bs : List Nat) (h : s.Canonical) : (s.aoPut a bs).Canonical :=
  ⟨h.1, h.2.1, Memory.wf_putBytes a bs h.2.2⟩

theorem State.Canonical.flProg {s : State} (a : Nat) (bs : List Nat) (h : s.Canonical) : (s.flProg a bs).Canonical :=
  ⟨h.1, Memory.wf_putBytes a _ h.2.1, h.2.2⟩

theorem State.Canonical.flErase {s : State} (a n : Nat) (h : s.Canonical) : (s.flErase a n).Canonical :=
  ⟨h.1, Cells.wf_filter _ h.2.1, h.2.2⟩

theorem State.Canonical.storeAt {s : State} (bs : List Nat) (a : Nat) (h : s.Canonical) : (s.storeAt (.loc a) bs).Canonical :=
  ⟨Memory.wf_putBytes a bs h.1, h.2⟩

/-- The form of a state whose stores are those of a canonical one. -/
theorem State.Canonical.of_eq {s t : State} (h : s.Canonical) (hm : t.mem = s.mem) (hf : t.flash = s.flash) (ha : t.ao = s.ao) : t.Canonical := by
  unfold State.Canonical; rw [hm, hf, ha]; exact h

theorem reset_canonical : State.reset.Canonical := ⟨rfl, rfl, rfl⟩

end Sys2Proof.Machine
end

