-- ==== Sys2Proof/Laws/Regs.lean ====
section
/-!
SUPPORT. Reading a register field after a write, and what becomes of a register write that is served.
-/

namespace Sys2Proof.Machine

theorem State.get_set_same (s : State) (f : Field) (v i k : Nat) (h : f.w ≤ 64) :
    (s.set f v i k).get f i k = v % 2 ^ f.w := by
  have : v % 2 ^ f.w < 2 ^ 64 := Nat.lt_of_lt_of_le (Nat.mod_lt _ (Nat.two_pow_pos _)) (Nat.pow_le_pow_right (by omega) h)
  show (Cells.get _ (Cells.set _ s.regs _ _) _).toNat = _
  rw [Cells.get_set_same, BitVec.toNat_ofNat, Nat.mod_eq_of_lt this]

theorem State.get_set_ne (s : State) (f g : Field) (v i k j l : Nat) (h : g.key j l ≠ f.key i k) :
    (s.set f v i k).get g j l = s.get g j l := by
  simp [State.get, State.set, Cells.get_set_ne _ _ _ _ h]

/-- A write of one field leaves every other cell. -/
theorem State.set_sameRegs (s : State) (f : Field) (v i k : Nat) : SameRegs s (s.set f v i k) [f.key i k] := by
  intro d key h
  simp only [List.mem_singleton] at h
  exact Cells.get_set_ne _ _ _ _ h

theorem SameRegs.refl (s : State) (l : List Nat) : SameRegs s s l := fun _ _ _ => rfl

theorem SameRegs.trans {s t u : State} {l : List Nat} (h : SameRegs s t l) (h' : SameRegs t u l) : SameRegs s u l :=
  fun d k hk => (h' d k hk).trans (h d k hk)

theorem SameRegs.mono {s t : State} {l l' : List Nat} (h : SameRegs s t l) (hl : ∀ k ∈ l, k ∈ l') : SameRegs s t l' :=
  fun d k hk => h d k fun hm => hk (hl k hm)

/-- What the register file shares, every field of it shows. -/
theorem SameRegs.get_eq {s t : State} {l : List Nat} (h : SameRegs s t l) (f : Field) (i k : Nat) (hf : f.key i k ∉ l) :
    t.get f i k = s.get f i k := by
  simp only [State.get, h _ _ hf]

theorem State.access_active (s : State) (m : Master) (h : s.get R.PWR_STAT_STATE = 0) : s.access m = s.begun m := by
  have : s.wakeS1 = s := by simp [State.wakeS1, h]
  cases m <;> simp [State.access, State.begun, this]

theorem State.gate_begun (s : State) (m : Master) (off : Nat) (h : s.Serves m off) : (s.begun m).gate m off = .live := by
  have e : ∀ b, (s.begun m).early m off b = false := by
    intro b
    have : (s.begun m).get R.BOOT_STAT_PHASE = 3 := h.ready
    simp [State.early, this]
  have r : (m == .m3 && !m3Reach off) = false := by
    cases m <;> simp; exact h.reach rfl
  have a : (s.begun m).domLive 0 = true := h.fabric
  have n : (engOf off).any (s.begun m).engRuns = false := h.noEng
  have d : (domOf off).any (fun d => !(s.begun m).domLive d) = false := by
    have := h.domain
    cases hd : domOf off <;> simp_all
    exact this
  have o : (s.begun m).owns m = true := h.owner
  have t : (s.begun m).txnHolder off = none := h.unheld
  simp only [State.gate, r, e, a, n, d, o, t, Bool.false_eq_true, if_false, Bool.not_true, Bool.false_and, Bool.true_or]
  split <;> rfl

/-- A served write does what it does live. -/
theorem State.gated_serves (s : State) (m : Master) (off : Nat) (act : Option Nat → State → State) (h : s.Serves m off) :
    s.gated m off act = act none (s.begun m) := by
  simp only [State.gated, s.access_active m h.active, s.gate_begun m off h]

theorem State.ownerWrite_serves (s : State) (m : Master) (off val : Nat) (wide : Bool) (live : State → State)
    (h : s.Serves m off) : s.ownerWrite m off val wide live = live (s.begun m) := by
  simp only [State.ownerWrite, s.gated_serves m off _ h]

end Sys2Proof.Machine
end

