-- ==== Sys2Proof/Laws/State.lean ====
section
/-!
SUPPORT. What each basic update leaves of the state, one lemma per field: with these no proof unfolds a record update.
-/

namespace Sys2Proof.Machine

/-! ## set -/

@[simp] theorem State.set_raw (s : State) (f : Field) (v i k : Nat) : (s.set f v i k).raw = s.raw := rfl
@[simp] theorem State.set_latch (s : State) (f : Field) (v i k : Nat) : (s.set f v i k).latch = s.latch := rfl
@[simp] theorem State.set_busErr (s : State) (f : Field) (v i k : Nat) : (s.set f v i k).busErr = s.busErr := rfl
@[simp] theorem State.set_ap (s : State) (f : Field) (v i k : Nat) : (s.set f v i k).ap = s.ap := rfl
@[simp] theorem State.set_own (s : State) (f : Field) (v i k : Nat) : (s.set f v i k).own = s.own := rfl
@[simp] theorem State.set_txn (s : State) (f : Field) (v i k : Nat) : (s.set f v i k).txn = s.txn := rfl
@[simp] theorem State.set_staged (s : State) (f : Field) (v i k : Nat) : (s.set f v i k).staged = s.staged := rfl
@[simp] theorem State.set_flt (s : State) (f : Field) (v i k : Nat) : (s.set f v i k).flt = s.flt := rfl
@[simp] theorem State.set_tel (s : State) (f : Field) (v i k : Nat) : (s.set f v i k).tel = s.tel := rfl
@[simp] theorem State.set_cru (s : State) (f : Field) (v i k : Nat) : (s.set f v i k).cru = s.cru := rfl
@[simp] theorem State.set_pwr (s : State) (f : Field) (v i k : Nat) : (s.set f v i k).pwr = s.pwr := rfl
@[simp] theorem State.set_wdt (s : State) (f : Field) (v i k : Nat) : (s.set f v i k).wdt = s.wdt := rfl
@[simp] theorem State.set_boot (s : State) (f : Field) (v i k : Nat) : (s.set f v i k).boot = s.boot := rfl
@[simp] theorem State.set_jtag (s : State) (f : Field) (v i k : Nat) : (s.set f v i k).jtag = s.jtag := rfl
@[simp] theorem State.set_rst (s : State) (f : Field) (v i k : Nat) : (s.set f v i k).rst = s.rst := rfl
@[simp] theorem State.set_pad (s : State) (f : Field) (v i k : Nat) : (s.set f v i k).pad = s.pad := rfl
@[simp] theorem State.set_syn (s : State) (f : Field) (v i k : Nat) : (s.set f v i k).syn = s.syn := rfl
@[simp] theorem State.set_sin (s : State) (f : Field) (v i k : Nat) : (s.set f v i k).sin = s.sin := rfl
@[simp] theorem State.set_dtu (s : State) (f : Field) (v i k : Nat) : (s.set f v i k).dtu = s.dtu := rfl
@[simp] theorem State.set_wsp (s : State) (f : Field) (v i k : Nat) : (s.set f v i k).wsp = s.wsp := rfl
@[simp] theorem State.set_emb (s : State) (f : Field) (v i k : Nat) : (s.set f v i k).emb = s.emb := rfl
@[simp] theorem State.set_saved (s : State) (f : Field) (v i k : Nat) : (s.set f v i k).saved = s.saved := rfl
@[simp] theorem State.set_gfx (s : State) (f : Field) (v i k : Nat) : (s.set f v i k).gfx = s.gfx := rfl
@[simp] theorem State.set_dco (s : State) (f : Field) (v i k : Nat) : (s.set f v i k).dco = s.dco := rfl
@[simp] theorem State.set_cif (s : State) (f : Field) (v i k : Nat) : (s.set f v i k).cif = s.cif := rfl
@[simp] theorem State.set_fum (s : State) (f : Field) (v i k : Nat) : (s.set f v i k).fum = s.fum := rfl
@[simp] theorem State.set_chl (s : State) (f : Field) (v i k : Nat) : (s.set f v i k).chl = s.chl := rfl
@[simp] theorem State.set_mem (s : State) (f : Field) (v i k : Nat) : (s.set f v i k).mem = s.mem := rfl
@[simp] theorem State.set_flash (s : State) (f : Field) (v i k : Nat) : (s.set f v i k).flash = s.flash := rfl
@[simp] theorem State.set_ao (s : State) (f : Field) (v i k : Nat) : (s.set f v i k).ao = s.ao := rfl
@[simp] theorem State.set_out (s : State) (f : Field) (v i k : Nat) : (s.set f v i k).out = s.out := rfl
@[simp] theorem State.set_fresh (s : State) (f : Field) (v i k : Nat) : (s.set f v i k).fresh = s.fresh := rfl
@[simp] theorem State.set_pending (s : State) (f : Field) (v i k : Nat) : (s.set f v i k).pending = s.pending := rfl

/-! ## setB -/

@[simp] theorem State.setB_raw (s : State) (f : Field) (b : Bool) (i k : Nat) : (s.setB f b i k).raw = s.raw := rfl
@[simp] theorem State.setB_latch (s : State) (f : Field) (b : Bool) (i k : Nat) : (s.setB f b i k).latch = s.latch := rfl
@[simp] theorem State.setB_busErr (s : State) (f : Field) (b : Bool) (i k : Nat) : (s.setB f b i k).busErr = s.busErr := rfl
@[simp] theorem State.setB_ap (s : State) (f : Field) (b : Bool) (i k : Nat) : (s.setB f b i k).ap = s.ap := rfl
@[simp] theorem State.setB_own (s : State) (f : Field) (b : Bool) (i k : Nat) : (s.setB f b i k).own = s.own := rfl
@[simp] theorem State.setB_txn (s : State) (f : Field) (b : Bool) (i k : Nat) : (s.setB f b i k).txn = s.txn := rfl
@[simp] theorem State.setB_staged (s : State) (f : Field) (b : Bool) (i k : Nat) : (s.setB f b i k).staged = s.staged := rfl
@[simp] theorem State.setB_flt (s : State) (f : Field) (b : Bool) (i k : Nat) : (s.setB f b i k).flt = s.flt := rfl
@[simp] theorem State.setB_tel (s : State) (f : Field) (b : Bool) (i k : Nat) : (s.setB f b i k).tel = s.tel := rfl
@[simp] theorem State.setB_cru (s : State) (f : Field) (b : Bool) (i k : Nat) : (s.setB f b i k).cru = s.cru := rfl
@[simp] theorem State.setB_pwr (s : State) (f : Field) (b : Bool) (i k : Nat) : (s.setB f b i k).pwr = s.pwr := rfl
@[simp] theorem State.setB_wdt (s : State) (f : Field) (b : Bool) (i k : Nat) : (s.setB f b i k).wdt = s.wdt := rfl
@[simp] theorem State.setB_boot (s : State) (f : Field) (b : Bool) (i k : Nat) : (s.setB f b i k).boot = s.boot := rfl
@[simp] theorem State.setB_jtag (s : State) (f : Field) (b : Bool) (i k : Nat) : (s.setB f b i k).jtag = s.jtag := rfl
@[simp] theorem State.setB_rst (s : State) (f : Field) (b : Bool) (i k : Nat) : (s.setB f b i k).rst = s.rst := rfl
@[simp] theorem State.setB_pad (s : State) (f : Field) (b : Bool) (i k : Nat) : (s.setB f b i k).pad = s.pad := rfl
@[simp] theorem State.setB_syn (s : State) (f : Field) (b : Bool) (i k : Nat) : (s.setB f b i k).syn = s.syn := rfl
@[simp] theorem State.setB_sin (s : State) (f : Field) (b : Bool) (i k : Nat) : (s.setB f b i k).sin = s.sin := rfl
@[simp] theorem State.setB_dtu (s : State) (f : Field) (b : Bool) (i k : Nat) : (s.setB f b i k).dtu = s.dtu := rfl
@[simp] theorem State.setB_wsp (s : State) (f : Field) (b : Bool) (i k : Nat) : (s.setB f b i k).wsp = s.wsp := rfl
@[simp] theorem State.setB_emb (s : State) (f : Field) (b : Bool) (i k : Nat) : (s.setB f b i k).emb = s.emb := rfl
@[simp] theorem State.setB_saved (s : State) (f : Field) (b : Bool) (i k : Nat) : (s.setB f b i k).saved = s.saved := rfl
@[simp] theorem State.setB_gfx (s : State) (f : Field) (b : Bool) (i k : Nat) : (s.setB f b i k).gfx = s.gfx := rfl
@[simp] theorem State.setB_dco (s : State) (f : Field) (b : Bool) (i k : Nat) : (s.setB f b i k).dco = s.dco := rfl
@[simp] theorem State.setB_cif (s : State) (f : Field) (b : Bool) (i k : Nat) : (s.setB f b i k).cif = s.cif := rfl
@[simp] theorem State.setB_fum (s : State) (f : Field) (b : Bool) (i k : Nat) : (s.setB f b i k).fum = s.fum := rfl
@[simp] theorem State.setB_chl (s : State) (f : Field) (b : Bool) (i k : Nat) : (s.setB f b i k).chl = s.chl := rfl
@[simp] theorem State.setB_mem (s : State) (f : Field) (b : Bool) (i k : Nat) : (s.setB f b i k).mem = s.mem := rfl
@[simp] theorem State.setB_flash (s : State) (f : Field) (b : Bool) (i k : Nat) : (s.setB f b i k).flash = s.flash := rfl
@[simp] theorem State.setB_ao (s : State) (f : Field) (b : Bool) (i k : Nat) : (s.setB f b i k).ao = s.ao := rfl
@[simp] theorem State.setB_out (s : State) (f : Field) (b : Bool) (i k : Nat) : (s.setB f b i k).out = s.out := rfl
@[simp] theorem State.setB_fresh (s : State) (f : Field) (b : Bool) (i k : Nat) : (s.setB f b i k).fresh = s.fresh := rfl
@[simp] theorem State.setB_pending (s : State) (f : Field) (b : Bool) (i k : Nat) : (s.setB f b i k).pending = s.pending := rfl

/-! ## incSat -/

@[simp] theorem State.incSat_raw (s : State) (f : Field) (i k : Nat) : (s.incSat f i k).raw = s.raw := rfl
@[simp] theorem State.incSat_latch (s : State) (f : Field) (i k : Nat) : (s.incSat f i k).latch = s.latch := rfl
@[simp] theorem State.incSat_busErr (s : State) (f : Field) (i k : Nat) : (s.incSat f i k).busErr = s.busErr := rfl
@[simp] theorem State.incSat_ap (s : State) (f : Field) (i k : Nat) : (s.incSat f i k).ap = s.ap := rfl
@[simp] theorem State.incSat_own (s : State) (f : Field) (i k : Nat) : (s.incSat f i k).own = s.own := rfl
@[simp] theorem State.incSat_txn (s : State) (f : Field) (i k : Nat) : (s.incSat f i k).txn = s.txn := rfl
@[simp] theorem State.incSat_staged (s : State) (f : Field) (i k : Nat) : (s.incSat f i k).staged = s.staged := rfl
@[simp] theorem State.incSat_flt (s : State) (f : Field) (i k : Nat) : (s.incSat f i k).flt = s.flt := rfl
@[simp] theorem State.incSat_tel (s : State) (f : Field) (i k : Nat) : (s.incSat f i k).tel = s.tel := rfl
@[simp] theorem State.incSat_cru (s : State) (f : Field) (i k : Nat) : (s.incSat f i k).cru = s.cru := rfl
@[simp] theorem State.incSat_pwr (s : State) (f : Field) (i k : Nat) : (s.incSat f i k).pwr = s.pwr := rfl
@[simp] theorem State.incSat_wdt (s : State) (f : Field) (i k : Nat) : (s.incSat f i k).wdt = s.wdt := rfl
@[simp] theorem State.incSat_boot (s : State) (f : Field) (i k : Nat) : (s.incSat f i k).boot = s.boot := rfl
@[simp] theorem State.incSat_jtag (s : State) (f : Field) (i k : Nat) : (s.incSat f i k).jtag = s.jtag := rfl
@[simp] theorem State.incSat_rst (s : State) (f : Field) (i k : Nat) : (s.incSat f i k).rst = s.rst := rfl
@[simp] theorem State.incSat_pad (s : State) (f : Field) (i k : Nat) : (s.incSat f i k).pad = s.pad := rfl
@[simp] theorem State.incSat_syn (s : State) (f : Field) (i k : Nat) : (s.incSat f i k).syn = s.syn := rfl
@[simp] theorem State.incSat_sin (s : State) (f : Field) (i k : Nat) : (s.incSat f i k).sin = s.sin := rfl
@[simp] theorem State.incSat_dtu (s : State) (f : Field) (i k : Nat) : (s.incSat f i k).dtu = s.dtu := rfl
@[simp] theorem State.incSat_wsp (s : State) (f : Field) (i k : Nat) : (s.incSat f i k).wsp = s.wsp := rfl
@[simp] theorem State.incSat_emb (s : State) (f : Field) (i k : Nat) : (s.incSat f i k).emb = s.emb := rfl
@[simp] theorem State.incSat_saved (s : State) (f : Field) (i k : Nat) : (s.incSat f i k).saved = s.saved := rfl
@[simp] theorem State.incSat_gfx (s : State) (f : Field) (i k : Nat) : (s.incSat f i k).gfx = s.gfx := rfl
@[simp] theorem State.incSat_dco (s : State) (f : Field) (i k : Nat) : (s.incSat f i k).dco = s.dco := rfl
@[simp] theorem State.incSat_cif (s : State) (f : Field) (i k : Nat) : (s.incSat f i k).cif = s.cif := rfl
@[simp] theorem State.incSat_fum (s : State) (f : Field) (i k : Nat) : (s.incSat f i k).fum = s.fum := rfl
@[simp] theorem State.incSat_chl (s : State) (f : Field) (i k : Nat) : (s.incSat f i k).chl = s.chl := rfl
@[simp] theorem State.incSat_mem (s : State) (f : Field) (i k : Nat) : (s.incSat f i k).mem = s.mem := rfl
@[simp] theorem State.incSat_flash (s : State) (f : Field) (i k : Nat) : (s.incSat f i k).flash = s.flash := rfl
@[simp] theorem State.incSat_ao (s : State) (f : Field) (i k : Nat) : (s.incSat f i k).ao = s.ao := rfl
@[simp] theorem State.incSat_out (s : State) (f : Field) (i k : Nat) : (s.incSat f i k).out = s.out := rfl
@[simp] theorem State.incSat_fresh (s : State) (f : Field) (i k : Nat) : (s.incSat f i k).fresh = s.fresh := rfl
@[simp] theorem State.incSat_pending (s : State) (f : Field) (i k : Nat) : (s.incSat f i k).pending = s.pending := rfl

/-! ## addSat -/

@[simp] theorem State.addSat_raw (s : State) (f : Field) (n i k : Nat) : (s.addSat f n i k).raw = s.raw := rfl
@[simp] theorem State.addSat_latch (s : State) (f : Field) (n i k : Nat) : (s.addSat f n i k).latch = s.latch := rfl
@[simp] theorem State.addSat_busErr (s : State) (f : Field) (n i k : Nat) : (s.addSat f n i k).busErr = s.busErr := rfl
@[simp] theorem State.addSat_ap (s : State) (f : Field) (n i k : Nat) : (s.addSat f n i k).ap = s.ap := rfl
@[simp] theorem State.addSat_own (s : State) (f : Field) (n i k : Nat) : (s.addSat f n i k).own = s.own := rfl
@[simp] theorem State.addSat_txn (s : State) (f : Field) (n i k : Nat) : (s.addSat f n i k).txn = s.txn := rfl
@[simp] theorem State.addSat_staged (s : State) (f : Field) (n i k : Nat) : (s.addSat f n i k).staged = s.staged := rfl
@[simp] theorem State.addSat_flt (s : State) (f : Field) (n i k : Nat) : (s.addSat f n i k).flt = s.flt := rfl
@[simp] theorem State.addSat_tel (s : State) (f : Field) (n i k : Nat) : (s.addSat f n i k).tel = s.tel := rfl
@[simp] theorem State.addSat_cru (s : State) (f : Field) (n i k : Nat) : (s.addSat f n i k).cru = s.cru := rfl
@[simp] theorem State.addSat_pwr (s : State) (f : Field) (n i k : Nat) : (s.addSat f n i k).pwr = s.pwr := rfl
@[simp] theorem State.addSat_wdt (s : State) (f : Field) (n i k : Nat) : (s.addSat f n i k).wdt = s.wdt := rfl
@[simp] theorem State.addSat_boot (s : State) (f : Field) (n i k : Nat) : (s.addSat f n i k).boot = s.boot := rfl
@[simp] theorem State.addSat_jtag (s : State) (f : Field) (n i k : Nat) : (s.addSat f n i k).jtag = s.jtag := rfl
@[simp] theorem State.addSat_rst (s : State) (f : Field) (n i k : Nat) : (s.addSat f n i k).rst = s.rst := rfl
@[simp] theorem State.addSat_pad (s : State) (f : Field) (n i k : Nat) : (s.addSat f n i k).pad = s.pad := rfl
@[simp] theorem State.addSat_syn (s : State) (f : Field) (n i k : Nat) : (s.addSat f n i k).syn = s.syn := rfl
@[simp] theorem State.addSat_sin (s : State) (f : Field) (n i k : Nat) : (s.addSat f n i k).sin = s.sin := rfl
@[simp] theorem State.addSat_dtu (s : State) (f : Field) (n i k : Nat) : (s.addSat f n i k).dtu = s.dtu := rfl
@[simp] theorem State.addSat_wsp (s : State) (f : Field) (n i k : Nat) : (s.addSat f n i k).wsp = s.wsp := rfl
@[simp] theorem State.addSat_emb (s : State) (f : Field) (n i k : Nat) : (s.addSat f n i k).emb = s.emb := rfl
@[simp] theorem State.addSat_saved (s : State) (f : Field) (n i k : Nat) : (s.addSat f n i k).saved = s.saved := rfl
@[simp] theorem State.addSat_gfx (s : State) (f : Field) (n i k : Nat) : (s.addSat f n i k).gfx = s.gfx := rfl
@[simp] theorem State.addSat_dco (s : State) (f : Field) (n i k : Nat) : (s.addSat f n i k).dco = s.dco := rfl
@[simp] theorem State.addSat_cif (s : State) (f : Field) (n i k : Nat) : (s.addSat f n i k).cif = s.cif := rfl
@[simp] theorem State.addSat_fum (s : State) (f : Field) (n i k : Nat) : (s.addSat f n i k).fum = s.fum := rfl
@[simp] theorem State.addSat_chl (s : State) (f : Field) (n i k : Nat) : (s.addSat f n i k).chl = s.chl := rfl
@[simp] theorem State.addSat_mem (s : State) (f : Field) (n i k : Nat) : (s.addSat f n i k).mem = s.mem := rfl
@[simp] theorem State.addSat_flash (s : State) (f : Field) (n i k : Nat) : (s.addSat f n i k).flash = s.flash := rfl
@[simp] theorem State.addSat_ao (s : State) (f : Field) (n i k : Nat) : (s.addSat f n i k).ao = s.ao := rfl
@[simp] theorem State.addSat_out (s : State) (f : Field) (n i k : Nat) : (s.addSat f n i k).out = s.out := rfl
@[simp] theorem State.addSat_fresh (s : State) (f : Field) (n i k : Nat) : (s.addSat f n i k).fresh = s.fresh := rfl
@[simp] theorem State.addSat_pending (s : State) (f : Field) (n i k : Nat) : (s.addSat f n i k).pending = s.pending := rfl

/-! ## incWrap -/

@[simp] theorem State.incWrap_raw (s : State) (f : Field) (i k : Nat) : (s.incWrap f i k).raw = s.raw := rfl
@[simp] theorem State.incWrap_latch (s : State) (f : Field) (i k : Nat) : (s.incWrap f i k).latch = s.latch := rfl
@[simp] theorem State.incWrap_busErr (s : State) (f : Field) (i k : Nat) : (s.incWrap f i k).busErr = s.busErr := rfl
@[simp] theorem State.incWrap_ap (s : State) (f : Field) (i k : Nat) : (s.incWrap f i k).ap = s.ap := rfl
@[simp] theorem State.incWrap_own (s : State) (f : Field) (i k : Nat) : (s.incWrap f i k).own = s.own := rfl
@[simp] theorem State.incWrap_txn (s : State) (f : Field) (i k : Nat) : (s.incWrap f i k).txn = s.txn := rfl
@[simp] theorem State.incWrap_staged (s : State) (f : Field) (i k : Nat) : (s.incWrap f i k).staged = s.staged := rfl
@[simp] theorem State.incWrap_flt (s : State) (f : Field) (i k : Nat) : (s.incWrap f i k).flt = s.flt := rfl
@[simp] theorem State.incWrap_tel (s : State) (f : Field) (i k : Nat) : (s.incWrap f i k).tel = s.tel := rfl
@[simp] theorem State.incWrap_cru (s : State) (f : Field) (i k : Nat) : (s.incWrap f i k).cru = s.cru := rfl
@[simp] theorem State.incWrap_pwr (s : State) (f : Field) (i k : Nat) : (s.incWrap f i k).pwr = s.pwr := rfl
@[simp] theorem State.incWrap_wdt (s : State) (f : Field) (i k : Nat) : (s.incWrap f i k).wdt = s.wdt := rfl
@[simp] theorem State.incWrap_boot (s : State) (f : Field) (i k : Nat) : (s.incWrap f i k).boot = s.boot := rfl
@[simp] theorem State.incWrap_jtag (s : State) (f : Field) (i k : Nat) : (s.incWrap f i k).jtag = s.jtag := rfl
@[simp] theorem State.incWrap_rst (s : State) (f : Field) (i k : Nat) : (s.incWrap f i k).rst = s.rst := rfl
@[simp] theorem State.incWrap_pad (s : State) (f : Field) (i k : Nat) : (s.incWrap f i k).pad = s.pad := rfl
@[simp] theorem State.incWrap_syn (s : State) (f : Field) (i k : Nat) : (s.incWrap f i k).syn = s.syn := rfl
@[simp] theorem State.incWrap_sin (s : State) (f : Field) (i k : Nat) : (s.incWrap f i k).sin = s.sin := rfl
@[simp] theorem State.incWrap_dtu (s : State) (f : Field) (i k : Nat) : (s.incWrap f i k).dtu = s.dtu := rfl
@[simp] theorem State.incWrap_wsp (s : State) (f : Field) (i k : Nat) : (s.incWrap f i k).wsp = s.wsp := rfl
@[simp] theorem State.incWrap_emb (s : State) (f : Field) (i k : Nat) : (s.incWrap f i k).emb = s.emb := rfl
@[simp] theorem State.incWrap_saved (s : State) (f : Field) (i k : Nat) : (s.incWrap f i k).saved = s.saved := rfl
@[simp] theorem State.incWrap_gfx (s : State) (f : Field) (i k : Nat) : (s.incWrap f i k).gfx = s.gfx := rfl
@[simp] theorem State.incWrap_dco (s : State) (f : Field) (i k : Nat) : (s.incWrap f i k).dco = s.dco := rfl
@[simp] theorem State.incWrap_cif (s : State) (f : Field) (i k : Nat) : (s.incWrap f i k).cif = s.cif := rfl
@[simp] theorem State.incWrap_fum (s : State) (f : Field) (i k : Nat) : (s.incWrap f i k).fum = s.fum := rfl
@[simp] theorem State.incWrap_chl (s : State) (f : Field) (i k : Nat) : (s.incWrap f i k).chl = s.chl := rfl
@[simp] theorem State.incWrap_mem (s : State) (f : Field) (i k : Nat) : (s.incWrap f i k).mem = s.mem := rfl
@[simp] theorem State.incWrap_flash (s : State) (f : Field) (i k : Nat) : (s.incWrap f i k).flash = s.flash := rfl
@[simp] theorem State.incWrap_ao (s : State) (f : Field) (i k : Nat) : (s.incWrap f i k).ao = s.ao := rfl
@[simp] theorem State.incWrap_out (s : State) (f : Field) (i k : Nat) : (s.incWrap f i k).out = s.out := rfl
@[simp] theorem State.incWrap_fresh (s : State) (f : Field) (i k : Nat) : (s.incWrap f i k).fresh = s.fresh := rfl
@[simp] theorem State.incWrap_pending (s : State) (f : Field) (i k : Nat) : (s.incWrap f i k).pending = s.pending := rfl

/-! ## emit -/

@[simp] theorem State.emit_regs (s : State) (o : Out) : (s.emit o).regs = s.regs := rfl
@[simp] theorem State.emit_raw (s : State) (o : Out) : (s.emit o).raw = s.raw := rfl
@[simp] theorem State.emit_latch (s : State) (o : Out) : (s.emit o).latch = s.latch := rfl
@[simp] theorem State.emit_busErr (s : State) (o : Out) : (s.emit o).busErr = s.busErr := rfl
@[simp] theorem State.emit_ap (s : State) (o : Out) : (s.emit o).ap = s.ap := rfl
@[simp] theorem State.emit_own (s : State) (o : Out) : (s.emit o).own = s.own := rfl
@[simp] theorem State.emit_txn (s : State) (o : Out) : (s.emit o).txn = s.txn := rfl
@[simp] theorem State.emit_staged (s : State) (o : Out) : (s.emit o).staged = s.staged := rfl
@[simp] theorem State.emit_flt (s : State) (o : Out) : (s.emit o).flt = s.flt := rfl
@[simp] theorem State.emit_tel (s : State) (o : Out) : (s.emit o).tel = s.tel := rfl
@[simp] theorem State.emit_cru (s : State) (o : Out) : (s.emit o).cru = s.cru := rfl
@[simp] theorem State.emit_pwr (s : State) (o : Out) : (s.emit o).pwr = s.pwr := rfl
@[simp] theorem State.emit_wdt (s : State) (o : Out) : (s.emit o).wdt = s.wdt := rfl
@[simp] theorem State.emit_boot (s : State) (o : Out) : (s.emit o).boot = s.boot := rfl
@[simp] theorem State.emit_jtag (s : State) (o : Out) : (s.emit o).jtag = s.jtag := rfl
@[simp] theorem State.emit_rst (s : State) (o : Out) : (s.emit o).rst = s.rst := rfl
@[simp] theorem State.emit_pad (s : State) (o : Out) : (s.emit o).pad = s.pad := rfl
@[simp] theorem State.emit_syn (s : State) (o : Out) : (s.emit o).syn = s.syn := rfl
@[simp] theorem State.emit_sin (s : State) (o : Out) : (s.emit o).sin = s.sin := rfl
@[simp] theorem State.emit_dtu (s : State) (o : Out) : (s.emit o).dtu = s.dtu := rfl
@[simp] theorem State.emit_wsp (s : State) (o : Out) : (s.emit o).wsp = s.wsp := rfl
@[simp] theorem State.emit_emb (s : State) (o : Out) : (s.emit o).emb = s.emb := rfl
@[simp] theorem State.emit_saved (s : State) (o : Out) : (s.emit o).saved = s.saved := rfl
@[simp] theorem State.emit_gfx (s : State) (o : Out) : (s.emit o).gfx = s.gfx := rfl
@[simp] theorem State.emit_dco (s : State) (o : Out) : (s.emit o).dco = s.dco := rfl
@[simp] theorem State.emit_cif (s : State) (o : Out) : (s.emit o).cif = s.cif := rfl
@[simp] theorem State.emit_fum (s : State) (o : Out) : (s.emit o).fum = s.fum := rfl
@[simp] theorem State.emit_chl (s : State) (o : Out) : (s.emit o).chl = s.chl := rfl
@[simp] theorem State.emit_mem (s : State) (o : Out) : (s.emit o).mem = s.mem := rfl
@[simp] theorem State.emit_flash (s : State) (o : Out) : (s.emit o).flash = s.flash := rfl
@[simp] theorem State.emit_ao (s : State) (o : Out) : (s.emit o).ao = s.ao := rfl
@[simp] theorem State.emit_fresh (s : State) (o : Out) : (s.emit o).fresh = s.fresh := rfl
@[simp] theorem State.emit_pending (s : State) (o : Out) : (s.emit o).pending = s.pending := rfl
@[simp] theorem State.emit_get (s : State) (o : Out) (g : Field) (j l : Nat) : (s.emit o).get g j l = s.get g j l := rfl

/-! ## free -/

@[simp] theorem State.free_regs (s : State) (w : Nat) : ((s.free w).2).regs = s.regs := rfl
@[simp] theorem State.free_raw (s : State) (w : Nat) : ((s.free w).2).raw = s.raw := rfl
@[simp] theorem State.free_latch (s : State) (w : Nat) : ((s.free w).2).latch = s.latch := rfl
@[simp] theorem State.free_busErr (s : State) (w : Nat) : ((s.free w).2).busErr = s.busErr := rfl
@[simp] theorem State.free_ap (s : State) (w : Nat) : ((s.free w).2).ap = s.ap := rfl
@[simp] theorem State.free_own (s : State) (w : Nat) : ((s.free w).2).own = s.own := rfl
@[simp] theorem State.free_txn (s : State) (w : Nat) : ((s.free w).2).txn = s.txn := rfl
@[simp] theorem State.free_staged (s : State) (w : Nat) : ((s.free w).2).staged = s.staged := rfl
@[simp] theorem State.free_flt (s : State) (w : Nat) : ((s.free w).2).flt = s.flt := rfl
@[simp] theorem State.free_tel (s : State) (w : Nat) : ((s.free w).2).tel = s.tel := rfl
@[simp] theorem State.free_cru (s : State) (w : Nat) : ((s.free w).2).cru = s.cru := rfl
@[simp] theorem State.free_pwr (s : State) (w : Nat) : ((s.free w).2).pwr = s.pwr := rfl
@[simp] theorem State.free_wdt (s : State) (w : Nat) : ((s.free w).2).wdt = s.wdt := rfl
@[simp] theorem State.free_boot (s : State) (w : Nat) : ((s.free w).2).boot = s.boot := rfl
@[simp] theorem State.free_jtag (s : State) (w : Nat) : ((s.free w).2).jtag = s.jtag := rfl
@[simp] theorem State.free_rst (s : State) (w : Nat) : ((s.free w).2).rst = s.rst := rfl
@[simp] theorem State.free_pad (s : State) (w : Nat) : ((s.free w).2).pad = s.pad := rfl
@[simp] theorem State.free_syn (s : State) (w : Nat) : ((s.free w).2).syn = s.syn := rfl
@[simp] theorem State.free_sin (s : State) (w : Nat) : ((s.free w).2).sin = s.sin := rfl
@[simp] theorem State.free_dtu (s : State) (w : Nat) : ((s.free w).2).dtu = s.dtu := rfl
@[simp] theorem State.free_wsp (s : State) (w : Nat) : ((s.free w).2).wsp = s.wsp := rfl
@[simp] theorem State.free_emb (s : State) (w : Nat) : ((s.free w).2).emb = s.emb := rfl
@[simp] theorem State.free_saved (s : State) (w : Nat) : ((s.free w).2).saved = s.saved := rfl
@[simp] theorem State.free_gfx (s : State) (w : Nat) : ((s.free w).2).gfx = s.gfx := rfl
@[simp] theorem State.free_dco (s : State) (w : Nat) : ((s.free w).2).dco = s.dco := rfl
@[simp] theorem State.free_cif (s : State) (w : Nat) : ((s.free w).2).cif = s.cif := rfl
@[simp] theorem State.free_fum (s : State) (w : Nat) : ((s.free w).2).fum = s.fum := rfl
@[simp] theorem State.free_chl (s : State) (w : Nat) : ((s.free w).2).chl = s.chl := rfl
@[simp] theorem State.free_mem (s : State) (w : Nat) : ((s.free w).2).mem = s.mem := rfl
@[simp] theorem State.free_flash (s : State) (w : Nat) : ((s.free w).2).flash = s.flash := rfl
@[simp] theorem State.free_ao (s : State) (w : Nat) : ((s.free w).2).ao = s.ao := rfl
@[simp] theorem State.free_out (s : State) (w : Nat) : ((s.free w).2).out = s.out := rfl
@[simp] theorem State.free_pending (s : State) (w : Nat) : ((s.free w).2).pending = s.pending := rfl
@[simp] theorem State.free_get (s : State) (w : Nat) (g : Field) (j l : Nat) : ((s.free w).2).get g j l = s.get g j l := rfl

/-! ## chlPut -/

@[simp] theorem State.chlPut_regs (s : State) (p : Nat) (x : ChlPort) : (s.chlPut p x).regs = s.regs := rfl
@[simp] theorem State.chlPut_raw (s : State) (p : Nat) (x : ChlPort) : (s.chlPut p x).raw = s.raw := rfl
@[simp] theorem State.chlPut_latch (s : State) (p : Nat) (x : ChlPort) : (s.chlPut p x).latch = s.latch := rfl
@[simp] theorem State.chlPut_busErr (s : State) (p : Nat) (x : ChlPort) : (s.chlPut p x).busErr = s.busErr := rfl
@[simp] theorem State.chlPut_ap (s : State) (p : Nat) (x : ChlPort) : (s.chlPut p x).ap = s.ap := rfl
@[simp] theorem State.chlPut_own (s : State) (p : Nat) (x : ChlPort) : (s.chlPut p x).own = s.own := rfl
@[simp] theorem State.chlPut_txn (s : State) (p : Nat) (x : ChlPort) : (s.chlPut p x).txn = s.txn := rfl
@[simp] theorem State.chlPut_staged (s : State) (p : Nat) (x : ChlPort) : (s.chlPut p x).staged = s.staged := rfl
@[simp] theorem State.chlPut_flt (s : State) (p : Nat) (x : ChlPort) : (s.chlPut p x).flt = s.flt := rfl
@[simp] theorem State.chlPut_tel (s : State) (p : Nat) (x : ChlPort) : (s.chlPut p x).tel = s.tel := rfl
@[simp] theorem State.chlPut_cru (s : State) (p : Nat) (x : ChlPort) : (s.chlPut p x).cru = s.cru := rfl
@[simp] theorem State.chlPut_pwr (s : State) (p : Nat) (x : ChlPort) : (s.chlPut p x).pwr = s.pwr := rfl
@[simp] theorem State.chlPut_wdt (s : State) (p : Nat) (x : ChlPort) : (s.chlPut p x).wdt = s.wdt := rfl
@[simp] theorem State.chlPut_boot (s : State) (p : Nat) (x : ChlPort) : (s.chlPut p x).boot = s.boot := rfl
@[simp] theorem State.chlPut_jtag (s : State) (p : Nat) (x : ChlPort) : (s.chlPut p x).jtag = s.jtag := rfl
@[simp] theorem State.chlPut_rst (s : State) (p : Nat) (x : ChlPort) : (s.chlPut p x).rst = s.rst := rfl
@[simp] theorem State.chlPut_pad (s : State) (p : Nat) (x : ChlPort) : (s.chlPut p x).pad = s.pad := rfl
@[simp] theorem State.chlPut_syn (s : State) (p : Nat) (x : ChlPort) : (s.chlPut p x).syn = s.syn := rfl
@[simp] theorem State.chlPut_sin (s : State) (p : Nat) (x : ChlPort) : (s.chlPut p x).sin = s.sin := rfl
@[simp] theorem State.chlPut_dtu (s : State) (p : Nat) (x : ChlPort) : (s.chlPut p x).dtu = s.dtu := rfl
@[simp] theorem State.chlPut_wsp (s : State) (p : Nat) (x : ChlPort) : (s.chlPut p x).wsp = s.wsp := rfl
@[simp] theorem State.chlPut_emb (s : State) (p : Nat) (x : ChlPort) : (s.chlPut p x).emb = s.emb := rfl
@[simp] theorem State.chlPut_saved (s : State) (p : Nat) (x : ChlPort) : (s.chlPut p x).saved = s.saved := rfl
@[simp] theorem State.chlPut_gfx (s : State) (p : Nat) (x : ChlPort) : (s.chlPut p x).gfx = s.gfx := rfl
@[simp] theorem State.chlPut_dco (s : State) (p : Nat) (x : ChlPort) : (s.chlPut p x).dco = s.dco := rfl
@[simp] theorem State.chlPut_cif (s : State) (p : Nat) (x : ChlPort) : (s.chlPut p x).cif = s.cif := rfl
@[simp] theorem State.chlPut_fum (s : State) (p : Nat) (x : ChlPort) : (s.chlPut p x).fum = s.fum := rfl
@[simp] theorem State.chlPut_mem (s : State) (p : Nat) (x : ChlPort) : (s.chlPut p x).mem = s.mem := rfl
@[simp] theorem State.chlPut_flash (s : State) (p : Nat) (x : ChlPort) : (s.chlPut p x).flash = s.flash := rfl
@[simp] theorem State.chlPut_ao (s : State) (p : Nat) (x : ChlPort) : (s.chlPut p x).ao = s.ao := rfl
@[simp] theorem State.chlPut_out (s : State) (p : Nat) (x : ChlPort) : (s.chlPut p x).out = s.out := rfl
@[simp] theorem State.chlPut_fresh (s : State) (p : Nat) (x : ChlPort) : (s.chlPut p x).fresh = s.fresh := rfl
@[simp] theorem State.chlPut_pending (s : State) (p : Nat) (x : ChlPort) : (s.chlPut p x).pending = s.pending := rfl
@[simp] theorem State.chlPut_get (s : State) (p : Nat) (x : ChlPort) (g : Field) (j l : Nat) : (s.chlPut p x).get g j l = s.get g j l := rfl

/-! ## chlUpd -/

@[simp] theorem State.chlUpd_regs (s : State) (p : Nat) (f : ChlPort → ChlPort) : (s.chlUpd p f).regs = s.regs := rfl
@[simp] theorem State.chlUpd_raw (s : State) (p : Nat) (f : ChlPort → ChlPort) : (s.chlUpd p f).raw = s.raw := rfl
@[simp] theorem State.chlUpd_latch (s : State) (p : Nat) (f : ChlPort → ChlPort) : (s.chlUpd p f).latch = s.latch := rfl
@[simp] theorem State.chlUpd_busErr (s : State) (p : Nat) (f : ChlPort → ChlPort) : (s.chlUpd p f).busErr = s.busErr := rfl
@[simp] theorem State.chlUpd_ap (s : State) (p : Nat) (f : ChlPort → ChlPort) : (s.chlUpd p f).ap = s.ap := rfl
@[simp] theorem State.chlUpd_own (s : State) (p : Nat) (f : ChlPort → ChlPort) : (s.chlUpd p f).own = s.own := rfl
@[simp] theorem State.chlUpd_txn (s : State) (p : Nat) (f : ChlPort → ChlPort) : (s.chlUpd p f).txn = s.txn := rfl
@[simp] theorem State.chlUpd_staged (s : State) (p : Nat) (f : ChlPort → ChlPort) : (s.chlUpd p f).staged = s.staged := rfl
@[simp] theorem State.chlUpd_flt (s : State) (p : Nat) (f : ChlPort → ChlPort) : (s.chlUpd p f).flt = s.flt := rfl
@[simp] theorem State.chlUpd_tel (s : State) (p : Nat) (f : ChlPort → ChlPort) : (s.chlUpd p f).tel = s.tel := rfl
@[simp] theorem State.chlUpd_cru (s : State) (p : Nat) (f : ChlPort → ChlPort) : (s.chlUpd p f).cru = s.cru := rfl
@[simp] theorem State.chlUpd_pwr (s : State) (p : Nat) (f : ChlPort → ChlPort) : (s.chlUpd p f).pwr = s.pwr := rfl
@[simp] theorem State.chlUpd_wdt (s : State) (p : Nat) (f : ChlPort → ChlPort) : (s.chlUpd p f).wdt = s.wdt := rfl
@[simp] theorem State.chlUpd_boot (s : State) (p : Nat) (f : ChlPort → ChlPort) : (s.chlUpd p f).boot = s.boot := rfl
@[simp] theorem State.chlUpd_jtag (s : State) (p : Nat) (f : ChlPort → ChlPort) : (s.chlUpd p f).jtag = s.jtag := rfl
@[simp] theorem State.chlUpd_rst (s : State) (p : Nat) (f : ChlPort → ChlPort) : (s.chlUpd p f).rst = s.rst := rfl
@[simp] theorem State.chlUpd_pad (s : State) (p : Nat) (f : ChlPort → ChlPort) : (s.chlUpd p f).pad = s.pad := rfl
@[simp] theorem State.chlUpd_syn (s : State) (p : Nat) (f : ChlPort → ChlPort) : (s.chlUpd p f).syn = s.syn := rfl
@[simp] theorem State.chlUpd_sin (s : State) (p : Nat) (f : ChlPort → ChlPort) : (s.chlUpd p f).sin = s.sin := rfl
@[simp] theorem State.chlUpd_dtu (s : State) (p : Nat) (f : ChlPort → ChlPort) : (s.chlUpd p f).dtu = s.dtu := rfl
@[simp] theorem State.chlUpd_wsp (s : State) (p : Nat) (f : ChlPort → ChlPort) : (s.chlUpd p f).wsp = s.wsp := rfl
@[simp] theorem State.chlUpd_emb (s : State) (p : Nat) (f : ChlPort → ChlPort) : (s.chlUpd p f).emb = s.emb := rfl
@[simp] theorem State.chlUpd_saved (s : State) (p : Nat) (f : ChlPort → ChlPort) : (s.chlUpd p f).saved = s.saved := rfl
@[simp] theorem State.chlUpd_gfx (s : State) (p : Nat) (f : ChlPort → ChlPort) : (s.chlUpd p f).gfx = s.gfx := rfl
@[simp] theorem State.chlUpd_dco (s : State) (p : Nat) (f : ChlPort → ChlPort) : (s.chlUpd p f).dco = s.dco := rfl
@[simp] theorem State.chlUpd_cif (s : State) (p : Nat) (f : ChlPort → ChlPort) : (s.chlUpd p f).cif = s.cif := rfl
@[simp] theorem State.chlUpd_fum (s : State) (p : Nat) (f : ChlPort → ChlPort) : (s.chlUpd p f).fum = s.fum := rfl
@[simp] theorem State.chlUpd_mem (s : State) (p : Nat) (f : ChlPort → ChlPort) : (s.chlUpd p f).mem = s.mem := rfl
@[simp] theorem State.chlUpd_flash (s : State) (p : Nat) (f : ChlPort → ChlPort) : (s.chlUpd p f).flash = s.flash := rfl
@[simp] theorem State.chlUpd_ao (s : State) (p : Nat) (f : ChlPort → ChlPort) : (s.chlUpd p f).ao = s.ao := rfl
@[simp] theorem State.chlUpd_out (s : State) (p : Nat) (f : ChlPort → ChlPort) : (s.chlUpd p f).out = s.out := rfl
@[simp] theorem State.chlUpd_fresh (s : State) (p : Nat) (f : ChlPort → ChlPort) : (s.chlUpd p f).fresh = s.fresh := rfl
@[simp] theorem State.chlUpd_pending (s : State) (p : Nat) (f : ChlPort → ChlPort) : (s.chlUpd p f).pending = s.pending := rfl
@[simp] theorem State.chlUpd_get (s : State) (p : Nat) (f : ChlPort → ChlPort) (g : Field) (j l : Nat) : (s.chlUpd p f).get g j l = s.get g j l := rfl

/-! ## rawSet -/

@[simp] theorem State.rawSet_regs (s : State) (a v : Nat) : (s.rawSet a v).regs = s.regs := rfl
@[simp] theorem State.rawSet_latch (s : State) (a v : Nat) : (s.rawSet a v).latch = s.latch := rfl
@[simp] theorem State.rawSet_busErr (s : State) (a v : Nat) : (s.rawSet a v).busErr = s.busErr := rfl
@[simp] theorem State.rawSet_ap (s : State) (a v : Nat) : (s.rawSet a v).ap = s.ap := rfl
@[simp] theorem State.rawSet_own (s : State) (a v : Nat) : (s.rawSet a v).own = s.own := rfl
@[simp] theorem State.rawSet_txn (s : State) (a v : Nat) : (s.rawSet a v).txn = s.txn := rfl
@[simp] theorem State.rawSet_staged (s : State) (a v : Nat) : (s.rawSet a v).staged = s.staged := rfl
@[simp] theorem State.rawSet_flt (s : State) (a v : Nat) : (s.rawSet a v).flt = s.flt := rfl
@[simp] theorem State.rawSet_tel (s : State) (a v : Nat) : (s.rawSet a v).tel = s.tel := rfl
@[simp] theorem State.rawSet_cru (s : State) (a v : Nat) : (s.rawSet a v).cru = s.cru := rfl
@[simp] theorem State.rawSet_pwr (s : State) (a v : Nat) : (s.rawSet a v).pwr = s.pwr := rfl
@[simp] theorem State.rawSet_wdt (s : State) (a v : Nat) : (s.rawSet a v).wdt = s.wdt := rfl
@[simp] theorem State.rawSet_boot (s : State) (a v : Nat) : (s.rawSet a v).boot = s.boot := rfl
@[simp] theorem State.rawSet_jtag (s : State) (a v : Nat) : (s.rawSet a v).jtag = s.jtag := rfl
@[simp] theorem State.rawSet_rst (s : State) (a v : Nat) : (s.rawSet a v).rst = s.rst := rfl
@[simp] theorem State.rawSet_pad (s : State) (a v : Nat) : (s.rawSet a v).pad = s.pad := rfl
@[simp] theorem State.rawSet_syn (s : State) (a v : Nat) : (s.rawSet a v).syn = s.syn := rfl
@[simp] theorem State.rawSet_sin (s : State) (a v : Nat) : (s.rawSet a v).sin = s.sin := rfl
@[simp] theorem State.rawSet_dtu (s : State) (a v : Nat) : (s.rawSet a v).dtu = s.dtu := rfl
@[simp] theorem State.rawSet_wsp (s : State) (a v : Nat) : (s.rawSet a v).wsp = s.wsp := rfl
@[simp] theorem State.rawSet_emb (s : State) (a v : Nat) : (s.rawSet a v).emb = s.emb := rfl
@[simp] theorem State.rawSet_saved (s : State) (a v : Nat) : (s.rawSet a v).saved = s.saved := rfl
@[simp] theorem State.rawSet_gfx (s : State) (a v : Nat) : (s.rawSet a v).gfx = s.gfx := rfl
@[simp] theorem State.rawSet_dco (s : State) (a v : Nat) : (s.rawSet a v).dco = s.dco := rfl
@[simp] theorem State.rawSet_cif (s : State) (a v : Nat) : (s.rawSet a v).cif = s.cif := rfl
@[simp] theorem State.rawSet_fum (s : State) (a v : Nat) : (s.rawSet a v).fum = s.fum := rfl
@[simp] theorem State.rawSet_chl (s : State) (a v : Nat) : (s.rawSet a v).chl = s.chl := rfl
@[simp] theorem State.rawSet_mem (s : State) (a v : Nat) : (s.rawSet a v).mem = s.mem := rfl
@[simp] theorem State.rawSet_flash (s : State) (a v : Nat) : (s.rawSet a v).flash = s.flash := rfl
@[simp] theorem State.rawSet_ao (s : State) (a v : Nat) : (s.rawSet a v).ao = s.ao := rfl
@[simp] theorem State.rawSet_out (s : State) (a v : Nat) : (s.rawSet a v).out = s.out := rfl
@[simp] theorem State.rawSet_fresh (s : State) (a v : Nat) : (s.rawSet a v).fresh = s.fresh := rfl
@[simp] theorem State.rawSet_pending (s : State) (a v : Nat) : (s.rawSet a v).pending = s.pending := rfl
@[simp] theorem State.rawSet_get (s : State) (a v : Nat) (g : Field) (j l : Nat) : (s.rawSet a v).get g j l = s.get g j l := rfl

/-! ## telAdd -/

@[simp] theorem State.telAdd_regs (s : State) (i n : Nat) : (s.telAdd i n).regs = s.regs := rfl
@[simp] theorem State.telAdd_raw (s : State) (i n : Nat) : (s.telAdd i n).raw = s.raw := rfl
@[simp] theorem State.telAdd_latch (s : State) (i n : Nat) : (s.telAdd i n).latch = s.latch := rfl
@[simp] theorem State.telAdd_busErr (s : State) (i n : Nat) : (s.telAdd i n).busErr = s.busErr := rfl
@[simp] theorem State.telAdd_ap (s : State) (i n : Nat) : (s.telAdd i n).ap = s.ap := rfl
@[simp] theorem State.telAdd_own (s : State) (i n : Nat) : (s.telAdd i n).own = s.own := rfl
@[simp] theorem State.telAdd_txn (s : State) (i n : Nat) : (s.telAdd i n).txn = s.txn := rfl
@[simp] theorem State.telAdd_staged (s : State) (i n : Nat) : (s.telAdd i n).staged = s.staged := rfl
@[simp] theorem State.telAdd_flt (s : State) (i n : Nat) : (s.telAdd i n).flt = s.flt := rfl
@[simp] theorem State.telAdd_cru (s : State) (i n : Nat) : (s.telAdd i n).cru = s.cru := rfl
@[simp] theorem State.telAdd_pwr (s : State) (i n : Nat) : (s.telAdd i n).pwr = s.pwr := rfl
@[simp] theorem State.telAdd_wdt (s : State) (i n : Nat) : (s.telAdd i n).wdt = s.wdt := rfl
@[simp] theorem State.telAdd_boot (s : State) (i n : Nat) : (s.telAdd i n).boot = s.boot := rfl
@[simp] theorem State.telAdd_jtag (s : State) (i n : Nat) : (s.telAdd i n).jtag = s.jtag := rfl
@[simp] theorem State.telAdd_rst (s : State) (i n : Nat) : (s.telAdd i n).rst = s.rst := rfl
@[simp] theorem State.telAdd_pad (s : State) (i n : Nat) : (s.telAdd i n).pad = s.pad := rfl
@[simp] theorem State.telAdd_syn (s : State) (i n : Nat) : (s.telAdd i n).syn = s.syn := rfl
@[simp] theorem State.telAdd_sin (s : State) (i n : Nat) : (s.telAdd i n).sin = s.sin := rfl
@[simp] theorem State.telAdd_dtu (s : State) (i n : Nat) : (s.telAdd i n).dtu = s.dtu := rfl
@[simp] theorem State.telAdd_wsp (s : State) (i n : Nat) : (s.telAdd i n).wsp = s.wsp := rfl
@[simp] theorem State.telAdd_emb (s : State) (i n : Nat) : (s.telAdd i n).emb = s.emb := rfl
@[simp] theorem State.telAdd_saved (s : State) (i n : Nat) : (s.telAdd i n).saved = s.saved := rfl
@[simp] theorem State.telAdd_gfx (s : State) (i n : Nat) : (s.telAdd i n).gfx = s.gfx := rfl
@[simp] theorem State.telAdd_dco (s : State) (i n : Nat) : (s.telAdd i n).dco = s.dco := rfl
@[simp] theorem State.telAdd_cif (s : State) (i n : Nat) : (s.telAdd i n).cif = s.cif := rfl
@[simp] theorem State.telAdd_fum (s : State) (i n : Nat) : (s.telAdd i n).fum = s.fum := rfl
@[simp] theorem State.telAdd_chl (s : State) (i n : Nat) : (s.telAdd i n).chl = s.chl := rfl
@[simp] theorem State.telAdd_mem (s : State) (i n : Nat) : (s.telAdd i n).mem = s.mem := rfl
@[simp] theorem State.telAdd_flash (s : State) (i n : Nat) : (s.telAdd i n).flash = s.flash := rfl
@[simp] theorem State.telAdd_ao (s : State) (i n : Nat) : (s.telAdd i n).ao = s.ao := rfl
@[simp] theorem State.telAdd_out (s : State) (i n : Nat) : (s.telAdd i n).out = s.out := rfl
@[simp] theorem State.telAdd_fresh (s : State) (i n : Nat) : (s.telAdd i n).fresh = s.fresh := rfl
@[simp] theorem State.telAdd_pending (s : State) (i n : Nat) : (s.telAdd i n).pending = s.pending := rfl
@[simp] theorem State.telAdd_get (s : State) (i n : Nat) (g : Field) (j l : Nat) : (s.telAdd i n).get g j l = s.get g j l := rfl

/-! ## memSet -/

@[simp] theorem State.memSet_regs (s : State) (a n v : Nat) : (s.memSet a n v).regs = s.regs := rfl
@[simp] theorem State.memSet_raw (s : State) (a n v : Nat) : (s.memSet a n v).raw = s.raw := rfl
@[simp] theorem State.memSet_latch (s : State) (a n v : Nat) : (s.memSet a n v).latch = s.latch := rfl
@[simp] theorem State.memSet_busErr (s : State) (a n v : Nat) : (s.memSet a n v).busErr = s.busErr := rfl
@[simp] theorem State.memSet_ap (s : State) (a n v : Nat) : (s.memSet a n v).ap = s.ap := rfl
@[simp] theorem State.memSet_own (s : State) (a n v : Nat) : (s.memSet a n v).own = s.own := rfl
@[simp] theorem State.memSet_txn (s : State) (a n v : Nat) : (s.memSet a n v).txn = s.txn := rfl
@[simp] theorem State.memSet_staged (s : State) (a n v : Nat) : (s.memSet a n v).staged = s.staged := rfl
@[simp] theorem State.memSet_flt (s : State) (a n v : Nat) : (s.memSet a n v).flt = s.flt := rfl
@[simp] theorem State.memSet_tel (s : State) (a n v : Nat) : (s.memSet a n v).tel = s.tel := rfl
@[simp] theorem State.memSet_cru (s : State) (a n v : Nat) : (s.memSet a n v).cru = s.cru := rfl
@[simp] theorem State.memSet_pwr (s : State) (a n v : Nat) : (s.memSet a n v).pwr = s.pwr := rfl
@[simp] theorem State.memSet_wdt (s : State) (a n v : Nat) : (s.memSet a n v).wdt = s.wdt := rfl
@[simp] theorem State.memSet_boot (s : State) (a n v : Nat) : (s.memSet a n v).boot = s.boot := rfl
@[simp] theorem State.memSet_jtag (s : State) (a n v : Nat) : (s.memSet a n v).jtag = s.jtag := rfl
@[simp] theorem State.memSet_rst (s : State) (a n v : Nat) : (s.memSet a n v).rst = s.rst := rfl
@[simp] theorem State.memSet_pad (s : State) (a n v : Nat) : (s.memSet a n v).pad = s.pad := rfl
@[simp] theorem State.memSet_syn (s : State) (a n v : Nat) : (s.memSet a n v).syn = s.syn := rfl
@[simp] theorem State.memSet_sin (s : State) (a n v : Nat) : (s.memSet a n v).sin = s.sin := rfl
@[simp] theorem State.memSet_dtu (s : State) (a n v : Nat) : (s.memSet a n v).dtu = s.dtu := rfl
@[simp] theorem State.memSet_wsp (s : State) (a n v : Nat) : (s.memSet a n v).wsp = s.wsp := rfl
@[simp] theorem State.memSet_emb (s : State) (a n v : Nat) : (s.memSet a n v).emb = s.emb := rfl
@[simp] theorem State.memSet_saved (s : State) (a n v : Nat) : (s.memSet a n v).saved = s.saved := rfl
@[simp] theorem State.memSet_gfx (s : State) (a n v : Nat) : (s.memSet a n v).gfx = s.gfx := rfl
@[simp] theorem State.memSet_dco (s : State) (a n v : Nat) : (s.memSet a n v).dco = s.dco := rfl
@[simp] theorem State.memSet_cif (s : State) (a n v : Nat) : (s.memSet a n v).cif = s.cif := rfl
@[simp] theorem State.memSet_fum (s : State) (a n v : Nat) : (s.memSet a n v).fum = s.fum := rfl
@[simp] theorem State.memSet_chl (s : State) (a n v : Nat) : (s.memSet a n v).chl = s.chl := rfl
@[simp] theorem State.memSet_flash (s : State) (a n v : Nat) : (s.memSet a n v).flash = s.flash := rfl
@[simp] theorem State.memSet_ao (s : State) (a n v : Nat) : (s.memSet a n v).ao = s.ao := rfl
@[simp] theorem State.memSet_out (s : State) (a n v : Nat) : (s.memSet a n v).out = s.out := rfl
@[simp] theorem State.memSet_fresh (s : State) (a n v : Nat) : (s.memSet a n v).fresh = s.fresh := rfl
@[simp] theorem State.memSet_pending (s : State) (a n v : Nat) : (s.memSet a n v).pending = s.pending := rfl
@[simp] theorem State.memSet_get (s : State) (a n v : Nat) (g : Field) (j l : Nat) : (s.memSet a n v).get g j l = s.get g j l := rfl

/-! ## aoPut -/

@[simp] theorem State.aoPut_regs (s : State) (a : Nat) (bs : List Nat) : (s.aoPut a bs).regs = s.regs := rfl
@[simp] theorem State.aoPut_raw (s : State) (a : Nat) (bs : List Nat) : (s.aoPut a bs).raw = s.raw := rfl
@[simp] theorem State.aoPut_latch (s : State) (a : Nat) (bs : List Nat) : (s.aoPut a bs).latch = s.latch := rfl
@[simp] theorem State.aoPut_busErr (s : State) (a : Nat) (bs : List Nat) : (s.aoPut a bs).busErr = s.busErr := rfl
@[simp] theorem State.aoPut_ap (s : State) (a : Nat) (bs : List Nat) : (s.aoPut a bs).ap = s.ap := rfl
@[simp] theorem State.aoPut_own (s : State) (a : Nat) (bs : List Nat) : (s.aoPut a bs).own = s.own := rfl
@[simp] theorem State.aoPut_txn (s : State) (a : Nat) (bs : List Nat) : (s.aoPut a bs).txn = s.txn := rfl
@[simp] theorem State.aoPut_staged (s : State) (a : Nat) (bs : List Nat) : (s.aoPut a bs).staged = s.staged := rfl
@[simp] theorem State.aoPut_flt (s : State) (a : Nat) (bs : List Nat) : (s.aoPut a bs).flt = s.flt := rfl
@[simp] theorem State.aoPut_tel (s : State) (a : Nat) (bs : List Nat) : (s.aoPut a bs).tel = s.tel := rfl
@[simp] theorem State.aoPut_cru (s : State) (a : Nat) (bs : List Nat) : (s.aoPut a bs).cru = s.cru := rfl
@[simp] theorem State.aoPut_pwr (s : State) (a : Nat) (bs : List Nat) : (s.aoPut a bs).pwr = s.pwr := rfl
@[simp] theorem State.aoPut_wdt (s : State) (a : Nat) (bs : List Nat) : (s.aoPut a bs).wdt = s.wdt := rfl
@[simp] theorem State.aoPut_boot (s : State) (a : Nat) (bs : List Nat) : (s.aoPut a bs).boot = s.boot := rfl
@[simp] theorem State.aoPut_jtag (s : State) (a : Nat) (bs : List Nat) : (s.aoPut a bs).jtag = s.jtag := rfl
@[simp] theorem State.aoPut_rst (s : State) (a : Nat) (bs : List Nat) : (s.aoPut a bs).rst = s.rst := rfl
@[simp] theorem State.aoPut_pad (s : State) (a : Nat) (bs : List Nat) : (s.aoPut a bs).pad = s.pad := rfl
@[simp] theorem State.aoPut_syn (s : State) (a : Nat) (bs : List Nat) : (s.aoPut a bs).syn = s.syn := rfl
@[simp] theorem State.aoPut_sin (s : State) (a : Nat) (bs : List Nat) : (s.aoPut a bs).sin = s.sin := rfl
@[simp] theorem State.aoPut_dtu (s : State) (a : Nat) (bs : List Nat) : (s.aoPut a bs).dtu = s.dtu := rfl
@[simp] theorem State.aoPut_wsp (s : State) (a : Nat) (bs : List Nat) : (s.aoPut a bs).wsp = s.wsp := rfl
@[simp] theorem State.aoPut_emb (s : State) (a : Nat) (bs : List Nat) : (s.aoPut a bs).emb = s.emb := rfl
@[simp] theorem State.aoPut_saved (s : State) (a : Nat) (bs : List Nat) : (s.aoPut a bs).saved = s.saved := rfl
@[simp] theorem State.aoPut_gfx (s : State) (a : Nat) (bs : List Nat) : (s.aoPut a bs).gfx = s.gfx := rfl
@[simp] theorem State.aoPut_dco (s : State) (a : Nat) (bs : List Nat) : (s.aoPut a bs).dco = s.dco := rfl
@[simp] theorem State.aoPut_cif (s : State) (a : Nat) (bs : List Nat) : (s.aoPut a bs).cif = s.cif := rfl
@[simp] theorem State.aoPut_fum (s : State) (a : Nat) (bs : List Nat) : (s.aoPut a bs).fum = s.fum := rfl
@[simp] theorem State.aoPut_chl (s : State) (a : Nat) (bs : List Nat) : (s.aoPut a bs).chl = s.chl := rfl
@[simp] theorem State.aoPut_mem (s : State) (a : Nat) (bs : List Nat) : (s.aoPut a bs).mem = s.mem := rfl
@[simp] theorem State.aoPut_flash (s : State) (a : Nat) (bs : List Nat) : (s.aoPut a bs).flash = s.flash := rfl
@[simp] theorem State.aoPut_out (s : State) (a : Nat) (bs : List Nat) : (s.aoPut a bs).out = s.out := rfl
@[simp] theorem State.aoPut_fresh (s : State) (a : Nat) (bs : List Nat) : (s.aoPut a bs).fresh = s.fresh := rfl
@[simp] theorem State.aoPut_pending (s : State) (a : Nat) (bs : List Nat) : (s.aoPut a bs).pending = s.pending := rfl
@[simp] theorem State.aoPut_get (s : State) (a : Nat) (bs : List Nat) (g : Field) (j l : Nat) : (s.aoPut a bs).get g j l = s.get g j l := rfl

/-! ## emPut -/

@[simp] theorem State.emPut_regs (s : State) (e : Nat) (x : Ember) : (s.emPut e x).regs = s.regs := rfl
@[simp] theorem State.emPut_raw (s : State) (e : Nat) (x : Ember) : (s.emPut e x).raw = s.raw := rfl
@[simp] theorem State.emPut_latch (s : State) (e : Nat) (x : Ember) : (s.emPut e x).latch = s.latch := rfl
@[simp] theorem State.emPut_busErr (s : State) (e : Nat) (x : Ember) : (s.emPut e x).busErr = s.busErr := rfl
@[simp] theorem State.emPut_ap (s : State) (e : Nat) (x : Ember) : (s.emPut e x).ap = s.ap := rfl
@[simp] theorem State.emPut_own (s : State) (e : Nat) (x : Ember) : (s.emPut e x).own = s.own := rfl
@[simp] theorem State.emPut_txn (s : State) (e : Nat) (x : Ember) : (s.emPut e x).txn = s.txn := rfl
@[simp] theorem State.emPut_staged (s : State) (e : Nat) (x : Ember) : (s.emPut e x).staged = s.staged := rfl
@[simp] theorem State.emPut_flt (s : State) (e : Nat) (x : Ember) : (s.emPut e x).flt = s.flt := rfl
@[simp] theorem State.emPut_tel (s : State) (e : Nat) (x : Ember) : (s.emPut e x).tel = s.tel := rfl
@[simp] theorem State.emPut_cru (s : State) (e : Nat) (x : Ember) : (s.emPut e x).cru = s.cru := rfl
@[simp] theorem State.emPut_pwr (s : State) (e : Nat) (x : Ember) : (s.emPut e x).pwr = s.pwr := rfl
@[simp] theorem State.emPut_wdt (s : State) (e : Nat) (x : Ember) : (s.emPut e x).wdt = s.wdt := rfl
@[simp] theorem State.emPut_boot (s : State) (e : Nat) (x : Ember) : (s.emPut e x).boot = s.boot := rfl
@[simp] theorem State.emPut_jtag (s : State) (e : Nat) (x : Ember) : (s.emPut e x).jtag = s.jtag := rfl
@[simp] theorem State.emPut_rst (s : State) (e : Nat) (x : Ember) : (s.emPut e x).rst = s.rst := rfl
@[simp] theorem State.emPut_pad (s : State) (e : Nat) (x : Ember) : (s.emPut e x).pad = s.pad := rfl
@[simp] theorem State.emPut_syn (s : State) (e : Nat) (x : Ember) : (s.emPut e x).syn = s.syn := rfl
@[simp] theorem State.emPut_sin (s : State) (e : Nat) (x : Ember) : (s.emPut e x).sin = s.sin := rfl
@[simp] theorem State.emPut_dtu (s : State) (e : Nat) (x : Ember) : (s.emPut e x).dtu = s.dtu := rfl
@[simp] theorem State.emPut_wsp (s : State) (e : Nat) (x : Ember) : (s.emPut e x).wsp = s.wsp := rfl
@[simp] theorem State.emPut_saved (s : State) (e : Nat) (x : Ember) : (s.emPut e x).saved = s.saved := rfl
@[simp] theorem State.emPut_gfx (s : State) (e : Nat) (x : Ember) : (s.emPut e x).gfx = s.gfx := rfl
@[simp] theorem State.emPut_dco (s : State) (e : Nat) (x : Ember) : (s.emPut e x).dco = s.dco := rfl
@[simp] theorem State.emPut_cif (s : State) (e : Nat) (x : Ember) : (s.emPut e x).cif = s.cif := rfl
@[simp] theorem State.emPut_fum (s : State) (e : Nat) (x : Ember) : (s.emPut e x).fum = s.fum := rfl
@[simp] theorem State.emPut_chl (s : State) (e : Nat) (x : Ember) : (s.emPut e x).chl = s.chl := rfl
@[simp] theorem State.emPut_mem (s : State) (e : Nat) (x : Ember) : (s.emPut e x).mem = s.mem := rfl
@[simp] theorem State.emPut_flash (s : State) (e : Nat) (x : Ember) : (s.emPut e x).flash = s.flash := rfl
@[simp] theorem State.emPut_ao (s : State) (e : Nat) (x : Ember) : (s.emPut e x).ao = s.ao := rfl
@[simp] theorem State.emPut_out (s : State) (e : Nat) (x : Ember) : (s.emPut e x).out = s.out := rfl
@[simp] theorem State.emPut_fresh (s : State) (e : Nat) (x : Ember) : (s.emPut e x).fresh = s.fresh := rfl
@[simp] theorem State.emPut_pending (s : State) (e : Nat) (x : Ember) : (s.emPut e x).pending = s.pending := rfl
@[simp] theorem State.emPut_get (s : State) (e : Nat) (x : Ember) (g : Field) (j l : Nat) : (s.emPut e x).get g j l = s.get g j l := rfl

/-! ## qPut -/

@[simp] theorem State.qPut_regs (s : State) (q : Nat) (x : WspQ) : (s.qPut q x).regs = s.regs := rfl
@[simp] theorem State.qPut_raw (s : State) (q : Nat) (x : WspQ) : (s.qPut q x).raw = s.raw := rfl
@[simp] theorem State.qPut_latch (s : State) (q : Nat) (x : WspQ) : (s.qPut q x).latch = s.latch := rfl
@[simp] theorem State.qPut_busErr (s : State) (q : Nat) (x : WspQ) : (s.qPut q x).busErr = s.busErr := rfl
@[simp] theorem State.qPut_ap (s : State) (q : Nat) (x : WspQ) : (s.qPut q x).ap = s.ap := rfl
@[simp] theorem State.qPut_own (s : State) (q : Nat) (x : WspQ) : (s.qPut q x).own = s.own := rfl
@[simp] theorem State.qPut_txn (s : State) (q : Nat) (x : WspQ) : (s.qPut q x).txn = s.txn := rfl
@[simp] theorem State.qPut_staged (s : State) (q : Nat) (x : WspQ) : (s.qPut q x).staged = s.staged := rfl
@[simp] theorem State.qPut_flt (s : State) (q : Nat) (x : WspQ) : (s.qPut q x).flt = s.flt := rfl
@[simp] theorem State.qPut_tel (s : State) (q : Nat) (x : WspQ) : (s.qPut q x).tel = s.tel := rfl
@[simp] theorem State.qPut_cru (s : State) (q : Nat) (x : WspQ) : (s.qPut q x).cru = s.cru := rfl
@[simp] theorem State.qPut_pwr (s : State) (q : Nat) (x : WspQ) : (s.qPut q x).pwr = s.pwr := rfl
@[simp] theorem State.qPut_wdt (s : State) (q : Nat) (x : WspQ) : (s.qPut q x).wdt = s.wdt := rfl
@[simp] theorem State.qPut_boot (s : State) (q : Nat) (x : WspQ) : (s.qPut q x).boot = s.boot := rfl
@[simp] theorem State.qPut_jtag (s : State) (q : Nat) (x : WspQ) : (s.qPut q x).jtag = s.jtag := rfl
@[simp] theorem State.qPut_rst (s : State) (q : Nat) (x : WspQ) : (s.qPut q x).rst = s.rst := rfl
@[simp] theorem State.qPut_pad (s : State) (q : Nat) (x : WspQ) : (s.qPut q x).pad = s.pad := rfl
@[simp] theorem State.qPut_syn (s : State) (q : Nat) (x : WspQ) : (s.qPut q x).syn = s.syn := rfl
@[simp] theorem State.qPut_sin (s : State) (q : Nat) (x : WspQ) : (s.qPut q x).sin = s.sin := rfl
@[simp] theorem State.qPut_dtu (s : State) (q : Nat) (x : WspQ) : (s.qPut q x).dtu = s.dtu := rfl
@[simp] theorem State.qPut_emb (s : State) (q : Nat) (x : WspQ) : (s.qPut q x).emb = s.emb := rfl
@[simp] theorem State.qPut_saved (s : State) (q : Nat) (x : WspQ) : (s.qPut q x).saved = s.saved := rfl
@[simp] theorem State.qPut_gfx (s : State) (q : Nat) (x : WspQ) : (s.qPut q x).gfx = s.gfx := rfl
@[simp] theorem State.qPut_dco (s : State) (q : Nat) (x : WspQ) : (s.qPut q x).dco = s.dco := rfl
@[simp] theorem State.qPut_cif (s : State) (q : Nat) (x : WspQ) : (s.qPut q x).cif = s.cif := rfl
@[simp] theorem State.qPut_fum (s : State) (q : Nat) (x : WspQ) : (s.qPut q x).fum = s.fum := rfl
@[simp] theorem State.qPut_chl (s : State) (q : Nat) (x : WspQ) : (s.qPut q x).chl = s.chl := rfl
@[simp] theorem State.qPut_mem (s : State) (q : Nat) (x : WspQ) : (s.qPut q x).mem = s.mem := rfl
@[simp] theorem State.qPut_flash (s : State) (q : Nat) (x : WspQ) : (s.qPut q x).flash = s.flash := rfl
@[simp] theorem State.qPut_ao (s : State) (q : Nat) (x : WspQ) : (s.qPut q x).ao = s.ao := rfl
@[simp] theorem State.qPut_out (s : State) (q : Nat) (x : WspQ) : (s.qPut q x).out = s.out := rfl
@[simp] theorem State.qPut_fresh (s : State) (q : Nat) (x : WspQ) : (s.qPut q x).fresh = s.fresh := rfl
@[simp] theorem State.qPut_pending (s : State) (q : Nat) (x : WspQ) : (s.qPut q x).pending = s.pending := rfl
@[simp] theorem State.qPut_get (s : State) (q : Nat) (x : WspQ) (g : Field) (j l : Nat) : (s.qPut q x).get g j l = s.get g j l := rfl

/-! ## serPut -/

@[simp] theorem State.serPut_regs (s : State) (c : Nat) (x : SerSt) : (s.serPut c x).regs = s.regs := rfl
@[simp] theorem State.serPut_raw (s : State) (c : Nat) (x : SerSt) : (s.serPut c x).raw = s.raw := rfl
@[simp] theorem State.serPut_latch (s : State) (c : Nat) (x : SerSt) : (s.serPut c x).latch = s.latch := rfl
@[simp] theorem State.serPut_busErr (s : State) (c : Nat) (x : SerSt) : (s.serPut c x).busErr = s.busErr := rfl
@[simp] theorem State.serPut_ap (s : State) (c : Nat) (x : SerSt) : (s.serPut c x).ap = s.ap := rfl
@[simp] theorem State.serPut_own (s : State) (c : Nat) (x : SerSt) : (s.serPut c x).own = s.own := rfl
@[simp] theorem State.serPut_txn (s : State) (c : Nat) (x : SerSt) : (s.serPut c x).txn = s.txn := rfl
@[simp] theorem State.serPut_staged (s : State) (c : Nat) (x : SerSt) : (s.serPut c x).staged = s.staged := rfl
@[simp] theorem State.serPut_flt (s : State) (c : Nat) (x : SerSt) : (s.serPut c x).flt = s.flt := rfl
@[simp] theorem State.serPut_tel (s : State) (c : Nat) (x : SerSt) : (s.serPut c x).tel = s.tel := rfl
@[simp] theorem State.serPut_cru (s : State) (c : Nat) (x : SerSt) : (s.serPut c x).cru = s.cru := rfl
@[simp] theorem State.serPut_pwr (s : State) (c : Nat) (x : SerSt) : (s.serPut c x).pwr = s.pwr := rfl
@[simp] theorem State.serPut_wdt (s : State) (c : Nat) (x : SerSt) : (s.serPut c x).wdt = s.wdt := rfl
@[simp] theorem State.serPut_boot (s : State) (c : Nat) (x : SerSt) : (s.serPut c x).boot = s.boot := rfl
@[simp] theorem State.serPut_jtag (s : State) (c : Nat) (x : SerSt) : (s.serPut c x).jtag = s.jtag := rfl
@[simp] theorem State.serPut_rst (s : State) (c : Nat) (x : SerSt) : (s.serPut c x).rst = s.rst := rfl
@[simp] theorem State.serPut_syn (s : State) (c : Nat) (x : SerSt) : (s.serPut c x).syn = s.syn := rfl
@[simp] theorem State.serPut_sin (s : State) (c : Nat) (x : SerSt) : (s.serPut c x).sin = s.sin := rfl
@[simp] theorem State.serPut_dtu (s : State) (c : Nat) (x : SerSt) : (s.serPut c x).dtu = s.dtu := rfl
@[simp] theorem State.serPut_wsp (s : State) (c : Nat) (x : SerSt) : (s.serPut c x).wsp = s.wsp := rfl
@[simp] theorem State.serPut_emb (s : State) (c : Nat) (x : SerSt) : (s.serPut c x).emb = s.emb := rfl
@[simp] theorem State.serPut_saved (s : State) (c : Nat) (x : SerSt) : (s.serPut c x).saved = s.saved := rfl
@[simp] theorem State.serPut_gfx (s : State) (c : Nat) (x : SerSt) : (s.serPut c x).gfx = s.gfx := rfl
@[simp] theorem State.serPut_dco (s : State) (c : Nat) (x : SerSt) : (s.serPut c x).dco = s.dco := rfl
@[simp] theorem State.serPut_cif (s : State) (c : Nat) (x : SerSt) : (s.serPut c x).cif = s.cif := rfl
@[simp] theorem State.serPut_fum (s : State) (c : Nat) (x : SerSt) : (s.serPut c x).fum = s.fum := rfl
@[simp] theorem State.serPut_chl (s : State) (c : Nat) (x : SerSt) : (s.serPut c x).chl = s.chl := rfl
@[simp] theorem State.serPut_mem (s : State) (c : Nat) (x : SerSt) : (s.serPut c x).mem = s.mem := rfl
@[simp] theorem State.serPut_flash (s : State) (c : Nat) (x : SerSt) : (s.serPut c x).flash = s.flash := rfl
@[simp] theorem State.serPut_ao (s : State) (c : Nat) (x : SerSt) : (s.serPut c x).ao = s.ao := rfl
@[simp] theorem State.serPut_out (s : State) (c : Nat) (x : SerSt) : (s.serPut c x).out = s.out := rfl
@[simp] theorem State.serPut_fresh (s : State) (c : Nat) (x : SerSt) : (s.serPut c x).fresh = s.fresh := rfl
@[simp] theorem State.serPut_pending (s : State) (c : Nat) (x : SerSt) : (s.serPut c x).pending = s.pending := rfl
@[simp] theorem State.serPut_get (s : State) (c : Nat) (x : SerSt) (g : Field) (j l : Nat) : (s.serPut c x).get g j l = s.get g j l := rfl

/-! ## dcoPut -/

@[simp] theorem State.dcoPut_raw (s : State) (c : Nat) (x : DcoCh) : (s.dcoPut c x).raw = s.raw := rfl
@[simp] theorem State.dcoPut_latch (s : State) (c : Nat) (x : DcoCh) : (s.dcoPut c x).latch = s.latch := rfl
@[simp] theorem State.dcoPut_busErr (s : State) (c : Nat) (x : DcoCh) : (s.dcoPut c x).busErr = s.busErr := rfl
@[simp] theorem State.dcoPut_ap (s : State) (c : Nat) (x : DcoCh) : (s.dcoPut c x).ap = s.ap := rfl
@[simp] theorem State.dcoPut_own (s : State) (c : Nat) (x : DcoCh) : (s.dcoPut c x).own = s.own := rfl
@[simp] theorem State.dcoPut_txn (s : State) (c : Nat) (x : DcoCh) : (s.dcoPut c x).txn = s.txn := rfl
@[simp] theorem State.dcoPut_staged (s : State) (c : Nat) (x : DcoCh) : (s.dcoPut c x).staged = s.staged := rfl
@[simp] theorem State.dcoPut_flt (s : State) (c : Nat) (x : DcoCh) : (s.dcoPut c x).flt = s.flt := rfl
@[simp] theorem State.dcoPut_tel (s : State) (c : Nat) (x : DcoCh) : (s.dcoPut c x).tel = s.tel := rfl
@[simp] theorem State.dcoPut_cru (s : State) (c : Nat) (x : DcoCh) : (s.dcoPut c x).cru = s.cru := rfl
@[simp] theorem State.dcoPut_pwr (s : State) (c : Nat) (x : DcoCh) : (s.dcoPut c x).pwr = s.pwr := rfl
@[simp] theorem State.dcoPut_wdt (s : State) (c : Nat) (x : DcoCh) : (s.dcoPut c x).wdt = s.wdt := rfl
@[simp] theorem State.dcoPut_boot (s : State) (c : Nat) (x : DcoCh) : (s.dcoPut c x).boot = s.boot := rfl
@[simp] theorem State.dcoPut_jtag (s : State) (c : Nat) (x : DcoCh) : (s.dcoPut c x).jtag = s.jtag := rfl
@[simp] theorem State.dcoPut_rst (s : State) (c : Nat) (x : DcoCh) : (s.dcoPut c x).rst = s.rst := rfl
@[simp] theorem State.dcoPut_pad (s : State) (c : Nat) (x : DcoCh) : (s.dcoPut c x).pad = s.pad := rfl
@[simp] theorem State.dcoPut_syn (s : State) (c : Nat) (x : DcoCh) : (s.dcoPut c x).syn = s.syn := rfl
@[simp] theorem State.dcoPut_sin (s : State) (c : Nat) (x : DcoCh) : (s.dcoPut c x).sin = s.sin := rfl
@[simp] theorem State.dcoPut_dtu (s : State) (c : Nat) (x : DcoCh) : (s.dcoPut c x).dtu = s.dtu := rfl
@[simp] theorem State.dcoPut_wsp (s : State) (c : Nat) (x : DcoCh) : (s.dcoPut c x).wsp = s.wsp := rfl
@[simp] theorem State.dcoPut_emb (s : State) (c : Nat) (x : DcoCh) : (s.dcoPut c x).emb = s.emb := rfl
@[simp] theorem State.dcoPut_saved (s : State) (c : Nat) (x : DcoCh) : (s.dcoPut c x).saved = s.saved := rfl
@[simp] theorem State.dcoPut_gfx (s : State) (c : Nat) (x : DcoCh) : (s.dcoPut c x).gfx = s.gfx := rfl
@[simp] theorem State.dcoPut_cif (s : State) (c : Nat) (x : DcoCh) : (s.dcoPut c x).cif = s.cif := rfl
@[simp] theorem State.dcoPut_fum (s : State) (c : Nat) (x : DcoCh) : (s.dcoPut c x).fum = s.fum := rfl
@[simp] theorem State.dcoPut_chl (s : State) (c : Nat) (x : DcoCh) : (s.dcoPut c x).chl = s.chl := rfl
@[simp] theorem State.dcoPut_mem (s : State) (c : Nat) (x : DcoCh) : (s.dcoPut c x).mem = s.mem := rfl
@[simp] theorem State.dcoPut_flash (s : State) (c : Nat) (x : DcoCh) : (s.dcoPut c x).flash = s.flash := rfl
@[simp] theorem State.dcoPut_ao (s : State) (c : Nat) (x : DcoCh) : (s.dcoPut c x).ao = s.ao := rfl
@[simp] theorem State.dcoPut_out (s : State) (c : Nat) (x : DcoCh) : (s.dcoPut c x).out = s.out := rfl
@[simp] theorem State.dcoPut_fresh (s : State) (c : Nat) (x : DcoCh) : (s.dcoPut c x).fresh = s.fresh := rfl
@[simp] theorem State.dcoPut_pending (s : State) (c : Nat) (x : DcoCh) : (s.dcoPut c x).pending = s.pending := rfl

/-! ## cifPut -/

@[simp] theorem State.cifPut_raw (s : State) (p : Nat) (x : CifPort) : (s.cifPut p x).raw = s.raw := rfl
@[simp] theorem State.cifPut_latch (s : State) (p : Nat) (x : CifPort) : (s.cifPut p x).latch = s.latch := rfl
@[simp] theorem State.cifPut_busErr (s : State) (p : Nat) (x : CifPort) : (s.cifPut p x).busErr = s.busErr := rfl
@[simp] theorem State.cifPut_ap (s : State) (p : Nat) (x : CifPort) : (s.cifPut p x).ap = s.ap := rfl
@[simp] theorem State.cifPut_own (s : State) (p : Nat) (x : CifPort) : (s.cifPut p x).own = s.own := rfl
@[simp] theorem State.cifPut_txn (s : State) (p : Nat) (x : CifPort) : (s.cifPut p x).txn = s.txn := rfl
@[simp] theorem State.cifPut_staged (s : State) (p : Nat) (x : CifPort) : (s.cifPut p x).staged = s.staged := rfl
@[simp] theorem State.cifPut_flt (s : State) (p : Nat) (x : CifPort) : (s.cifPut p x).flt = s.flt := rfl
@[simp] theorem State.cifPut_tel (s : State) (p : Nat) (x : CifPort) : (s.cifPut p x).tel = s.tel := rfl
@[simp] theorem State.cifPut_cru (s : State) (p : Nat) (x : CifPort) : (s.cifPut p x).cru = s.cru := rfl
@[simp] theorem State.cifPut_pwr (s : State) (p : Nat) (x : CifPort) : (s.cifPut p x).pwr = s.pwr := rfl
@[simp] theorem State.cifPut_wdt (s : State) (p : Nat) (x : CifPort) : (s.cifPut p x).wdt = s.wdt := rfl
@[simp] theorem State.cifPut_boot (s : State) (p : Nat) (x : CifPort) : (s.cifPut p x).boot = s.boot := rfl
@[simp] theorem State.cifPut_jtag (s : State) (p : Nat) (x : CifPort) : (s.cifPut p x).jtag = s.jtag := rfl
@[simp] theorem State.cifPut_rst (s : State) (p : Nat) (x : CifPort) : (s.cifPut p x).rst = s.rst := rfl
@[simp] theorem State.cifPut_pad (s : State) (p : Nat) (x : CifPort) : (s.cifPut p x).pad = s.pad := rfl
@[simp] theorem State.cifPut_syn (s : State) (p : Nat) (x : CifPort) : (s.cifPut p x).syn = s.syn := rfl
@[simp] theorem State.cifPut_sin (s : State) (p : Nat) (x : CifPort) : (s.cifPut p x).sin = s.sin := rfl
@[simp] theorem State.cifPut_dtu (s : State) (p : Nat) (x : CifPort) : (s.cifPut p x).dtu = s.dtu := rfl
@[simp] theorem State.cifPut_wsp (s : State) (p : Nat) (x : CifPort) : (s.cifPut p x).wsp = s.wsp := rfl
@[simp] theorem State.cifPut_emb (s : State) (p : Nat) (x : CifPort) : (s.cifPut p x).emb = s.emb := rfl
@[simp] theorem State.cifPut_saved (s : State) (p : Nat) (x : CifPort) : (s.cifPut p x).saved = s.saved := rfl
@[simp] theorem State.cifPut_gfx (s : State) (p : Nat) (x : CifPort) : (s.cifPut p x).gfx = s.gfx := rfl
@[simp] theorem State.cifPut_dco (s : State) (p : Nat) (x : CifPort) : (s.cifPut p x).dco = s.dco := rfl
@[simp] theorem State.cifPut_fum (s : State) (p : Nat) (x : CifPort) : (s.cifPut p x).fum = s.fum := rfl
@[simp] theorem State.cifPut_chl (s : State) (p : Nat) (x : CifPort) : (s.cifPut p x).chl = s.chl := rfl
@[simp] theorem State.cifPut_mem (s : State) (p : Nat) (x : CifPort) : (s.cifPut p x).mem = s.mem := rfl
@[simp] theorem State.cifPut_flash (s : State) (p : Nat) (x : CifPort) : (s.cifPut p x).flash = s.flash := rfl
@[simp] theorem State.cifPut_ao (s : State) (p : Nat) (x : CifPort) : (s.cifPut p x).ao = s.ao := rfl
@[simp] theorem State.cifPut_out (s : State) (p : Nat) (x : CifPort) : (s.cifPut p x).out = s.out := rfl
@[simp] theorem State.cifPut_fresh (s : State) (p : Nat) (x : CifPort) : (s.cifPut p x).fresh = s.fresh := rfl
@[simp] theorem State.cifPut_pending (s : State) (p : Nat) (x : CifPort) : (s.cifPut p x).pending = s.pending := rfl

/-! ## begun -/

@[simp] theorem State.begun_regs (s : State) (m : Master) : (s.begun m).regs = s.regs := rfl
@[simp] theorem State.begun_raw (s : State) (m : Master) : (s.begun m).raw = s.raw := rfl
@[simp] theorem State.begun_ap (s : State) (m : Master) : (s.begun m).ap = s.ap := rfl
@[simp] theorem State.begun_own (s : State) (m : Master) : (s.begun m).own = s.own := rfl
@[simp] theorem State.begun_txn (s : State) (m : Master) : (s.begun m).txn = s.txn := rfl
@[simp] theorem State.begun_staged (s : State) (m : Master) : (s.begun m).staged = s.staged := rfl
@[simp] theorem State.begun_flt (s : State) (m : Master) : (s.begun m).flt = s.flt := rfl
@[simp] theorem State.begun_tel (s : State) (m : Master) : (s.begun m).tel = s.tel := rfl
@[simp] theorem State.begun_cru (s : State) (m : Master) : (s.begun m).cru = s.cru := rfl
@[simp] theorem State.begun_pwr (s : State) (m : Master) : (s.begun m).pwr = s.pwr := rfl
@[simp] theorem State.begun_wdt (s : State) (m : Master) : (s.begun m).wdt = s.wdt := rfl
@[simp] theorem State.begun_boot (s : State) (m : Master) : (s.begun m).boot = s.boot := rfl
@[simp] theorem State.begun_jtag (s : State) (m : Master) : (s.begun m).jtag = s.jtag := rfl
@[simp] theorem State.begun_rst (s : State) (m : Master) : (s.begun m).rst = s.rst := rfl
@[simp] theorem State.begun_pad (s : State) (m : Master) : (s.begun m).pad = s.pad := rfl
@[simp] theorem State.begun_syn (s : State) (m : Master) : (s.begun m).syn = s.syn := rfl
@[simp] theorem State.begun_sin (s : State) (m : Master) : (s.begun m).sin = s.sin := rfl
@[simp] theorem State.begun_dtu (s : State) (m : Master) : (s.begun m).dtu = s.dtu := rfl
@[simp] theorem State.begun_wsp (s : State) (m : Master) : (s.begun m).wsp = s.wsp := rfl
@[simp] theorem State.begun_emb (s : State) (m : Master) : (s.begun m).emb = s.emb := rfl
@[simp] theorem State.begun_saved (s : State) (m : Master) : (s.begun m).saved = s.saved := rfl
@[simp] theorem State.begun_gfx (s : State) (m : Master) : (s.begun m).gfx = s.gfx := rfl
@[simp] theorem State.begun_dco (s : State) (m : Master) : (s.begun m).dco = s.dco := rfl
@[simp] theorem State.begun_cif (s : State) (m : Master) : (s.begun m).cif = s.cif := rfl
@[simp] theorem State.begun_fum (s : State) (m : Master) : (s.begun m).fum = s.fum := rfl
@[simp] theorem State.begun_chl (s : State) (m : Master) : (s.begun m).chl = s.chl := rfl
@[simp] theorem State.begun_mem (s : State) (m : Master) : (s.begun m).mem = s.mem := rfl
@[simp] theorem State.begun_flash (s : State) (m : Master) : (s.begun m).flash = s.flash := rfl
@[simp] theorem State.begun_ao (s : State) (m : Master) : (s.begun m).ao = s.ao := rfl
@[simp] theorem State.begun_out (s : State) (m : Master) : (s.begun m).out = s.out := rfl
@[simp] theorem State.begun_fresh (s : State) (m : Master) : (s.begun m).fresh = s.fresh := rfl
@[simp] theorem State.begun_pending (s : State) (m : Master) : (s.begun m).pending = s.pending := rfl
@[simp] theorem State.begun_get (s : State) (m : Master) (g : Field) (j l : Nat) : (s.begun m).get g j l = s.get g j l := rfl

end Sys2Proof.Machine
end

