-- ==== Sys2Proof/Laws/Ops.lean ====
section
/-!
SUPPORT. What the shared operations can do to the state, each said once: sending on the chain, interrupts, error completions, fault
records, and the writes that any master may make.
-/

namespace Sys2Proof.Machine

/-! ## Sending on the chain changes the chain state and what is sent -/

/-- `t` is `s` but for the chain's state and what has been sent. -/
def ChlOnly (s t : State) : Prop := t = { s with chl := t.chl, out := t.out }

theorem ChlOnly.refl (s : State) : ChlOnly s s := rfl

theorem ChlOnly.trans {s t u : State} (h : ChlOnly s t) (h' : ChlOnly t u) : ChlOnly s u := by
  unfold ChlOnly at *; rw [h', h]

theorem chlOnly_emit (s : State) (o : Out) : ChlOnly s (s.emit o) := rfl
theorem chlOnly_chlPut (s : State) (p : Nat) (x : ChlPort) : ChlOnly s (s.chlPut p x) := rfl
theorem chlOnly_chlWire (s : State) (p : Nat) (m : ChlMsg) : ChlOnly s (s.chlWire p m) := rfl

theorem chlOnly_chlTags (s : State) (p n : Nat) : ChlOnly s (s.chlTags p n) := by
  unfold State.chlTags
  generalize List.range n = l
  induction l generalizing s with
  | nil => rfl
  | cons a l ih => refine ChlOnly.trans ?_ (ih _); rfl

theorem ChlOnly.tags {s t : State} {p n : Nat} (h : ChlOnly s t) : ChlOnly s (t.chlTags p n) := h.trans (chlOnly_chlTags t p n)
theorem ChlOnly.ctl {s t : State} {p op a : Nat} (h : ChlOnly s t) : ChlOnly s (t.chlCtl p op a) := h.trans rfl

theorem chlOnly_chlSend (s : State) (p : Nat) (m : ChlMsg) (w : Bool) : ChlOnly s (s.chlSend p m w) := by
  unfold State.chlSend
  dsimp only
  split <;> split
  · refine ChlOnly.ctl (ChlOnly.tags ?_); rfl
  · refine ChlOnly.tags ?_; rfl
  · rfl
  · rfl

theorem chlOnly_reqJoin (s : State) (a b : Nat) : ChlOnly s (s.reqJoin a b) := by
  unfold State.reqJoin; split <;> rfl

theorem chlOnly_chlPost (s : State) (p : Nat) (m : ChlMsg) : ChlOnly s (s.chlPost p m) := by
  unfold State.chlPost
  dsimp only
  split
  · exact chlOnly_chlSend s p m _
  · split
    · split
      · refine ChlOnly.trans ?_ (chlOnly_reqJoin _ _ _); rfl
      · rfl
    · rfl

theorem chlOnly_mgmt (s : State) (d sub : Nat) (data : List Nat) (a : Nat) : ChlOnly s (s.mgmt d sub data a) := by
  unfold State.mgmt; split
  · exact chlOnly_chlPost _ _ _
  · rfl

/-! ## Interrupt vectors -/

/-- An interrupt changes IDIE, the MSI-X pending bits, the chain's state and what is sent, and nothing else. -/
theorem vector_frame (s : State) (v : Nat) :
    s.vector v = { s with regs := (s.vector v).regs, raw := (s.vector v).raw, chl := (s.vector v).chl, out := (s.vector v).out } := by
  unfold State.vector; split
  · unfold State.msix; split <;> rfl
  · have h := chlOnly_mgmt s 0 0x0D [v, s.die] 0
    unfold ChlOnly at h
    rw [h]

theorem vectorIf_frame (s : State) (b : Bool) (v : Nat) :
    s.vectorIf b v = { s with regs := (s.vectorIf b v).regs, raw := (s.vectorIf b v).raw, chl := (s.vectorIf b v).chl, out := (s.vectorIf b v).out } := by
  unfold State.vectorIf; split
  · exact vector_frame s v
  · rfl

/-! ## Error completions -/

theorem elog_frame (s : State) (m : Master) (k : ElogKind) (off : Nat) (b : Bool) :
    s.elog m k off b = { s with regs := (s.elog m k off b).regs } := by
  unfold State.elog; dsimp only; split <;> rfl

theorem errComp_frame (s : State) (m : Master) (k : ElogKind) (off : Nat) :
    s.errComp m k off = { s with regs := (s.errComp m k off).regs, busErr := true, jtag := (s.errComp m k off).jtag, out := (s.errComp m k off).out } := by
  unfold State.errComp State.errMark
  rw [elog_frame]
  cases m <;> rfl

/-! ## Fault records -/

/-- What generating a fault record can change (R645 to R649). -/
def FltOnly (s t : State) : Prop := t = { s with regs := t.regs, raw := t.raw, flt := t.flt, tel := t.tel, chl := t.chl, out := t.out }

theorem FltOnly.trans {s t u : State} (h : FltOnly s t) (h' : FltOnly t u) : FltOnly s u := by
  unfold FltOnly at *; rw [h', h]

theorem fltOnly_vector (s : State) (v : Nat) : FltOnly s (s.vector v) := by
  unfold FltOnly; rw [vector_frame]

theorem fltOnly_fltIrq (s : State) : FltOnly s s.fltIrq := by
  unfold State.fltIrq; split
  · refine FltOnly.trans ?_ (fltOnly_vector _ _); rfl
  · rfl

theorem fltOnly_fltDrop (s : State) (r : FaultRec) : FltOnly s (s.fltDrop r) := by
  unfold State.fltDrop; dsimp only; split
  · rfl
  · refine FltOnly.trans ?_ (fltOnly_fltIrq _); rfl

theorem fltOnly_fltNumber (s : State) (r : FaultRec) : FltOnly s (s.fltNumber r) := by
  unfold State.fltNumber; dsimp only; split
  · rfl
  · refine FltOnly.trans ?_ (fltOnly_fltDrop _ _); rfl

/-- A fault record changes the fault queue's registers and staging, its telemetry count, and what an interrupt changes. -/
theorem fltOnly_fault (s : State) (r : FaultRec) : FltOnly s (s.fault r) := by
  unfold State.fault; split
  · exact fltOnly_fltNumber s r
  · rfl

/-! ## Writes that any master may make -/

/-- An admitted write does what it does live. -/
theorem State.openWrite_admits (s : State) (m : Master) (off : Nat) (live : State → State) (h : s.Admits m off) :
    s.openWrite m off live = live (s.begun m) := by
  have e : (s.begun m).early m off true = false := by
    have : (s.begun m).get R.BOOT_STAT_PHASE = 3 := h.ready
    simp [State.early, this]
  have r : (m == .m3 && !m3Reach off) = false := by
    cases m <;> simp; exact h.reach rfl
  have a : (s.begun m).domLive 0 = true := h.fabric
  have d : (domOf off).any (fun d => !(s.begun m).domLive d) = false := by
    have := h.domain
    cases hd : domOf off <;> simp_all
    exact this
  simp only [State.openWrite, s.access_active m h.active, r, e, a, d, Bool.false_eq_true, if_false, Bool.not_true, Bool.false_and]

end Sys2Proof.Machine
end

