-- ==== Sys2Proof/WellFormed.lean ====
section
/-!
DEFINITION. Which operands a command can have: what the types of Syntax.lean do not already bound.
-/

namespace Sys2Proof

/-- Foreign data by address: addresses strictly rising. -/
def risingCells : List Host.Cell → Bool
  | a :: b :: l => decide (a.1 < b.1) && risingCells (b :: l)
  | _ => true

/-- An access size that a master can make (R9): 1, 2, 4 or 8 bytes. -/
def sizeOk (size : Fin 9) : Bool := [1, 2, 4, 8].contains size.val

/-- A transfer that stays in one line of 128 bytes (R149). -/
def inLine (addr n : Nat) : Bool := addr % 128 + n ≤ 128

/-- An environment of a bring-up: four DRAM trainings (R579) of four channels (R20), a link speed and width that PCI Express has. -/
def BootEnv.wellFormed (e : BootEnv) : Bool :=
  e.dram.length == 4 && e.dramChan < 4 && e.link.all fun l => 1 ≤ l.1 && l.1 ≤ 6 && 1 ≤ l.2 && l.2 ≤ 16

def BusEnv.wellFormed (e : BusEnv) : Bool := e.boot.wellFormed && e.m1dies.all (· < 8) && e.obj.1 ≤ 3

def ChlEnv.wellFormed (e : ChlEnv) : Bool := e.bus.wellFormed && e.t2 < 2 ^ 80 && e.t3 < 2 ^ 80 && e.tlp.all (· < 2 ^ 64)

namespace Instr

/-- The operands agree among themselves and with the spec's lengths. A command whose operands do not still has the effect its meaning
gives it, with lists cut or filled up with zeros. -/
def wellFormed : Instr → Bool
  | registerWrite _ _ size _ e => sizeOk size && e.wellFormed
  | rwinWindowAccess _ _ size _ _ e => sizeOk size && e.wellFormed
  | sinterAccess _ k addr _ n _ data _ _ _ => inLine addr.toNat n.toNat && (k != .write || inLine addr.toNat data.length)
  -- a line's data (R149), the data flits of a message (R430), a FWBLK (R566)
  | sinterFill _ _ data => data.length ≤ 128
  | chlWr _ _ _ _ _ n data _ => data.length == 128 * (n.toNat + 1)
  | chlWrp _ _ _ _ _ _ data _ => data.length == 128
  | chlRdr _ _ _ _ _ n data _ => n.toNat ≤ 32 && data.length == 128 * n.toNat
  | fwblk _ _ data e => data.length == 4096 && e.wellFormed
  -- a flit's body (R428); HELLO's nonce and key (R440); the records of R557
  | flitReceive _ body _ plain e => body.length == 128 && plain.length == 128 && e.wellFormed
  | hello _ _ nonce key _ e => nonce.length == 32 && key.length == 64 && e.wellFormed
  | flashrec _ _ _ journal rec_ => rec_.length == (if journal then 256 else 32)
  -- a chain has at most eight dies (R5)
  | rollCall walk _ => walk.length ≤ 7 && walk.all fun d => d.uid < 2 ^ 128 && d.inPort < 2 && d.held.all (· < 8)
  | bar4Access _ write n data _ => if write then data.length == n.toNat else data.isEmpty
  -- a panel returns at most four bytes, a serial command at most 64 (R377, R626)
  | dcsDone _ _ rd => rd.length ≤ 4
  | serCmdEnd _ _ _ data => data.length ≤ 64
  -- rows of one length
  | aocFrame rows => rows.all fun r => r.length == (rows.headD []).length
  | ownHb _ _ dies => dies.all (· < 8)
  -- foreign data
  | blockRestore _ _ ext | loadCompletion _ _ ext | xferCopyComplete _ _ ext | prf _ _ _ ext | tex _ _ _ ext | surfLd _ _ _ ext
  | surfSt _ _ _ ext | queueMakeResident ext | queueEvict ext | packetFetch _ ext | packetParse _ ext | packetCommit _ ext
  | packetRetire _ ext | graphPatch _ ext | vertexBatch ext | primitiveBinning ext | binSpill ext | tileAssign ext
  | dcoFrameStart _ _ ext => risingCells ext
  -- environments
  | hifApertureResolve _ _ _ e | txnBoundaryApply _ e | dapregRead _ e | dapregWrite _ _ e => e.wellFormed
  | flr e | s3ExitComplete _ _ e | mbxRestart e | wdtStage2Expiry e | porRelease e | cruRstWarm _ _ e | cruRstChn _ _ _ e | pinRelease e
  | mbxDone _ e => e.wellFormed
  | proof _ _ e | regreq _ _ _ _ _ _ e | chnrst _ e | chlGtag _ _ e => e.wellFormed
  -- every other command has operands that its types bound
  | rwinForwardTimeout | blockPlacement | issueAgeLimit _ _ | reconvergence _ _ _ | repack _ _ | cohortDeadlock _ _ _
  | preemptRequest _ | preemptSave _ | blockTermination _ _ _ | blockRetire _ _ | atomicCompletion _ _ _ _ | iadd _ _ _
  | isub _ _ _ | imul _ _ _ | imad _ _ _ | imin _ _ _ | imax _ _ _ | iand _ _ _ | ior _ _ _ | ixor _ _ _ | shl _ _ _
  | shr _ _ _ | popc _ _ _ | clz _ _ _ | bfe _ _ _ | setpI _ _ _ | sel _ _ _ | fadd _ _ _ | fmul _ _ _ | ffma _ _ _
  | fmin _ _ _ | fmax _ _ _ | setpF _ _ _ | frnd _ _ _ | hadd2 _ _ _ | hmul2 _ _ _ | hfma2 _ _ _ | hmin2 _ _ _ | hmax2 _ _ _
  | setpH2 _ _ _ | hdot2 _ _ _ | cvt _ _ _ | rcp _ _ _ | rsq _ _ _ | sqrt _ _ _ | exp2 _ _ _ | log2 _ _ _ | sin _ _ _
  | cos _ _ _ | tanh _ _ _ | ld _ _ _ | st _ _ _ | atomAdd _ _ _ | atomMin _ _ _ | atomMax _ _ _ | atomAnd _ _ _ | atomOr _ _ _
  | atomXor _ _ _ | atomExch _ _ _ | atomCas _ _ _ | atomFadd _ _ _ | atomInc _ _ _ | bra _ _ _ | brx _ _ _ | call _ _ _
  | ret _ _ _ | exit _ _ _ | barBlock _ _ _ | nop _ _ _ | trap _ _ _ | shfl _ _ _ | vote _ _ _ | ballot _ _ _ | red _ _ _
  | scan _ _ _ | matchLanes _ _ _ | tileLd _ _ _ | tileSt _ _ _ | xfer _ _ _ | xferWait _ _ _ | fragKill _ _ _ | mov _ _ _
  | rdsr _ _ _ | fence _ _ _ | plop _ _ _ | p2r _ _ _ | regToPredicate _ _ _ | tmaMm _ _ _ _ | accDrain _ _ _ _ | accCopy _ _ _ _
  | tmaMmf _ _ _ | accSwap _ _ _ | accZero _ _ _ | accLd _ _ _ | accSt _ _ _ | accMax _ _ _ | accMin _ _ _ | accTopk _ _ _
  | accFlags _ _ _ | tmaWait _ _ _ | fragLd _ _ _ | fragSt _ _ _ | tephraOpStart _ | tephraOpComplete _ | geyserOpStart _
  | geyserOpComplete _ | tphSeedWrite _ _ _ | wcBufferIdleFlush _ | streamTrackerTimeout _ | wayWindowRestart _ _
  | sinMaintClean _ _ _ _ | sinMaintCleanInvalidate _ _ _ _ | sinMaintDiscard _ _ _ | sinMaintDone | sinPolicyWrite _ _ _
  | sinTransitionDone | vaTranslate _ _ _ _ | missHandlerGrant | atsCompletion _ _ _ _ _ _ _ _ | atsCompletionTimeout _
  | pageRequestSend | prgResponse _ _ | priReset _ _ | atsInvalidateRequest _ _ _ _ _ | invalidateDone _ | dtuInvRange _ _ _
  | dtuInvPasid _ _ | dtuInvAll _ | dtuAcFlush _ | dtuMnEnable _ _ | dtuMnConsWrite _ _ | dtuDmwinWrite _ _ _ | synSignal _ _
  | synQuery _ | synClearErr _ | synDestroy _ | synResume _ | synFlush _ | importPortSignal _ _ _ | teardownQueue _
  | teardownContext _ | teardownComplete _ _ | doorbell _ _ _ _ | pktNop _ | pktDispatch _ | pktCond _ _ _ | pktRecord _
  | pktWrite _ | graphLaunch _ | emberIdlePowerOff _ | preemptDecision | queueDeadlineMiss _ | rpBegin _ | rpState _ | rpDraw _
  | rpEnd _ | tvuSegment _ _ | fragmentCohort _ _ | tileKernelBlock _ _ | tileResolve _ _ | l1Invalidate _ _ | gfxCalresWrite _ _
  | dcoChannelEnable _ _ _ _ _ | dcoChannelDisable _ _ _ _ _ | dcoChannelStop _ | dcoLatch _ _ | dcoCommitSubmit _ _ _
  | dcoCommitCheck _ _ _ _ | dcoUnderflow _ _ _ | dcoMeshLoad _ _ _ _ _ | dcoMeshLoadDone _ _ | dcsGo _ _ _ _ _ _
  | cifPortEnable _ _ _ _ _ _ | cifPortDisable _ _ _ _ _ _ | csiFrameStartPacket _ _ _ | csiLongPacket _ _ _ _ _ _ _
  | csiFrameEndPacket _ _ _ | cifFrameComplete _ | fsyncPulse _ | rtcCapture _ | meResult | fieGo _ _ _ | fieRunDone
  | comparatorTrip _ _ | mcuRun _ _ _ | extWait | extWake | extFieRun _ | extLog _ _ | extTime | extMbox _ _ | extEntryTimeout
  | chlPortEnable _ _ _ _ _ | chlPortDisable _ _ _ _ _ | chlDetectPoll _ _ | chlTrainRate _ _ _ _ _ _ _ _ _ | chlRetrain _ _
  | chlHoldExpiry _ | lossOfSignal _ | creditTimeout _ | requestTimeout _ | authRetry _ | redetectTimer _ | nakResendTimer _
  | replayTimeout _ | chlIdle _ | chlAck _ _ | chlNak _ _ | chlCredit _ _ _ | chlRd _ _ _ _ _ | chlRdb _ _ _ _ _ _
  | chlAtm _ _ _ _ _ _ _ _ _ _ | chlRsp _ _ _ _ _ _ | sigpend _ _ _ _ _ | chlSig _ _ _ _ _ _ | chlWait _ _ _ _ _ _
  | chlWaitsat _ _ _ _ _ _ | chlDb _ _ _ _ _ _ | objchk _ _ _ _ _ | objres _ _ _ _ _ _ | chlInv _ _ _ _ _ _ _ _
  | chlInvdone _ _ _ _ | prxreq _ _ _ _ _ _ _ _ | prxrsp _ _ _ _ _ _ _ _ _ _ _ _ _ | rollinfo _ _ _ _ _ _ _ _ _
  | rollset _ _ _ _ _ _ _ _ _ | regrsp _ _ _ _ _ _ _ | tsyncReq _ _ _ _ | tsyncRsp _ _ _ _ | tsyncFollow _ _ | chlSleep _
  | chlWake _ _ _ | chlDmwin _ _ _ _ _ | chlIrq _ _ _ _ _ | slotreq _ _ _ _ _ _ _ _ | slotgrant _ _ _ _ _ _ _ _
  | slotret _ _ _ _ _ _ _ _ | bootrepReport _ _ _ _ _ _ _ _ | chlRollreq _ | tsyncInterval _ | bar4Atomicop _ _ _ _ _
  | hifLinkReset _ _ _ _ | ownClaim _ _ | ownForcedClaim _ _ | electionWindowEnd | leaseExpiry | ownRelease _ _ | ownOffer _ _ _
  | offerLapse | txnBegin _ _ | txnCommit _ _ _ _ | txnAbort _ _ | txnTimeout _ | eclkRequest _ _ | eclkRailSettled _
  | eclkVddTimeout | fclkSwitch | rpllUnlock _ | rpllRelock _ | tbSet _ _ | tbCapture _ _ | pwrReqS2 _ | pwrReqS3 _ | pwrReqS4 _
  | domainDrainDone _ | stateEntryComplete _ | s1Entry | s1Exit | s2ExitComplete | pwrGoodRise | pwrGoodTimeout
  | pwrDomReqWrite _ _ | rampPass _ | rampWindowAbort _ | rampCurrentAbort _ | powerMeasurement _ | thermalControlRead
  | thermalSensorConversion _ _ | padHoldRelease _ | slotWaitTimeout | chainwaitExpiry | mbxInfo | mbxFlashWrite _
  | mbxFlashErase _ | mbxSetTrial _ | bootConfirm _ | bootSvnadv _ _ | padPinEvent _ _ | serPrivateTransfer _ _ _ _ _ _
  | serBroadcastCcc _ _ _ _ _ _ | serDirectCcc _ _ _ _ _ _ _ | serEntdaa _ _ _ _ | serIbi _ _ _ | serSclTimeout _ _ | wdtKick _ _
  | wdtStop _ _ | wdtStage1Expiry | faultRecordWrite _ | fqConsWrite _ _ _ | fqEnable _ _ _ | telSnap _ | telClr _ | porReset
  | pinReset | engResetHif _ | engResetTxn _ | engResetDtu _ | engResetSin _ | engResetDco _ | engResetCif _ | engResetPad _
  | engResetFum _ | engResetEmber _ _ | dapstatClear | jtagExtest _ _ _ _ | jtagSamplePreload _ _ _ _ | jtagClamp | jtagHighz
  | jtagIdcode | jtagBypass | tapReset | fsyncPulseEnd _ | flitupTimeout _ | authTimeout _ | dtuAcFlushDone | synCmdDone _ _ _ _ => true

end Instr

end Sys2Proof
end

