-- ==== Sys2Proof/Tests/Slice0.lean ====
section
/-!
SUPPORT. Tests: single steps on small states, and for each statement of Certificates/Slice0 a state that meets its hypotheses.
-/

namespace Sys2Proof.Tests
set_option Elab.async false
open Sys2Proof.Machine

/-- What a function says of the next state. -/
def at_ {α : Type} (c : Instr) (s : State) (f : State → α) : Option α :=
  match exec c s with
  | .next t => some (f t)
  | _ => none

/-- A die that is up in S0 with every domain on; OWN_STAT.STATE is `st` and the owner `m`. -/
def up (m : Master) (st : Nat) : State :=
  (((((({ State.reset with rst := {} }).set R.BOOT_STAT_PHASE 3).set R.PWR_DOM_ON_ON_DOM 0xFF).set R.PWR_DOM_ON_ON_EMB 0xFFFF).set
    R.OWN_STAT_STATE st).set R.OWN_STAT_OWNER m.idx).set R.CHL_STAT_ROOT 1

/-- The same owned by M0, with slot 0 holding block 7 in a state. -/
def slotUp (st : Nat) : State := ((up .m0 2).set R.TXN_S_STAT_STATE st).set R.TXN_S_BLK_MASK 0x80

/-- The fault ring of 16 at 0x1000 on: one record staged (1), drops to report as well (2), or full (3). -/
def ringUp (k : Nat) : State :=
  let s := (((up .m0 2).set R.FQ_CFG_EN 1).set R.FQ_CFG_LOG2SZ 4).set R.FQ_BASE_ADDR 1
  let s := s.set R.BOOT_DRAM_SIZE 8192
  { s.set R.FQ_PROD_PROD (if k = 3 then 16 else 0) with
    flt := { staged := [{ cls := 9, cause := 2 }], sum := if k = 2 then some ⟨1, 8, 4, 4⟩ else none } }

/-- ECLK on its way up to a step. -/
def moving (k : Nat) : State :=
  let s := ((up .m0 2).set R.CRU_ECLK_REQ_STEP k).set R.CRU_ECLK_STAT_BUSY 1
  { s with cru := { s.cru with move := some ⟨k, true⟩ } }

/-- Die 2 of a chain, with die 0 on port 0. -/
def chained : State :=
  ((((up .m0 2).set R.CHL_STAT_ROOT 0).set R.CHL_ROLL_VALID 1).set R.CHL_ROLL_DIE 2).set R.CHL_ROUTE_ROUTE0 0

/-- The same with an exchange that lacks FOLLOW. -/
def exchanging : State :=
  { chained with cru := { chained.cru with exSeq := 1, exT1 := some 0, exRsp := some (65536, 65536, true) } }

/-- Capture 0 enabled on its pin. -/
def capturing : State := (up .m0 2).set R.CRU_TB_CAPCTL_EN 1

/-- 8 GiB of DRAM fitted. -/
def dram : State := (up .m0 2).set R.BOOT_DRAM_SIZE 8192

/-- A fill on its way, a combining buffer, and a full way window. -/
def filling : State :=
  { dram with sin := {
    fills := [{ line := 0x80, host := false, remote := false, age := 1 }], wc := [{ slice := 1, line := 0x100, mask := 1, under := [] }],
    win := [(18, (2 ^ 20, 0))] } }

/-- A maintenance walk and a transition that run. -/
def maintaining : State := { dram with sin := { maint := some (3, true, false), trans := some { rgn := [], defpol := 1 } } }

/-- Sync object 3 at VALUE 7, context 3, and queue 3 in STATE 2, all of generation 1; SYN is set to signal object 3 with 9. -/
def synced : State :=
  let s := ((((dram.set R.SYN_CTL_EN 1).set R.SYN_TBL_BASE_ADDR 1 0).set R.SYN_TBL_BASE_ADDR 2 1).set R.SYN_TBL_BASE_ADDR 3 2).set
    R.SYN_TBL_BASE_ADDR 4 3
  let s := ((s.set R.SYN_TBL_CFG_LOG2N 4 0).set R.SYN_TBL_CFG_LOG2N 4 1).set R.SYN_TBL_CFG_LOG2N 4 2
  let s := ((s.memSet 0x10C0 8 7).memSet 0x10E0 4 0x210000).memSet 0x2180 4 0x10001
  let s := (s.memSet 0x30C0 4 0x10002).memSet 0x30C4 4 0x01000003
  ((((s.set R.SYN_CMD_H_HANDLE 0x01000003).set R.SYN_CMD_ARG_VALUE 9).set R.SYN_ABORT_H_HANDLE 0x01000003).set
    R.SYN_XSIG_H_HANDLE 0x01000003 0).set R.SYN_XSIG_H_HANDLE 0x02000003 1

/-- Translation on for stream 5 with PASID 9: page 0x5000 in the ATC, a store's miss of page 0x8000 with a handler. -/
def handler : DtuHnd := { tag := 3, miss := { stream := 5, pasid := 9, page := 0x8000, nw := false, who := [⟨[0, 1], .store, 5⟩] } }
def translating : State :=
  let s := (up .m0 2).set R.DTU_CTL_EN 1
  { s with dtu := { s.dtu with
    pasid := [(5, 9)], atc := [⟨9, 0x5000, 12, 0x77000, true, false, false⟩], hnd := [handler], priEnable := true, priAlloc := 8 } }

/-- The same miss without a handler. -/
def missing : State := { translating with dtu := { translating.dtu with hnd := [], miss := [handler.miss] } }

/-- Park entry 0 with its request out, entry 1 unsent; an invalidation of the driver that nothing holds back. -/
def parking : State :=
  { translating with dtu := { translating.dtu with
    park := [
      { prgi := 0, stream := 5, pasid := 9, page := 0x1000, w := false, who := [⟨[0, 1], .load, 5⟩], sent := true },
      { prgi := 1, stream := 5, pasid := 9, page := 0x2000, w := false, who := [⟨[0, 2], .load, 5⟩] }],
    invq := [⟨0, 0, 0x1000, none, none, []⟩], invSeq := 1 } }

/-- A counter of 7 for granule 2 in the cache, the table at 0x4000. -/
def counting : State :=
  let s := dram.set R.DTU_AC_TBL_ADDR 4
  { s with dtu := { s.dtu with ac := [(2, 7)] } }

/-- Packet 7 of queue 3 in slot 5, of a type with awaits, committed; packet 8 waits on its predicate. Slot 5 translates page 0x5000 to
0x77000 of this die. -/
def packet (ty : Nat) (aw : List PkAwait) : Pkt :=
  { id := 7, q := 3, sub := 0, off := 0, stage := .committed, pred := some true, awaits := aw
    bytes := if ty = 4 then [4, 3, 0, 0, 0, 0, 0, 0, 0, 0, 0, 0, 0, 0, 0, 0, 0x10, 0x50, 0, 0, 0, 0, 0, 0, 1, 0, 0, 0, 0, 0, 0, 0, 0xAB]
      else if ty = 2 then [2, 2, 0, 0, 0, 0, 0, 0, 0, 0, 0, 0, 0, 0, 0, 0, 3, 0, 0, 1, 0, 0, 0, 0, 7]
      else [ty] }
def windowed (ty : Nat) (aw : List PkAwait) : State :=
  let s := ((synced.set R.DTU_CTL_EN 1).set R.DTU_DMWIN_BASE_EN 1).set R.DTU_DMWIN_LIM_ADDR 7
  { s with
    dtu := { s.dtu with pasid := [(5, 9)], atc := [⟨9, 0x5000, 12, 0x77000, true, true, false⟩] }
    wsp := { s.wsp with
      qs := [(3, { slot := some 5, gen := 1, ctx := 0x01000003 })], nextId := 9
      win := [packet ty aw, { id := 8, q := 3, sub := 0, off := 32, bytes := [0], stage := .parsed, predBy := some 7 }] } }

/-- Queue 3 on page 0 with a ring of 16, active, not resident; and resident in slot 5 with a submission to read (1), with a submission
whose next packet is a NOP (3), or one of LEN 0 (2). -/
def ringing : State := (synced.set R.WSP_CTL_EN 1).qSetState 3 1
def fetching (k : Nat) : State :=
  let s := windowed 0 []
  let s := (s.set R.WSP_CTL_EN 1).qSetState 3 1
  let sub : WspSub := { idx := 0, cbva := if k = 2 then 0x5000 else 0x5020, cblen := 64, subid := 0, dl := 0, after := false, next := if k = 2 then 16 else 0 }
  let x : WspQ := { slot := some 5, gen := 1, ctx := 0x01000003, rbase := 0x5000, tail := 1, subs := if k = 1 then [] else [sub] }
  let s := { s with wsp := { s.wsp with win := [], nextId := 1, qs := [(3, x)] } }
  ((s.memSet 0x77000 8 0x5010).memSet 0x77008 4 (if k = 1 then 64 else 0x100)).memSet 0x77010 4 (if k = 2 then 0x40 else 0) |>.memSet 0x77020 4 0x100

/-- Packet 7 of queue 3, a NOP that signals object 3 with 9, in a stage and with a refusal; and a submission whose deadline has passed. -/
def parsingP (st : PkStage) (r : Nat) : Pkt :=
  { id := 7, q := 3, sub := 0, off := 0, stage := st, ref_ := r, pred := some true
    sigs := if st = .fetched then [] else [{ h := 0x01000003, n := 9 }]
    bytes := [0, 2, 0, 0, 0, 0, 0, 0, 0x10, 0, 0, 0, 0, 0, 0, 0, 3, 0, 0, 1, 0, 0, 0, 0, 9, 0, 0, 0, 0, 0, 0, 0] }
def parsingQ : WspQ :=
  { slot := some 5, gen := 1, ctx := 0x01000003, tail := 1
    subs := [{ idx := 0, cbva := 0x5000, cblen := 64, subid := 2, dl := 0, after := false, next := 32 }] }
def parsing (st : PkStage) (r : Nat) : State :=
  let s := ((windowed 0 []).set R.WSP_CTL_EN 1).qSetState 3 1
  let s := s.memSet 0x10E4 4 3
  { s with wsp := { s.wsp with
      win := [parsingP st r], qs := [(3, parsingQ)]
      ctxs := [{ h := 0x01000003, pasid := 9, errpol := 0, priomax := 0, group := 0, save := 0 }] } }
def lateQ (missed : Bool) : WspQ :=
  { parsingQ with subs := [{ idx := 0, cbva := 0x5000, cblen := 64, subid := 2, dl := 5, after := false, next := 32, missed }] }
def late (missed : Bool) : State :=
  let s := (parsing .parsed 0).set R.CRU_TB_NOW_TBASE 9
  { s with wsp := { s.wsp with qs := [(3, lateQ missed)] } }

/-- Queue 3 active and in line with an active context; and resident in slot 5, being evicted. -/
def inLine : State :=
  let s := (synced.qSetState 3 1).memSet 0x30C4 4 0x01000003
  let s := (s.memSet 0x2180 4 0x10001).memSet 0x2184 4 9
  { s with wsp := { s.wsp with runq := [3] } }
def leavingQ : WspQ := { slot := some 5, gen := 1, ctx := 0x01000003, head := 4, tail := 6, evict := true }
def leaving : State :=
  { synced with wsp := { synced.wsp with qs := [(3, leavingQ)] }, dtu := { synced.dtu with pasid := [(5, 9)] } }

/-- A patch of node 0 of the graph at VA 0x5000: one node in pool slot 0 of 2, map 0 current; pool at 0x5200, maps at 0x5400. -/
def patchP : Pkt :=
  { id := 7, q := 3, sub := 0, off := 0, stage := .committed, pred := some true
    bytes := [6, 19] ++ List.replicate 14 0 ++ [0, 0x50] ++ List.replicate 6 0 ++ [1] ++ List.replicate 7 0 ++ List.replicate 16 0 ++ [0x77] }
def patching : State :=
  let s := windowed 0 []
  let s := { s with wsp := { s.wsp with win := [patchP] } }
  let s := (s.memSet 0x77000 4 1).memSet 0x77018 8 0x5200 |>.memSet 0x77020 2 2
  (s.memSet 0x77028 8 0x5400).memSet 0x77030 8 0x5100 |>.memSet 0x77100 2 1

/-- A DISPATCH of 8 blocks of 64 threads, running, none placed; a block with one thread in entry 1 of Ember 0, slot 2. -/
def launchP : Pkt :=
  { id := 7, q := 3, sub := 0, off := 0, stage := .running, pred := some true, launch := some {}
    bytes := [1, 6] ++ List.replicate 34 0 ++ [8] ++ List.replicate 27 0 ++ [64, 8, 64, 0, 8, 0, 0, 0, 1, 0, 1] ++ List.replicate 9 0 ++ [8, 0, 0, 0, 1, 0, 1, 0] }
def launching : State :=
  let s := (windowed 1 []).set R.BOOT_PROF_EMBMAX 16
  { s with wsp := { s.wsp with win := [launchP] } }
def blk0 : Block := { info := {} }
def runningB : Block :=
  { info := { pk := 7, n := 16 }, cohorts := [(0, { sched := 0, lanes := [(0, .run)], pcs := [(0, 0x40)], v := [(32, 5), (64, 7)] })] }
def holding (k : Block) : State :=
  let s := launching
  s.emPut 0 { (s.em 0).blkPut 2 k with entries := [(1, { blk := 2, parts := [(0, 1)], stamp := 0 })] }

/-- The block is to be saved; its context's save area lies beyond the DRAM (true). A saved block that comes back. -/
def asked (far : Bool) : State :=
  let s := holding runningB
  let s := { s with wsp := { s.wsp with ctxs := [{
    h := 0x01000003, pasid := 9, errpol := 0, priomax := 0, group := 0, save := if far then 2 ^ 42 else 0 }] } }
  s.emPut 0 { s.em 0 with pre := some { blks := [(2, 0x01000003, 1)], got := true } }
def savedV : Saved := { addr := 0xC0000, ctx := 0x01000003, seg := 1, blk := { runningB with cohorts := [(0, { sched := 0 })] } }
def returning : State := { (parsing .done 0).set R.BOOT_PROF_EMBMAX 16 with saved := [savedV] }

/-- A launch whose block needs all registers of Ember 0, which a block of lower priority holds. -/
def crowdP : Pkt := { launchP with bytes := launchP.bytes.set 0x3C 1 }
def wideB : Block :=
  { info := { pk := 8, prio := 3, n := 128 }
    cohorts := (List.range 16).map fun c => (c, { sched := c % 4, lanes := [(0, .run)] }) }
def crowded : State :=
  let s := launching
  let s := { s with wsp := { s.wsp with
    win := [crowdP, { launchP with id := 8, launch := some { next := 8, live := 1 } }]
    qs := [(3, { slot := some 5, gen := 1, ctx := 0x01000003, prio := 0 })]
    ctxs := [{ h := 0x01000003, pasid := 9, errpol := 0, priomax := 0, group := 0, save := 0 }] } }
  s.emPut 0 ((s.em 0).blkPut 2 wideB)

/-- Ember 15 idle for 2 seconds. -/
def idleUp : State :=
  let s := ((dram.set R.BOOT_PROF_EMBMAX 16).set R.WSP_GATE_MINON 4).set R.CRU_TB_NOW_TBASE 200000000
  { s with wsp := { s.wsp with idle := [(15, 0)] } }

/-- The block with 64 bytes of Caldera (byte 4 is 9), v1 = 4 and v2 = 7; and with v0:v1 = 0x5010, v4 = 3 and device memory there 20. -/
def memB : Block :=
  { info := { pk := 7, n := 16, cal := 64, stream := 5 }, cal := [(4, 9)]
    cohorts := [(0, { sched := 0, lanes := [(0, .run)], pcs := [(0, 0x40)], v := [(32, 4), (64, 7)] })] }
def gB : Block :=
  { info := { pk := 7, n := 16, stream := 5 }
    cohorts := [(0, { sched := 0, lanes := [(0, .run)], pcs := [(0, 0x40)], v := [(0, 0x5010), (128, 3)] })] }
def gAtom : State := (holding gB).memSet 0x77010 4 20
def outA : PendAcc := { id := 9, coh := 0, lane := 0, va := 0, n := 4, loc := some (.host 0), k := .atomic 0 4 1 false 1 0 true }
def outB : Block := { memB with pend := [outA] }

/-- A thread that waits for an entry beside the running one; two threads at their reconvergence point; two entries that can be packed; a
thread at a founding barrier whose partner waits at a reconvergence point. -/
def pairB : Block := { runningB with cohorts := [(0, { sched := 0, lanes := [(0, .run), (5, .want)], pcs := [(0, 0x40), (5, 0x40)] })] }
def joinB : Block :=
  { runningB with cohorts := [(0, { sched := 0, lanes := [(0, .recon), (1, .recon)], pcs := [(0, 0x80), (1, 0x80)]
                                    levels := [{ addr := 0x80, sides := [1, 2] }] })] }
def packable : State :=
  let s := (launching.set R.EMB_CTL_REPACK_EN 1 0).set R.EMB_CTL_REPACK_MIN 2 0
  let k : Block := { info := { pk := 7, n := 16 }, cohorts := [
    (0, { sched := 0, lanes := [(0, .run)], pcs := [(0, 0x40)] }), (4, { sched := 0, lanes := [(1, .run)], pcs := [(1, 0x40)] })] }
  s.emPut 0 { (s.em 0).blkPut 2 k with
    entries := [(0, { blk := 2, parts := [(0, 1)], stamp := 0 }), (1, { blk := 2, parts := [(4, 2)], stamp := 1 })] }
def deadB : Block :=
  { runningB with cohorts := [(0, { sched := 0, lanes := [(0, .coll 0 3 true), (1, .recon)], pcs := [(0, 0x40), (1, 0x80)] })] }

/-- Two threads of one cohort with v1 = 4 and 5, v2 = 1 and 1, in one entry. -/
def gangB : Block :=
  { info := { pk := 7, n := 16, cal := 8192, tiles := 8 }
    cohorts := [(0, { sched := 0, lanes := [(0, .run), (1, .run)], pcs := [(0, 0x40), (1, 0x40)], v := [(32, 4), (33, 5), (64, 1), (65, 1)] })] }
def gangEn : Entry := { blk := 2, parts := [(0, 3)], stamp := 0 }
def ganging (k : Block) : State :=
  let s := holding k
  s.emPut 0 { s.em 0 with entries := [(1, gangEn)] }

/-- An operation of the block with charge 24 on the primary of tile 0, of another thread. -/
def tOp : TOp := { id := 0, blk := 2, coh := 0, lane := 0, grp := 0, charge := 24, k := .copy [0] false false 0 }

def fullQ (k : Block) : State :=
  let s := ganging k
  s.emPut 0 { s.em 0 with tq := List.replicate 16 tOp, gq := List.replicate 8 tOp }

/-- An Ember whose queues hold one operation: a multiply of zeros into tile 0, a drain of it to Caldera at 0, a copy of it to Caldera. -/
def mmK : TKind := .mm [0] false 3 3 32 ⟨0, 32, false⟩ ⟨0, 16, false⟩
def drK : TKind := .drain [[0]] 12 0 false 0 none false false 0 64
def cpK : TKind := .copy [0] false false 0
def queued (x : TKind) : State :=
  let s := ganging gangB
  s.emPut 0 { s.em 0 with tq := [{ tOp with id := 1, k := x }], gq := [{ tOp with id := 1, k := x }] }

/-- One thread with eight tiles; and tiles whose flags of primary 0 and shadow 1 are set. -/
def runningT : Block := { runningB with info := { runningB.info with tiles := 8 } }
def tsatB : Block := (gangB.setTsat 0 true).setTsat 3 true

/-- Bytes with fields (offset, length, value). -/
def body (n : Nat) (l : List (Nat × Nat × Nat)) : List Nat :=
  bytesAt 0 (l.foldl (fun m x => putBytes 0 m x.1 (toBytes x.2.1 x.2.2)) []) 0 n

/-- Pass 20 of 64 × 64 pixels in tiles of 32 × 32, one view, one RGBA8 attachment; its tile kernel's thread, whose v1 names pixel (3, 2)
where R is full and A zero; a fragment thread that covers pixel (2, 2). -/
def passBytes : List Nat := body 0x80 [(0x34, 4, 64 + 64 * 2 ^ 14), (0x38, 4, 0x10050), (0x40, 8, 0x10000), (0x48, 4, 0x1004)]
def tileB : Block :=
  { info := { kind := .kernel, pk := 20, n := 16, cal := 8192 }, cal := [(268, 255)]
    cohorts := [(0, { sched := 0, lanes := [(0, .run)], pcs := [(0, 0x40)], v := [(32, 0x20003)] })] }
def fragB : Block :=
  { info := { kind := .fragment, pk := 20, n := 16, cal := 8192 }
    cohorts := [(0, { sched := 0, lanes := [(0, .run)], pcs := [(0, 0x40)]
                      frag := some { quads := [{ x := 2, y := 2, draw := 0, prim := 0, cov := [1, 0, 0, 0], late := [[], [], [], []] }] } })] }
def painting (k : Block) : State :=
  let s := holding k
  { s with gfx := { passes := [{ id := 20, q := 3, prio := 0, subid := 0, off := 0, body := passBytes }] } }

/-- A block with a copy of 16 bytes from VA 0x5010 to Caldera 0x20 outstanding. -/
def copy7 : XCopy := { id := 7, coh := 0, lane := 0, grp := 0, up := false, va := 0x5010, cal := 0x20, len := 16, rows := 1, pitch := 16 }
def copyB : Block := { runningB with info := { runningB.info with cal := 64, stream := 5 }, copies := [copy7] }

/-- A thread whose v1 is 1 and v2 is 0, with one texture: 4 × 4 texels of RGBA8, linear, of a type; texel (1, 0) has R and A full. -/
def texB : Block :=
  { info := { pk := 7, n := 16, stream := 5, text := 0x5000, ntex := 1, samt := 0x5040, nsamp := 1 }
    cohorts := [(0, { sched := 0, lanes := [(0, .run)], pcs := [(0, 0x40)], v := [(32, 1)] })] }
def texing (ty : Nat) : State :=
  let s := (holding texB).memSet 0x77000 8 0x5080
  let s := (s.memSet 0x77008 4 (0x6880000 + 0x800 + 256 * ty + 4)).memSet 0x7700C 4 0x30003
  (s.memSet 0x77014 4 16).memSet 0x77084 4 0xFF0000FF

/-- Packet 21 of a type, of pass 20 or its RP_BEGIN; alone, or with the open pass of one draw of a triangle. -/
def passPk (ty : Nat) : Pkt :=
  { id := 21, q := 3, sub := 0, off := 0, stage := .committed, pred := some true, pass := 20, bytes := passBytes.set 0 ty }
def opening (ty : Nat) : State := { launching with wsp := { launching.wsp with win := [passPk ty] } }
def drawX : Draw := { pk := 22, body := body 0x40 [(0x18, 4, 3), (0x1C, 4, 1)], st := body 0x60 [(0x2C, 4, 0x1010), (0x54, 4, 0x42800000), (0x58, 4, 0x42800000)] }
def passX : Pass := { id := 20, q := 3, prio := 0, subid := 0, off := 0, body := passBytes, draws := [drawX] }
def drawing (ty : Nat) : State := { opening ty with gfx := { passes := [passX] } }

/-- The pass with its batch shaded, its buffers of `n` × 4 KiB; every vertex lies beyond x = w. -/
def theBatch : Batch := { prims := [[0, 1, 2]], verts := [0, 1, 2], base := 0x5000, placed := 1 }
def batchX (n : Nat) : Pass := { passX with body := body 0x80 [(0x28, 4, n), (0x2C, 4, n), (0x34, 4, 64 + 64 * 2 ^ 14), (0x38, 4, 0x10050)], batch := some theBatch }
def binning (n : Nat) : State :=
  let s := { opening 0x20 with gfx := { passes := [batchX n] } }
  [0, 16, 32].foldl (fun s o => (s.memSet (0x77000 + o) 4 0x40000000).memSet (0x7700C + o) 4 0x3F800000) s

/-- The pass in its final phase: an attachment that is cleared and discarded, one triangle in the bin of tile 0; with a tile kernel. Its tile
block before the triangle's segment, with a quad to shade, and through. -/
def triX : Prim := { draw := 0, front := true, view := 0, xy := [(0, 0), (2560, 0), (0, 2560)], z := [0, 0, 0], rw := [0, 0, 0], vars := [[], [], []] }
def tileP : Pass :=
  { passX with body := body 0x80 [(0x34, 4, 64 + 64 * 2 ^ 14), (0x38, 4, 0x10050), (0x40, 8, 0x10000), (0x48, 4, 0x1404)]
               phase := .final, prims := [triX], bins := [(0, [0])] }
def kernP : Pass := { tileP with kern := body 0x30 [(0x10, 8, 0x5000), (0x18, 4, 8), (0x1C, 4, 1 + 2 ^ 11)] }
def tileBk (t : TileSt) : Block := { info := { kind := .fragment, pk := 20, cal := 12288, res := 12288 }, tile := some t }
def segT : TileSt := { pass := 20, idx := 0 }
def segB : Block := tileBk segT
def cohT : TileSt := { pass := 20, idx := 0, next := 1, quads := [{ x := 0, y := 0, draw := 0, prim := 0, cov := [1, 0, 0, 0] }] }
def cohB : Block := tileBk cohT
def doneT : TileSt := { pass := 20, idx := 0, next := 1 }
def doneB : Block := tileBk doneT
def tiling (p : Pass) (l : List (Nat × Block)) : State :=
  let s := { opening 0x20 with gfx := { passes := [p] } }.set R.GFX_CALRES_RES 1
  s.emPut 0 { s.em 0 with blocks := l }

/-- Channel 0 of the display at 64 × 64, 90 Hz from TBASE 0, with a mesh; scanning frame 0 (and stopping); at a TBASE; and at the latch of
frame 1 with a commit pending (both channels, genlocked and paired). -/
def showC (s : State) (c : Nat) : State :=
  let s := [(R.DCO_C_HTIM0_HACT, 64), (R.DCO_C_HTIM0_HSA, 8), (R.DCO_C_HTIM1_HBP, 8), (R.DCO_C_HTIM1_HFP, 8), (R.DCO_C_VTIM0_VACT, 64),
    (R.DCO_C_VTIM0_VSA, 2), (R.DCO_C_VTIM1_VBP, 2), (R.DCO_C_VTIM1_VFPMIN, 2), (R.DCO_C_PERIOD_INT, 900000), (R.DCO_C_PASID_PASID, 9)].foldl
      (fun (s : State) (p : Field × Nat) => s.set p.1 p.2 c) s
  s.dcoUpd c fun x => { x with mesh := some { gw := 2, gh := 2, cell := 64, v := List.replicate 24 0 } }
def showing : State := showC dram 0
def scanning (stop : Bool) : State :=
  (((showC dram 0).set R.DCO_C_CTL_EN 1 0).set R.DCO_C_CTL_DLEN 1 0).dcoUpd 0 fun x => { x with on := true, stopping := stop, next := some 1, latch := 1 }
def startingF (t : Nat) : State := (scanning false).set R.CRU_TB_NOW_TBASE t
def commitK : DcoCommit := { wait := 7 }
def latching (both : Bool) : State :=
  let s := ((startingF 850000).dcoUpd 0 fun x => { x with pend := some commitK })
  if both then
    (((showC s 1).set R.DCO_CTL_GENLOCK 1).set R.DCO_CTL_PAIR 1).dcoUpd 1 fun x =>
      { x with on := true, next := some 1, latch := 1, pend := some { commitK with wait := 8 } }
  else s

/-- Camera port 0 for a window of 4 × 2 RAW8 pixels at VA 0x5000, headers at 0x5100; enabled with frames, at TBASE 200. An open frame; one that
is complete and written. -/
def viewing : State :=
  let s := { ((dram.set R.DTU_CTL_EN 1).set R.DTU_DMWIN_BASE_EN 1).set R.DTU_DMWIN_LIM_ADDR 7 with dtu := { dram.dtu with pasid := [(66, 9)], atc := [⟨9, 0x5000, 12, 0x77000, true, true, false⟩] } }
  [(R.CIF_P_SIZE_W, 4), (R.CIF_P_SIZE_H, 2), (R.CIF_P_CTL_DT, 0x2A), (R.CIF_P_PITCH_PITCH, 16), (R.CIF_P_RCFG_STRIDE, 1), (R.CIF_P_PASID_PASID, 9),
    (R.CIF_P_RBASE_VA, 5), (R.CIF_P_HBASE_VA, 0x144)].foldl (fun (s : State) (p : Field × Nat) => s.set p.1 p.2 0) s
def camera (l : List CifFrame) : State :=
  (((((viewing.set R.CIF_CTL_EN 1).set R.CIF_P_CTL_EN 1 0).set R.CIF_P_CTL_FSEN 1 0).set R.CRU_TB_NOW_TBASE 200).cifPut 0 { frames := l })
def shot : CifFrame := { fc := 1, c := 0, sig := 0, stamp := 0, sync := 0 }
def taken : CifFrame := { shot with lines := 2, got := 2, written := 2, closed := true }

/-- The AO camera at 32 × 24, with motion energy on. A run of a list at 0x20000: one FC layer of two inputs 3 and −1, weights 2 and 1, bias 1,
MULT 2^15 and SHIFT 0 (the accumulator over 2), from zeros elsewhere. An extension of generation 2; one that runs; and may wake. -/
def watching : State :=
  ((((up .m0 2).set R.FUM_AOC_CTL_EN 1).set R.FUM_AOC_SIZE_W 32).set R.FUM_AOC_SIZE_H 24).set R.FUM_ME_CFG_EN 1
def inferring : State :=
  let ao := putBytes 0 [] 0x20000 (toBytes 4 3 ++ toBytes 4 (2 + 65536) ++ toBytes 4 (1 + 65536) ++ toBytes 4 0x20100 ++ toBytes 4 0x20200 ++
    toBytes 4 0x20110 ++ toBytes 4 0x20120 ++ toBytes 4 32768)
  let ao := putBytes 0 (putBytes 0 (putBytes 0 ao 0x20100 [3, 255]) 0x20110 [4, 1]) 0x20120 (toBytes 4 1)
  { (up .m0 2).set R.FUM_FIE_STAT_BUSY 1 with ao, fum := { fie := some ⟨0x20000, 0, false, false⟩ } }
def extended : State :=
  { up .m0 2 with ao := putBytes 0 [] 0x30000 (toBytes 4 0x46585431 ++ toBytes 4 2) }
def extOn_ : State := ((up .m0 2).set R.FUM_MCU_CTL_RUN 1).set R.FUM_MCU_CTL_EXT 1
def wakeable : State := (extOn_.set R.FUM_WAKE_EN_EN 8).set R.FUM_ACMP_CFG_SRC 1 3

/-- An entry to a state that runs, with a trip that came during it; S2 with comparator 0 on and able to wake; an S3 exit at its end. -/
def entering (k : Nat) : State :=
  { (up .m0 2).set R.FUM_WSRC_ENTRYWAKE 1 with pwr := { entry := some ⟨k, 0⟩ } }
def sleeping : State := (((up .m0 2).set R.PWR_STAT_STATE 2).set R.FUM_ACMP_CFG_EN 1 0).set R.FUM_WAKE_EN_EN 1
def waking : State :=
  let s := ((up .m0 2).set R.PWR_STAT_STATE 3).set R.PWR_STAT_EXITING 1
  let s := { s with flash := putBytes 0xFF [] 0x28 [0, 0, 0, 0] }
  { s with pwr := { exit := some (0, 3) }, boot := { s.boot with retained := some { warden := s.imageDigest 0, board := 0, lic := 0, sup := 0, svn := 0 } } }

/-- GFX and Ember 1 draining, GFX wanted again; switches that close; a hottest reading. -/
def draining : State := { (up .m0 2).set R.PWR_DOM_REQ_REQ 1 with pwr := { drains := [1, 17] } }
def ramping : State := { ((up .m0 2).domPut 2 false).domPut 17 false with pwr := { ramps := [0, 2, 17] } }
def hot (x : Nat) : State := ((up .m0 2).set R.THM_MAX_VALID 1).set R.THM_MAX_TEMP x

/-- A die that waits for its test slot, its phase as given. -/
def slotless (ph : Nat) : State :=
  let s := (up .m0 2).set R.BOOT_STAT_PHASE ph
  { s with boot := { s.boot with waitSlot := true } }

/-- A mailbox message of an opcode and payload waits, with sequence number 0x77. -/
def mail (op : Nat) (pay : List Nat) : State :=
  let rec put (s : State) : Nat → List Nat → State
    | i, a :: b :: c :: d :: l => put (s.rawSet (0x4000 + i) (ofBytes [a, b, c, d])) (i + 4) l
    | _, _ => s
  (put (up .m0 2) 0 (toBytes 2 op ++ toBytes 2 pay.length ++ toBytes 4 0x77 ++ toBytes 8 0 ++ pay ++ [0, 0, 0])).rawSet 0x4FF4 (2 ^ 31)

/-- A serial instance that is enabled, with dynamic address 9 assigned and a command. -/
def serial (c : Nat) (cmd : Option SerCmd) : State := ((up .m0 2).set (serF c R.SER_CTL_EN) 1).serPut c { dyn := [9], cmd }

/-- An enabled chain port in a state. -/
def linkAt (p st : Nat) : State := ((up .m0 2).set R.CHLP_CTL_EN 1 p).set R.CHLP_STAT_STATE st p

/-- Port 1 in a state, with a message in the replay buffer, one that waits without credit, and a NAK out. -/
def replaying (st : Nat) : State := (linkAt 1 st).chlPut 1
  { replay := [⟨7, 1, 1, { op := 9, tag := 3 }⟩], q := [{ op := 1 }], cred := [0, 0, 0, 0], naked := true, rx := 12 }

/-- A request of an opcode is outstanding with tag 6. -/
def asking (op : Nat) : State :=
  { up .m0 2 with chl := { req := [⟨{ op, tag := 6, dst := 1, arg := 2 }, 1, [], none, false⟩] } }

/-- Die 0 of a chain of three in which die 1 lies at port 0 and die 2 at port 1, both ports in a state. -/
def chainAt (st : Nat) : State :=
  let s := ((up .m0 2).set R.CHLP_STAT_STATE st 0).set R.CHLP_STAT_STATE st 1
  let s := ((s.set R.CHL_ROLL_VALID 1).set R.CHL_ROLL_COUNT 2).setRoute 0 2 0
  ([3, 4, 5, 6, 7].foldl (fun s d => s.setRoute d 3 0) s).setRoute 1 0 1 |>.setRoute 2 1 1

/-- Port 0 of such a die, encrypted and past PROOF or not, with a response held for its group's tag. -/
def secretly (b : Bool) : State :=
  ((chainAt 5).set R.CHLP_STAT_ENCON 1 0).chlUpd 0 fun x => { x with proved := b, grp := [⟨{ op := 9 }, 1, 0, 0⟩], rxg := 3 }

/-- Die 0 of such a chain with DRAM, and a read (tag 6) and a write (tag 8) to die 1 outstanding. -/
def dramChain : State :=
  { (chainAt 5).set R.BOOT_DRAM_SIZE 8192 with chl := { (chainAt 5).chl with
      req := [⟨{ op := 1, tag := 6, dst := 1, arg := 2 }, 1, [], none, false⟩, ⟨{ op := 3, tag := 8, dst := 1, arg := 2 }, 1, [], none, false⟩] } }

/-- Die 0 of such a chain with the objects of `synced`, and a remote wait of number 77. -/
def syncChain : State :=
  let s := (synced.set R.CHLP_STAT_STATE 5 0).set R.CHLP_STAT_STATE 5 1
  let s := (((s.set R.CHL_ROLL_VALID 1).set R.CHL_ROLL_COUNT 2).setRoute 0 2 0).setRoute 1 0 1
  { s with syn := { s.syn with remote := [(0x21000005, 3, 77)] } }

/-- A port in AUTH that has the partner's HELLO; the partner sleeps, or not. -/
def greeted (asleep : Bool) : State := (chainAt 3).chlUpd 0 fun x => { x with hello := List.replicate 8 0 ++ [5], uid := 5, asleep }

/-- A chain die without flash that receives its image, a port ACTIVE. -/
def receiver : State :=
  let s := ((linkAt 0 5).set R.BOOT_STAT_PHASE 1).set R.BOOT_STAT_STEP 22
  { s with boot := { s.boot with env := { s.boot.env with straps := 1 } } }

/-- A die that answers its host, with window 1 of BAR4 at DPA 0x100 and 0x1000 long, and memory object 4 of generation 1 of two granules. -/
def aperture : State :=
  let s := (synced.set R.SYN_TBL_BASE_ADDR 5 3).set R.HIF_STAT_LINKUP 1
  let s := s.set R.SYN_TBL_CFG_LOG2N 4 3
  let s := ((s.memSet 0x5080 4 7).memSet 0x5084 4 2).memSet 0x5088 4 0x610000
  { s with ap := [(1, { base := 0x100, limit := 0x1000 })] }

/-- Slot 1 committed for NOW, with a write of EMB_CTL of Ember 0 staged. -/
def applying (v : Nat) : State :=
  { (slotUp 0).set R.TXN_S_STAT_STATE 2 1 with staged := [⟨1, 0x1000004, v, false⟩] }

/-- `Issues` as a computation. -/
def IssuesB (s : State) (e slot : Nat) (i : Ins) (en : Entry) (k : Block) (pc : Nat) : Bool :=
  (s.em e).entries.lookup slot == some en && s.blk? e en.blk == some k && (en.threads.head?.map k.pcOf) == some pc && s.embOn e &&
  !s.flag R.EMB_CTL_HALT e && k.term.isNone && en.parts.all (fun p => !k.stopped.contains p.1) &&
  ((s.em e).first.lookup (slot / 32)).all (· == slot) && i.bad == [] && (i.words != 2 || pc % 16 == 0) &&
  (!i.mem || (en.active k i.w).all fun t => !k.acquiring t) &&
  (en.active k i.w).all fun t => i.ops.all fun o => !selIsV o.sel || (List.range o.n).all fun j =>
    decide (o.sel + j < (k.infoOf t.1).n) && !(k.pendRegs t).contains (o.sel + j)

/-- The entry of that block, and a word with D = v3, A = v1, B = v2. -/
def oneEn : Entry := { blk := 2, parts := [(0, 1)], stamp := 0 }
def iWord : BitVec 56 := 0x060101000000

theorem issues_of (s : State) (e slot : Nat) (i : Ins) (en : Entry) (k : Block) (pc : Nat) (h : IssuesB s e slot i en k pc = true) :
    s.Issues e slot i en k pc := by
  simp only [IssuesB, Bool.and_eq_true, beq_iff_eq, List.all_eq_true, Bool.or_eq_true, Bool.not_eq_true', Option.isNone_iff_eq_none,
    List.mem_range, decide_eq_true_eq, bne_iff_ne, ne_eq] at h
  obtain ⟨⟨⟨⟨⟨⟨⟨⟨⟨⟨⟨h1, h2⟩, h3⟩, h4⟩, h5⟩, h6⟩, h7⟩, h8⟩, h9⟩, h10⟩, hm⟩, h11⟩ := h
  refine ⟨h1, h2, ?_, h4, h5, h6, fun p hp hc => by simpa [hc] using h7 p hp, fun n hn => by simpa [hn] using h8, h9,
    fun hw => h10.resolve_left (fun x => x hw), fun hi => hm.resolve_left (fun x => by simp [hi] at x), fun t ht o ho hv j hj => ?_⟩
  · cases hh : en.threads.head? with
    | none => simp [hh] at h3
    | some t => exact ⟨t, rfl, by simpa [hh] using h3⟩
  · have := (h11 t ht o ho).resolve_left (fun x => by simp [hv] at x)
    exact ⟨(this j hj).1, by simpa using (this j hj).2⟩

/-- `Runs` and `Loses` as computations. -/
def Waiting (s : State) (id : Nat) (p : Pkt) : Bool :=
  s.wsp.win.contains p && s.wsp.win.all (fun y => y.id != id || y == p) && p.id == id && p.stage == .committed &&
  ((s.q? p.q).bind (·.slot)).isSome && p.parent.isNone && p.deps.all (fun d => (s.pk? d).isNone) && p.awaits.all fun a => a.out.isSome
def Running (s : State) (id : Nat) (p : Pkt) : Bool :=
  Waiting s id p && ((s.q? p.q).map (·.failed)).getD [] == [] && p.awaits.all fun a => a.ign || a.out.any fun o => !o.2
def Losing (s : State) (id : Nat) (p : Pkt) : Bool := Waiting s id p && p.awaits.any fun a => !a.ign && a.out.any fun o => o.2

theorem waited_of (s : State) (id : Nat) (p : Pkt) (h : Waiting s id p = true) : s.Waited id p := by
  simp only [Waiting, Bool.and_eq_true, beq_iff_eq, List.all_eq_true, List.contains_iff_mem, Option.isSome_iff_exists, Option.isNone_iff_eq_none] at h
  obtain ⟨⟨⟨⟨⟨⟨⟨h1, h2⟩, h3⟩, h4⟩, h5⟩, h6⟩, h7⟩, h8⟩ := h
  refine ⟨h1, fun y hy e => by simpa [e] using h2 y hy, h3, h4, ?_, h6, h7, fun a ha => Option.isSome_iff_exists.mpr (h8 a ha)⟩
  obtain ⟨k, hk⟩ := h5
  cases hq : s.q? p.q with
  | none => simp [hq] at hk
  | some x => exact ⟨x, k, rfl, by simpa [hq] using hk⟩

theorem runs_of (s : State) (id : Nat) (p : Pkt) (h : Running s id p = true) : s.Runs id p := by
  simp only [Running, Bool.and_eq_true, beq_iff_eq, List.all_eq_true, Bool.or_eq_true] at h
  obtain ⟨⟨h1, h2⟩, h3⟩ := h
  refine { waited_of s id p h1 with sound := fun x hx => by simpa [hx] using h2, clean := fun a ha => (h3 a ha).imp (fun x => x) ?_ }
  intro h
  cases ho : a.out with
  | none => simp [ho] at h
  | some o => obtain ⟨c, e⟩ := o; simp [ho] at h; exact ⟨c, by rw [h]⟩

theorem loses_of (s : State) (id : Nat) (p : Pkt) (h : Losing s id p = true) : s.Loses id p := by
  simp only [Losing, Bool.and_eq_true, List.any_eq_true, Bool.not_eq_true'] at h
  obtain ⟨h1, a, ha, h2, h3⟩ := h
  refine { waited_of s id p h1 with lost := .inr ⟨a, ha, h2, ?_⟩ }
  cases ho : a.out with
  | none => simp [ho] at h3
  | some o => obtain ⟨c, e⟩ := o; simp [ho] at h3; exact ⟨c, by rw [h3]⟩

/-- `Serves` and `Admits` as computations. -/
def Admitted (s : State) (m : Master) (off : Nat) : Bool :=
  (m != .m3 || m3Reach off) && s.get R.BOOT_STAT_PHASE == 3 && s.get R.PWR_STAT_STATE == 0 && s.domLive 0 && (domOf off).all s.domLive

def Served (s : State) (m : Master) (off : Nat) : Bool :=
  Admitted s m off && !(engOf off).any s.engRuns && s.owns m && s.txnHolder off == none

theorem admits_of (s : State) (m : Master) (off : Nat) (h : Admitted s m off = true) : s.Admits m off := by
  simp only [Admitted, Bool.and_eq_true, beq_iff_eq] at h
  exact ⟨fun e => by simpa [e] using h.1.1.1.1, h.1.1.1.2, h.1.1.2, h.1.2, h.2⟩

theorem serves_of (s : State) (m : Master) (off : Nat) (h : Served s m off = true) : s.Serves m off := by
  simp only [Served, Bool.and_eq_true, Bool.not_eq_true', beq_iff_eq] at h
  have a := admits_of s m off h.1.1.1
  exact ⟨a.reach, a.ready, a.active, a.fabric, a.domain, h.1.1.2, h.1.2, h.2⟩


/-! ## Ill-formed commands, one per check of WellFormed.lean -/

theorem wellFormed_refuses : ∀ c ∈ [Instr.registerWrite .m0 0 3 0 {}, .rwinWindowAccess .m0 0 0 true 0 {}, .sinterAccess .tvu .read 0x41 false 64 0 [] .none_ 0 0,
    .sinterAccess .tvu .write 0x7F false 1 0 [1, 2] .none_ 0 0, .sinterFill 0 false (List.replicate 129 0), .chlWr 0 0 0 0 0 1 [1] false, .chlWrp 0 0 0 0 0 0 [] false,
    .chlRdr 0 0 0 0 0 1 [] false, .fwblk 0 0 [] {}, .flitReceive 0 [] 0 [] {}, .hello 0 0 [] [] false {}, .flashrec 0 0 0 false [], .rollCall [{ uid := 0, inPort := 2 }] false,
    .bar4Access 0 true 2 [1] false, .dcsDone 0 false [0, 0, 0, 0, 0], .serCmdEnd 0 0 0 (List.replicate 65 0), .aocFrame [[0, 0], [0]], .ownHb .m0 true [8],
    .queueMakeResident [(4, 0), (4, 0)], .dapregRead 0 { m1dies := [9] }, .porRelease { dram := [true] }, .proof 0 0 { t2 := 2 ^ 80 }], c.wellFormed = false := by decide +kernel

theorem wellFormed_takes : ∀ c ∈ [Instr.registerWrite .m0 0 4 0 {}, .sinterAccess .tvu .read 0x40 false 64 0 [] .none_ 0 0, .porRelease {}, .chlRdr 0 0 0 0 0 0 [] false,
    .queueMakeResident [(4, 0), (5, 0)], .rollCall [{ uid := 7 }] true], c.wellFormed = true := by decide +kernel
theorem witness_ClaimIsDecidedByOwnershipState :
    (∀ m ∈ [Master.m0, .m1, .m2], ∀ st ∈ [0, 1, 2, 3], Admitted (up m st) m 0x204 = true) ∧
    Admitted (up .m3 0) .m3 0x204 = true ∧ (up .m0 3).get R.OWN_STAT_OFFERTO = Master.m0.idx ∧
    (up .m1 3).get R.OWN_STAT_OFFERTO ≠ Master.m1.idx ∧ (up .m2 2).get R.BOOT_PROF_DBG = 0 := by decide
theorem test_claim_none_grants : at_ (.ownClaim .m1 0xC1A1) (up .m0 0) (fun t =>
    (t.get R.OWN_STAT_STATE, t.get R.OWN_STAT_OWNER, t.get R.OWN_STAT_EPOCH, t.get R.OWN_EVT_GAINED)) = some (2, 1, 1, 1) := by decide

theorem witness_LeaseReleaseOfferAndElection :
    Served (up .m0 2) .m0 0x208 = true ∧ Served (up .m1 3) .m1 0x20C = true ∧ Served (up .m3 2) .m3 0x208 = true ∧
    2 ≤ (up .m0 2).get R.OWN_STAT_STATE ∧ (up .m0 2).get R.PWR_STAT_STATE < 2 ∧ (up .m0 3).get R.OWN_STAT_STATE = 3 ∧
    (up .m0 1).get R.OWN_STAT_STATE = 1 ∧ (up .m0 1).own.claims = [] ∧ (up .m0 2).domOn 0 = true := by decide
theorem test_lease_expiry_record : at_ .leaseExpiry (up .m1 2) (fun t =>
    (t.get R.OWN_STAT_STATE, t.flt.staged.map fun r => (r.cls, r.cause, r.src))) = some (1, [(9, 1, 1)]) := by decide

theorem witness_TransactionSlotsOpenCommitEnd :
    Served (up .m0 2) .m0 0xF00000 = true ∧ Served (slotUp 1) .m0 0xF00008 = true ∧ Served (slotUp 3) .m0 0xF0000C = true ∧
    (slotUp 1).get R.TXN_S_STAT_STATE 0 = 1 ∧ (slotUp 2).get R.TXN_S_STAT_STATE 0 = 2 ∧ (slotUp 3).get R.TXN_S_STAT_STATE 0 = 3 ∧
    (0x80 : BitVec 17).toNat ||| txnMaskOk = txnMaskOk ∧ (0x2 : BitVec 17).toNat ||| txnMaskOk ≠ txnMaskOk ∧
    (slotUp 1).get R.TXN_S_BLK_MASK 0 &&& (0x80 : BitVec 17).toNat ≠ 0 ∧ (4 : BitVec 3).toNat < 5 ∧ 5 ≤ (5 : BitVec 3).toNat := by decide
theorem test_txn_begin_takes_slot : at_ (.txnBegin .m0 0x400) (slotUp 1) (fun t =>
    (t.get R.TXN_S_STAT_STATE 1, t.get R.TXN_S_BLK_MASK 1, t.get R.TXN_STAT_SLOT, t.get R.TXN_STAT_RESULT)) = some (1, 0x400, 1, 0) := by decide

theorem witness_FaultRingTakesStagedRecords :
    (ringUp 1).flag R.FQ_CFG_EN = true ∧ (ringUp 1).fqUsed < (ringUp 1).fqSize ∧ (ringUp 1).locStatus (ringUp 1).fqSlot = .ok ∧
    (ringUp 1).fqSlot = .loc 0x1000 ∧ (ringUp 1).flt.staged.length = 1 ∧ (ringUp 1).flt.sum = none ∧
    (∀ e < 16, (ringUp 1).flag R.SIN_POISON_VALID e = false) ∧ (∀ e < 16, (ringUp 2).flag R.SIN_POISON_VALID e = false) ∧
    (ringUp 2).flt.sum.isSome = true ∧ (ringUp 2).fqUsed < (ringUp 2).fqSize ∧
    (ringUp 3).fqSize ≤ (ringUp 3).fqUsed ∧ (ringUp 3).flt.staged.length = 1 ∧
    Served (ringUp 1) .m0 0xE00010 = true ∧ Served (up .m0 2) .m0 0xE00008 = true ∧ (up .m0 2).flag R.FQ_CFG_EN = false ∧
    (ringUp 3).get R.FQ_CFG_LOG2SZ ≠ (5 : BitVec 5).toNat := by decide
theorem test_record_written : at_ (.faultRecordWrite true) (ringUp 1) (fun t =>
    (t.flt.staged.length, t.get R.FQ_PROD_PROD, bytesAt 0 t.mem 0x1000 2)) = some (0, 1, [0x09, 0x02]) := by decide

theorem witness_TelemetryAndWatchdog :
    Served (up .m0 2) .m0 0xE00200 = true ∧ Served (up .m1 2) .m1 0xD0000C = true ∧ Served (up .m0 2) .m0 0xD00010 = true ∧
    Served (up .m0 2) .warden 0xD0000C = true ∧ (up .m0 2).flag R.WDT_CTL_KICKER = (Master.warden != .warden) ∧
    (up .m1 2).flag R.WDT_CTL_KICKER ≠ (Master.m1 != .warden) ∧ (up .m0 2).flag R.WDT_CTL_LOCK = false ∧
    (up .m0 2).flag R.WDT_STAT_HW = false ∧ ((up .m0 2).set R.WDT_CTL_LOCK 1).flag R.WDT_CTL_LOCK = true ∧
    ((up .m0 2).set R.WDT_STAT_STAGE 1).get R.WDT_STAT_STAGE = 1 := by decide
theorem test_wdt_kick_warden : at_ (.wdtKick .warden 0x4B49) ((up .m0 2).set R.WDT_STAT_STAGE 2) (fun t =>
    (t.get R.WDT_STAT_STAGE, t.get R.WDT_STAT_RECOV, t.wdt.units)) = some (1, 1, 0x9000) := by decide

theorem witness_EclkMovesToEffectiveStep :
    Served (up .m0 2) .m0 0x200010 = true ∧ (up .m0 2).cru.move = none ∧ (up .m0 2).get R.CRU_ECLK_STAT_CUR = 7 ∧
    (moving 4).cru.move.isSome = true ∧ (moving 4).flag R.PWR_VCFG_PGEN = false ∧ (moving 4).eclkEff = 4 ∧
    ((up .m0 2).set R.PWR_VCFG_PGEN 1).flag R.PWR_VCFG_PGEN = true := by decide
theorem test_eclk_request_up : at_ (.eclkRequest .m0 3) (up .m0 2) (fun t =>
    (t.get R.CRU_ECLK_STAT_TARGET, t.get R.CRU_ECLK_STAT_BUSY, t.get R.CRU_ECLK_STAT_CUR)) = some (3, 1, 7) := by decide
theorem test_eclk_settled : at_ (.eclkRailSettled false) (moving 4) (fun t =>
    (t.get R.CRU_ECLK_STAT_BUSY, t.get R.CRU_ECLK_STAT_CUR)) = some (0, 4) := by decide

theorem witness_TimeBaseIsSetCapturedAndCarried :
    ((up .m0 2).set R.CRU_RPLL_STAT_LOCK 1).flag R.CRU_RPLL_STAT_LOCK = true ∧ (up .m0 2).flag R.CRU_RPLL_STAT_LOCK = false ∧ (up .m0 2).domOn 0 = true ∧
    Served (up .m0 2) .m0 0x20010C = true ∧ (up .m0 2).tbRef = true ∧ (up .m0 2).tb ≤ (0 : DWord).toNat ∧
    (0 : DWord).toNat < ((up .m0 2).set R.CRU_TB_NOW_TBASE 1).tb ∧ chained.tbRef = false ∧ Served chained .m0 0x20010C = true ∧
    chained.upPort = 0 ∧ 2 ≤ (chained.set R.CHL_ROUTE_ROUTE0 3).upPort ∧
    exchanging.cru.exT1 = some 0 ∧ exchanging.cru.exRsp = some (65536, 65536, true) ∧ exchanging.cru.exSeq = (1 : BitVec 8).toNat ∧
    exchanging.tbRef = false ∧ bitB (capturing.get R.CRU_TB_CAPCTL_EN) 0 = true ∧ capturing.tbCapPlaced 0 = true ∧
    bitB (capturing.get R.CRU_TB_CAPCTL_EDGE) 0 = false := by decide
theorem test_tb_set : at_ (.tbSet .m0 77) (up .m0 2) State.tb = some 77 := by decide
theorem test_relock_carries : at_ (.rpllRelock 128) (up .m0 2) State.tb = some 390625 := by decide

theorem witness_SinterServesNewestBytes :
    dram.domOn 0 = true ∧ dram.locStatus (.loc 0x40) = .ok ∧ (∀ e < 16, dram.flag R.SIN_POISON_VALID e = false) ∧
    dram.dpaLoc (0x40 : DWord).toNat = .loc 0x40 ∧ ([1, 2] : List Byte).length ≤ 128 - (0x40 : DWord).toNat % 128 ∧
    (filling.sin.fills.find? fun f => f.line == lineOf (0x80 : DWord).toNat && f.host == false) = some { line := 0x80, host := false, remote := false, age := 1 } ∧
    filling.sinByp 0x80 = false ∧ filling.polOf 0x80 < 2 ∧ bitB (filling.get R.SIN_WAYDIS_DIS (sinSlice 0x80)) 15 = false ∧
    filling.sin.wc.length = 1 ∧ 2 ^ 20 ≤ (Cells.get (0, 0) filling.sin.win (1 * 16 + 2)).1 := by decide
theorem test_write_then_read : at_ (.sinterAccess .ember .write 0x40 false 2 0 [7, 9] .none_ 0 0) dram (fun t =>
    bytesAt 0 t.mem 0x3F 4) = some [0, 7, 9, 0] := by decide
theorem test_fill_inserted : at_ (.sinterFill 0x80 false []) filling (fun t =>
    ((t.sinFind 0x80 false).isSome, t.sin.fills.length)) = some (true, 0) := by decide

theorem witness_SinterMaintenanceAndPolicy :
    Served dram .m0 0x800050 = true ∧ dram.get R.SIN_MAINT_STAT_BUSY = 0 ∧ dram.get R.SIN_STAT_RGN_BUSY = 0 ∧
    (dram.set R.SIN_MAINT_STAT_BUSY 1).get R.SIN_MAINT_STAT_BUSY ≠ 0 ∧ Served dram .m0 (0x800108 + 16 * 15) = true ∧
    Served dram .m0 0x800000 = true ∧ dram.sinBusy = false ∧ (dram.set R.SIN_MAINT_STAT_BUSY 1).sinBusy = true ∧
    (maintaining.sin.maint.isSome && maintaining.sin.trans.isSome) = true := by decide
theorem test_policy_write_starts_transition : at_ (.sinPolicyWrite .m0 0 0x80000002) dram (fun t =>
    (t.get R.SIN_STAT_RGN_BUSY, t.sin.trans.isSome)) = some (1, true) := by decide

theorem witness_SignalActsOnSyncObject :
    (8 : Nat) < 2 ^ 16 ∧ isErr 8 = true ∧ isErr ({ w20 := 5 } : SyncObj).err = true ∧ isErr ({} : SyncObj).err = false ∧
    isErr 0x8000 = false ∧ Served synced .m0 0x600050 = true ∧ synced.get R.SYN_CMD_STAT_BUSY = 0 ∧
    synced.objCheck 0 (synced.get R.SYN_CMD_H_HANDLE) = 0 ∧ hDie (synced.get R.SYN_CMD_H_HANDLE) = synced.die ∧
    Admitted synced .m1 (0x60010C + 16 * 7) = true ∧ hGen (synced.get R.SYN_XSIG_H_HANDLE 7) = 0 ∧
    hGen (synced.get R.SYN_XSIG_H_HANDLE 0) ≠ 0 ∧ synced.objCheck 0 (synced.get R.SYN_XSIG_H_HANDLE 0) = 0 ∧
    synced.objCheck 0 (synced.get R.SYN_XSIG_H_HANDLE 1) ≠ 0 ∧ hGen (synced.get R.SYN_XSIG_H_HANDLE 1) ≠ 0 := by decide
theorem test_signal_raises : at_ (.synSignal .m0 0) synced (fun t => ((t.synObj 3).value, (t.synObj 3).err)) = some (9, 0) := by decide
theorem test_import_port_signals : at_ (.importPortSignal .m1 0 12) synced (fun t => (t.synObj 3).value) = some 12 := by decide

theorem witness_SynCommandsCarryOut :
    Served synced .m0 0x600050 = true ∧ synced.objCheck 0 0x01000003 = 0 ∧ synced.get R.SYN_CMD_H_HANDLE = 0x01000003 ∧
    synced.recLoc 0 3 = .loc 0x10C0 ∧ synced.locStatus (.loc 0x10C0) = .ok ∧ (∀ e < 16, synced.flag R.SIN_POISON_VALID e = false) ∧
    synced.objCheck 2 0x01000003 = 0 ∧ bitsOf (synced.recNat 2 3 0 4) 0 2 = 2 ∧ synced.recLoc 2 3 = .loc 0x30C0 ∧
    (synced.set R.SYN_CMD_STAT_BUSY 1).get R.SYN_CMD_STAT_BUSY ≠ 0 ∧ synced.objCheck 0 0x02000003 ≠ 0 ∧
    synced.objCheck 2 0x02000003 ≠ 0 := by decide
theorem test_query_holds_value : at_ (.synQuery .m0) synced (fun t => t.syn.cmd == some (2, some (0, 0, 7, 0))) = some true := by decide
theorem test_destroy_invalidates : at_ (.synDestroy .m0) synced (fun t => (t.synObj 3).valid) = some false := by decide
theorem test_resume : at_ (.synResume .m0) synced (fun t => bitsOf (t.recNat 2 3 0 4) 0 2) = some 1 := by decide

theorem witness_TeardownOfQueuesAndContexts :
    Served synced .m0 0x600084 = true ∧ synced.get R.SYN_ABORT_STAT_BUSY = 0 ∧ synced.objCheck 2 (synced.get R.SYN_ABORT_H_HANDLE) = 0 ∧
    synced.objCheck 1 (synced.get R.SYN_ABORT_H_HANDLE) = 0 ∧ hDie (synced.get R.SYN_ABORT_H_HANDLE) = synced.die ∧
    bitsOf (synced.recNat 1 3 0 4) 0 2 < 2 ∧ (synced.set R.SYN_ABORT_STAT_BUSY 1).get R.SYN_ABORT_STAT_BUSY ≠ 0 ∧
    synced.objCheck 1 0x01000004 ≠ 0 ∧ bitsOf ((synced.recSet 1 3 0 4 0x10002).recNat 1 3 0 4) 0 2 = 2 ∧
    ({ synced with syn := { synced.syn with tdq := [0x01000003] } } : State).syn.td = none := by decide
theorem test_teardown_queue : at_ (.teardownQueue .m0) synced (fun t =>
    (t.get R.SYN_ABORT_STAT_BUSY, bitsOf (t.recNat 2 3 0 4) 0 2, t.syn.td.isSome)) = some (1, 2, true) := by decide

theorem witness_TranslationMissesAndCompletions :
    translating.flag R.DTU_CTL_EN = true ∧ translating.dtu.pasid.lookup (5 : Fin 70).val = some 9 ∧
    translating.atcHit 9 (0x5008 : DWord).toNat .load = some 0x77008 ∧ translating.atcHit 9 (0x6000 : DWord).toNat .store = none ∧
    translating.prxDown = false ∧ translating.dtu.park = [] ∧ translating.dtu.hnd.length = 1 ∧ translating.dtu.miss = [] ∧
    (translating.dtu.hnd.find? fun h => h.tag == (3 : BitVec 7).toNat) = some handler ∧ translating.dtu.hnd = [handler] ∧
    handler.miss.who = [⟨[0, 1], .store, 5⟩] ∧ handler.miss.retr = none ∧ translating.dtu.priEnable = true ∧ translating.flag R.DTU_STAT_PRI_FAILED = false ∧
    (up .m0 2).flag R.DTU_CTL_EN = false ∧ (up .m0 2).get R.DTU_SSTAT_UFLT 5 = 0 ∧ missing.dtu.hnd.length < 32 ∧
    missing.mayGrant handler.miss = true ∧ handler.miss ∈ missing.dtu.miss := by decide
theorem test_completion_gives_page : at_ (.atsCompletion 3 true 0x99000 12 true true false false) translating (fun t =>
    t.dtu.outc.lookup [0, 1]) = some (some (.at_ 0x99000)) := by decide
theorem test_grant_sends_request : at_ .missHandlerGrant missing (fun t => (t.dtu.hnd.length, t.out)) = some (1, [.atsReq 0 9 0x8000 false]) := by decide

theorem witness_PageRequestsAndInvalidations :
    parking.flag R.DTU_STAT_PRI_FAILED = false ∧ (parking.dtu.park.filter fun p => p.sent && !p.answered).length < parking.dtu.priAlloc ∧
    ((parking.dtu.park.find? fun p => !p.sent).map DtuPark.prgi) = some 1 ∧
    ((parking.dtu.park.find? fun p => p.prgi == (0 : BitVec 9).toNat && p.sent && !p.answered).map DtuPark.who) = some [⟨[0, 1], .load, 5⟩] ∧
    (parking.dtu.park.find? fun p => p.prgi == (127 : BitVec 9).toNat && p.sent && !p.answered) = none ∧ parking.invq < 32 ∧
    ((parking.dtu.invq.filter fun x => [0].contains x.seq).map DtuInv.itag) = [none] ∧
    (parking.dtu.invq.all parking.invReady) = true ∧ Served parking .m0 0x700028 = true ∧ parking.get R.DTU_INV_STAT_BUSY = 0 ∧
    (parking.set R.DTU_INV_STAT_BUSY 1).get R.DTU_INV_STAT_BUSY ≠ 0 := by decide
theorem test_page_request : at_ .pageRequestSend parking (fun t => t.out) = some [.pageReq 1 9 0x2000 true false] := by decide
theorem test_invalidate_empties : at_ (.dtuInvAll .m0) translating (fun t => t.dtu.atc.length) = some 0 := by decide

theorem witness_AccessCountersNotifyRingAndWindow :
    Served counting .m0 0x700058 = true ∧ counting.dtu.ac = [(2, 7)] ∧ counting.acLoc 2 = .loc 0x4004 ∧
    counting.locStatus (.loc 0x4004) = .ok ∧ (∀ e < 16, counting.flag R.SIN_POISON_VALID e = false) ∧
    Served counting .m0 0x700068 = true ∧ counting.flag R.DTU_MN_CFG_EN = false ∧ (counting.set R.DTU_MN_CFG_EN 1).flag R.DTU_MN_CFG_EN = true ∧
    Served counting .m0 0x700070 = true ∧ counting.dtu.mnDropped = 0 ∧ Served counting .m0 0x700014 = true ∧
    Served counting .m0 0x70001C = true ∧ counting.isDie0 = true ∧ chained.isDie0 = false ∧ Served chained .m0 0x700014 = true ∧
    Served chained .m0 0x70001C = true := by decide
theorem test_ac_flush : at_ (.dtuAcFlush .m0) counting (fun t => (t.get R.DTU_STAT_AC_BUSY, t.memNat 0x4004 2)) = some (1, 7) := by decide

theorem witness_PacketsOfTheWindowRun :
    (∀ n ∈ [0, 1, 2, 3, 4, 5], Running (windowed n []) 7 (packet n []) = true) ∧ (windowed 4 []).inPlace 0 ≠ [] ∧
    ((windowed 1 []).set R.BOOT_PROF_EMBMAX 0).inPlace 0 = [] ∧
    Losing (windowed 4 [{ h := 0, ign := false, w := 1, out := some (3, true) }]) 7
      (packet 4 [{ h := 0, ign := false, w := 1, out := some (3, true) }]) = true ∧
    (match (windowed 4 []).vaPlaces [4, 7] 5 .store 0x5010 8 with
      | (v, .ok [(0x5010, 8, .loc 0x77010)]) => v.locStatus (.loc 0x77010) == .ok | _ => false) = true ∧
    (∀ e < 16, (windowed 4 []).flag R.SIN_POISON_VALID e = false) := by decide
theorem test_write_stores : at_ (.pktWrite 7) (windowed 4 []) (fun t =>
    (bytesAt 0 t.mem 0x77010 2, (t.pk? 7).map (·.stage))) = some ([0xAB, 0], some .done) := by decide
theorem test_cond_reads_object : at_ (.pktCond 7 0 0) (windowed 2 []) (fun t => ((t.pk? 7).map (·.stage), (t.pk? 8).map (·.pred))) =
    some (some .done, some (some true)) := by decide

theorem witness_DoorbellsAndFetch :
    Admitted ringing .m1 0x500000 = true ∧ hDie (0x01000003 : Word).toNat = ringing.die ∧ ringing.flag R.WSP_CTL_EN = true ∧
    synced.flag R.WSP_CTL_EN = false ∧ Admitted synced .m0 0x500000 = true ∧ ringing.objCheck 2 0x01000003 = 0 ∧ ringing.objCheck 2 0x02000003 ≠ 0 ∧
    bitsOf (ringing.recNat 2 3 0x10 4) 16 8 = (1 : BitVec 17).toNat / 512 ∧ bitsOf (ringing.recNat 2 3 0x10 4) 16 8 ≠ (512 : BitVec 17).toNat / 512 ∧
    ringing.qState 3 ≠ 3 ∧ (ringing.qSetState 3 3).qState 3 = 3 ∧ (ringing.qSetState 3 3).objCheck 2 0x01000003 = 0 ∧
    ringing.recRing 3 = 16 ∧ ringing.qHead 3 = 0 ∧ ringing.qTail 3 = 0 ∧ (fetching 1).qTail 3 = 1 ∧ ringing.tdCovers 3 = false ∧
    chained.memReach 0 = true ∧ Admitted chained .m0 0x500000 = true ∧ hDie 3 ≠ chained.die ∧ (chained.set R.CHL_ROUTE_ROUTE1 3).memReach 1 = false ∧ hDie 0x20000003 ≠ chained.die ∧
    (fetching 1).slotQ (5 : Fin 64) = some (3, { slot := some 5, gen := 1, ctx := 0x01000003, rbase := 0x5000, tail := 1 }) ∧
    (fetching 1).qRuns 3 = true ∧ (fetching 1).winRoom 3 = true ∧
    ((fetching 1).vaGet .wellspring [2, 5] 5 .wspRead 0x5000 32 []).2 = .ok ([0x10, 0x50, 0, 0, 0, 0, 0, 0, 0x40] ++ List.replicate 23 0) ∧
    ((fetching 2).vaGet .wellspring [2, 5] 5 .wspRead 0x5010 16 []).2 = .ok ([0x40, 0, 0, 0, 0, 0, 0, 0, 0] ++ List.replicate 7 0) ∧
    (((fetching 1).set R.DTU_CTL_EN 0).vaGet .wellspring [2, 5] 5 .wspRead 0x5000 32 []).2 = .fail := by decide
theorem test_doorbell_moves_tail : at_ (.doorbell .m1 1 0x01000003 4) ringing (fun t => (t.recNat 2 3 0x18 4, t.wsp.runq)) = some (4, [3]) := by decide
theorem test_fetch_submission : at_ (.packetFetch 5 []) (fetching 1) (fun t => ((t.q? 3).map (·.subs.map (·.cblen)))) = some (some [64]) := by decide
theorem test_fetch_packet : at_ (.packetFetch 5 []) (fetching 3) (fun t => t.wsp.win.map (fun p => (p.id, p.bytes.length, p.ref_))) = some [(1, 16, 0)] := by decide

theorem witness_PacketsParseCommitRetire :
    (parsing .fetched 0).slotQ (5 : Fin 64) = some (3, parsingQ) ∧ (parsing .fetched 0).q? 3 = some parsingQ ∧ (parsing .fetched 0).qRuns 3 = true ∧
    ((parsing .fetched 0).pkOf 3).find? (fun p => p.stage == .fetched) = some (parsingP .fetched 0) ∧
    parsingQ.subs.find? (fun u => u.idx == 0) = some { idx := 0, cbva := 0x5000, cblen := 64, subid := 2, dl := 0, after := false, next := 32 } ∧
    pkType (parsingP .fetched 0).bytes ≠ 0x20 ∧ pkPen (parsingP .fetched 0).bytes = false ∧ ((parsing .fetched 0).pinAll 5 9 []).isSome = true ∧
    ((parsing .parsed 0).pkOf 3).find? (fun p => p.stage == .fetched || p.stage == .parsed) = some (parsingP .parsed 0) ∧
    (parsing .parsed 0).pkHandle (parsingP .parsed 0) 0x01000003 true = some 0 ∧ pkHandles (parsingP .parsed 0) = [(0x01000003, true)] ∧
    (parsing .parsed 3).pkHandle (parsingP .parsed 3) 0x01000003 true = some 0 ∧
    ((parsing .parsed 0).memSet 0x10E4 4 4).pkHandle (parsingP .parsed 0) 0x01000003 true = some 4 ∧
    (parsing .done 0).pk? 7 = some (parsingP .done 0) ∧ (parsing .done 0).wtAcked = true ∧ hDie 0x01000003 = (parsing .done 0).die ∧
    (late false).slotQ (5 : Fin 64) = some (3, lateQ false) ∧ (late true).slotQ (5 : Fin 64) = some (3, lateQ true) ∧
    (late false).q? 3 = some (lateQ false) ∧ (late true).q? 3 = some (lateQ true) ∧ (5 : Nat) < (late false).tb ∧ (5 : Nat) < (late true).tb := by decide
theorem test_parse : at_ (.packetParse 5 []) (parsing .fetched 0) (fun t => (t.pk? 7).map (fun p => (p.stage, p.ref_, p.sigs.map (·.n)))) =
    some (some (.parsed, 0, [9])) := by decide
theorem test_commit_pends : at_ (.packetCommit 5 []) (parsing .parsed 0) (fun t => ((t.pk? 7).map (·.stage), t.syn.pend.map (·.value), (t.q? 3).map (·.cboff))) =
    some (some .committed, [9], some 32) := by decide
theorem test_retire_signals : at_ (.packetRetire 7 []) (parsing .done 0) (fun t => ((t.pk? 7).isSome, (t.synObj 3).value)) = some (false, 9) := by decide

theorem witness_ResidencyAndGraphPatch :
    (inLine.runnable []).length = 1 ∧ inLine.freeSlot = some 0 ∧ inLine.ctxRoom 0x01000003 = true ∧
    (leaving.wsp.qs.find? fun x => x.2.slot.isSome && x.2.evict) = some (3, leavingQ) ∧ leaving.q? 3 = some leavingQ ∧
    leaving.queueBlocks 3 = [] ∧ leaving.emb = [] ∧ leaving.recLoc 2 3 = .loc 0x30C0 ∧ leaving.locStatus (.loc 0x30C0) = .ok ∧
    (∀ e < 16, leaving.flag R.SIN_POISON_VALID e = false) ∧ leavingQ.head ≠ leavingQ.tail ∧
    Running patching 7 patchP = true ∧ pkType patchP.bytes = 6 ∧
    (match patching.gRead patchP none [] with
      | (u, .ok (h, r, m)) => patchGen h == some 1 && fieldOf patchP.bytes 24 4 ≤ (gFree r).length && m == [0] &&
        (u.patchTouch patchP [(gMap h 1, 2), (gPool h 1, 256)] []).2 == .ok ()
      | _ => false) = true ∧
    ((patching.set R.DTU_CTL_EN 0).gRead patchP none []).2 = .fail ∧
    ([0] : List Nat)[0]? = some 0 ∧ ([1, 0] : List Nat)[1]? = some 0 := by decide
theorem test_make_resident : at_ (.queueMakeResident []) inLine (fun t => ((t.q? 3).map (·.slot), t.dtu.pasid, t.wsp.runq)) =
    some (some (some 0), [(0, 9)], []) := by decide
theorem test_evict_saves_head : at_ (.queueEvict []) leaving (fun t => (t.recNat 2 3 0x14 4, t.wsp.runq, t.dtu.pasid.lookup 5)) =
    some (4, [3], none) := by decide
theorem test_patch_flips_generation : at_ (.graphPatch 7 []) patching (fun t =>
    (t.memNat 0x77004 4, t.memNat 0x77008 4, t.memNat 0x77402 2, (t.pk? 7).map (·.stage))) = some (1, 1, 1, some .done) := by decide

theorem witness_BlocksArePlacedAndEnd :
    (launching.claims.map (·.1)) = [launchP] ∧ launching.chooseEmb (launching.emask 0) (dispInfo launchP 5 3) = some 0 ∧
    ((holding blk0).em 0).ops 2 = [] ∧ (holding blk0).blk? 0 2 = some blk0 ∧ blk0.liveThreads = [] ∧
    (holding { blk0 with term := some { cause := 5 } }).blk? 0 2 = some { blk0 with term := some { cause := 5 } } ∧
    IssuesB (holding runningB) 0 1 { w := 0xF300000000000000 } { blk := 2, parts := [(0, 1)], stamp := 0 } runningB 0x40 = true ∧ opDefined 0xF3 = false ∧
    (asked false).blk? 0 2 = some runningB ∧ ((asked false).em 0).pre = some { blks := [(2, 0x01000003, 1)], got := true } ∧ ((asked false).em 0).ops 2 = [] ∧
    (asked false).saveOk [(runningB, (asked false).segAddr 0x01000003 1)] = true ∧
    (asked true).saveOk [(runningB, (asked true).segAddr 0x01000003 1)] = false ∧
    (returning.readSaved savedV []).2.2 = true ∧ returning.savedFits 0 savedV.blk = true ∧ savedV.blk.info.kind ≠ .kernel ∧
    returning.blockQ savedV.blk = some 3 ∧ returning.claims = [] ∧ (returning.em 0).freeBlock = some 0 ∧ returning.saved[(0 : BitVec 16).toNat]? = some savedV ∧
    idleUp.embsOn.length = 16 ∧ (15 : Nat) ∈ idleUp.embsOn ∧ idleUp.wsp.idle.lookup 15 = some 0 ∧ (idleUp.em 15).blocks = [] ∧
    min (idleUp.get R.WSP_GATE_MINON) idleUp.embCount < idleUp.embsOn.length ∧ 0 + idleUp.get R.WSP_GATE_IDLE_US * 100 ≤ idleUp.tb := by decide +kernel
theorem witness_BlocksArePlacedAndEnd_preempt :
    crowded.needs = [(0, [0], dispInfo crowdP 5 0)] ∧ crowded.flag R.WSP_CTL_PRE_EN = true ∧ crowded.chooseEmb [0] (dispInfo crowdP 5 0) = none ∧
    crowded.offEmbers [0] = [] ∧ (crowded.em 0).pre = none ∧ crowded.victims 0 0 (dispInfo crowdP 5 0) = some [(2, wideB)] ∧
    crowded.seats [(2, wideB)] = some [(2, 0x01000003, 1)] := by decide
theorem test_placement : at_ .blockPlacement launching (fun t => ((t.blk? 0 0).map (fun k => (k.cohorts.length, k.bx)), (t.pk? 7).bind (·.launch))) =
    some (some (2, 0), some { next := 1, live := 1 }) := by decide
theorem test_undefined_opcode : at_ (.blockTermination 0 2 (some (1, 0xF300000000000000))) (holding runningB) (fun t =>
    ((t.blk? 0 2).bind (·.term)).map (fun x => (x.cause, x.sub))) = some (some (5, 1)) := by decide
theorem test_save : at_ (.preemptSave 0) (asked false) (fun t => (t.saved.map (·.addr), (t.blk? 0 2).isSome, t.get R.WSP_PREEMPTS_COUNT)) =
    some ([0xC0000], false, 1) := by decide +kernel

theorem witness_IntegerInstructions :
    (∀ op ∈ [0, 1, 2, 4, 5, 6, 7, 8, 9, 10, 13], IssuesB (holding runningB) 0 1 (AluShape.ins { use := mSgn + mSat } (word56 op iWord)) oneEn runningB 0x40 = true) ∧
    IssuesB (holding runningB) 0 1 (AluShape.ins { nsrc := 3 } (word56 3 iWord)) oneEn runningB 0x40 = true ∧
    (∀ op ∈ [11, 12], IssuesB (holding runningB) 0 1 (AluShape.ins { ali := false, nsrc := 1 } (word56 op 0x060100000000)) oneEn runningB 0x40 = true) ∧
    IssuesB (holding runningB) 0 1 (AluShape.ins { dst := false, use := 0x3C00 + mSgn } (word56 0x0E 0x020100000800)
      (badIf (setpZero (word56 0x0E 0x020100000800) true) 2 ++ badIf (6 ≤ setpCond (word56 0x0E 0x020100000800)) 8)) oneEn runningB 0x40 = true ∧
    IssuesB (holding runningB) 0 1 (AluShape.ins { ali := false, use := 0xF, other := true } (word56 0x0F iWord)) oneEn runningB 0x40 = true := by decide
theorem test_iadd : at_ (.iadd 0 1 iWord) (holding runningB) (fun t => (t.blk? 0 2).map (fun k => (k.rd (0, 0) 3, k.rd (0, 0) 1, k.pcOf (0, 0)))) =
    some (some (12, 5, 0x48)) := by decide
theorem test_isub_wraps : at_ (.isub 0 1 iWord) (holding runningB) (fun t => (t.blk? 0 2).map (fun k => k.rd (0, 0) 3)) =
    some (some 0xFFFFFFFE) := by decide
theorem test_shl_past_width : ishl 1 32 = 0 ∧ ishr 0x200 0x80000000 40 = 0xFFFFFFFF ∧ ibfe 0x200 0xF0 0x0404 = 0xFFFFFFFF := by decide

theorem witness_FloatingPointInstructions :
    (∀ op ∈ [0x10, 0x11, 0x13, 0x14, 0x20, 0x21, 0x23, 0x24], IssuesB (holding runningB) 0 1 (AluShape.ins { use := mHp - mRnd } (word56 op iWord)) oneEn runningB 0x40 = true) ∧
    (∀ op ∈ [0x12, 0x22], IssuesB (holding runningB) 0 1 (AluShape.ins { nsrc := 3, use := mHp + mNc } (word56 op iWord)) oneEn runningB 0x40 = true) ∧
    IssuesB (holding runningB) 0 1 (AluShape.ins { ali := false, nsrc := 3, use := mFp + mNc } (word56 0x26 iWord)) oneEn runningB 0x40 = true ∧
    IssuesB (holding runningB) 0 1 (AluShape.ins { ali := false, nsrc := 1, use := mRnd } (word56 0x16 0x060100000000)) oneEn runningB 0x40 = true ∧
    IssuesB (holding runningB) 0 1 (AluShape.ins { ali := false, nsrc := 1, use := 0x3FFF } (word56 0x30 0x060100000030) (cvtBad (word56 0x30 0x060100000030)))
      oneEn runningB 0x40 = true ∧
    IssuesB (holding runningB) 0 1 (AluShape.ins { dst := false, use := 0x3C00 + mNeg + mAbs } (word56 0x15 0x020100000800) (setpFBad (word56 0x15 0x020100000800)))
      oneEn runningB 0x40 = true ∧
    IssuesB (holding runningB) 0 1 (AluShape.ins { dst := false, use := 0x3C00 + mNeg + mAbs } (word56 0x25 0x000100000800)
      (setpFBad (word56 0x25 0x000100000800) ++ badIf (iD (word56 0x25 0x000100000800) % 8 % 2 = 1) 4)) oneEn runningB 0x40 = true := by decide
theorem test_fadd_value : fpAdd f32 0 0x3F800000 0x40000000 = 0x40400000 ∧ fpAdd f32 0x40 0x3F800000 0x40000000 = 0x3F800000 ∧
    fpMul f32 0 0x7F800000 0 = f32.nanCode := by decide

theorem witness_RoundingIsCorrect :
    f32 ∈ [f32, f16, bf16] ∧ (∀ r ∈ [Rnd.rne, .rtz, .rdn, .rup], f32.dec (f32.enc r (.fin true 3 (-1))) = .fin true 0xC00000 (-23)) := by decide

theorem witness_SpecialFunctionsAndMoves :
    (∀ op ∈ [0x40, 0x41, 0x42, 0x43, 0x44, 0x45, 0x46, 0x47], IssuesB (holding runningB) 0 1 (AluShape.ins { ali := false, nsrc := 1 } (word56 op 0x060100000000))
      oneEn runningB 0x40 = true) ∧
    IssuesB (holding runningB) 0 1 (AluShape.ins { nsrc := 1 } (word56 0xB0 0x060100000000)) oneEn runningB 0x40 = true ∧
    IssuesB (holding runningB) 0 1 (AluShape.ins { ali := false, nsrc := 0, other := true } (word56 0xB4 0x060000000000)) oneEn runningB 0x40 = true ∧
    IssuesB (holding runningB) 0 1 (AluShape.ins { nsrc := 1, dst := false } (word56 0xB5 0x40001000000FF)
      (badIf (!iF (word56 0xB5 0x40001000000FF)) 1 ++ badIf (iD (word56 0xB5 0x40001000000FF) ≠ 0 || iImm (word56 0xB5 0x40001000000FF) / 256 ≠ 0) 2)) oneEn runningB 0x40 = true ∧
    (let v := word56 0xB3 0x020100000000;
      IssuesB (holding runningB) 0 1 { w := v, bad := plopBad v } oneEn runningB 0x40) = true ∧
    IssuesB (holding runningB) 0 1 (AluShape.ins { ali := false, nsrc := 0, dst := false } (word56 0x76 0) (badIf (iD (word56 0x76 0) ≠ 0) 2)) oneEn runningB 0x40 = true := by decide
theorem test_mov : at_ (.mov 0 1 0x060100000000) (holding runningB) (fun t => (t.blk? 0 2).map (fun k => k.rd (0, 0) 3)) = some (some 5) := by decide
theorem test_r2p : at_ (.regToPredicate 0 1 0x40001000000FF) (holding runningB) (fun t => (t.blk? 0 2).map (fun k => (k.pred (0, 0) 0, k.pred (0, 0) 1, k.pred (0, 0) 2))) =
    some (some (true, false, true)) := by decide

theorem witness_LoadsStoresAndFences :
    IssuesB (holding memB) 0 1 (memIns (word56 0x50 0x2060140000000)) oneEn memB 0x40 = true ∧
    IssuesB (holding memB) 0 1 (memIns (word56 0x50 0x060040000000)) oneEn memB 0x40 = true ∧
    IssuesB (holding memB) 0 1 (memIns (word56 0x51 0x2040140000000)) oneEn memB 0x40 = true ∧
    IssuesB (holding memB) 0 1 (memIns (word56 0x52 0x000240000000)) oneEn memB 0x40 = true ∧
    memFault (word56 0x51 0x2040140000000) (memOff (word56 0x51 0x2040140000000)) 4 memB (0, 0) = none ∧
    IssuesB (holding memB) 0 1 { w := word56 0xB2 0x4000000000003, bad := fenceBad (word56 0xB2 0x4000000000003) } oneEn memB 0x40 = true ∧
    oneEn.active memB (word56 0xB2 0x4000000000003) ≠ [] ∧ memB.pend = [] ∧ (holding memB).wtAcked = true ∧
    memSpace (word56 0x51 0x2040140000000) = 1 ∧ memB.helper (0, 0) = false ∧
    Served ((holding memB).set R.BOOT_PROF_EMBMAX 16) .m0 (0x1000200 + 0x10000 * 0) = true := by decide
theorem test_st_caldera : at_ (.st 0 1 0x2040140000000) (holding memB) (fun t => (t.blk? 0 2).map (fun k => k.calGet 4 4)) = some (some [7, 0, 0, 0]) := by decide
theorem test_fence_release : at_ (.fence 0 1 0x4000000000003) (holding memB) (fun t => ((t.em 0).l1.length, t.out)) = some (0, [.hostRead 0 0]) := by decide

theorem witness_AtomicsAndTheirCompletion :
    (∀ op ∈ [0, 1, 2, 3, 4, 5, 6, 7, 9], IssuesB (holding memB) 0 1 (atmIns (word56 (0x60 + op) 0x2060101000000)) oneEn memB 0x40 = true) ∧
    IssuesB (holding memB) 0 1 (atmIns (word56 0x68 0x2060101000000)) oneEn memB 0x40 = true ∧
    memSpace (word56 0x60 0x2060101000000) = 1 ∧ atmOrder (word56 0x60 0x2060101000000) < 2 ∧
    memFault (word56 0x60 0x2060101000000) 0 4 memB (0, 0) = none ∧
    IssuesB gAtom 0 1 (atmIns (word56 0x60 0x060002000000)) oneEn gB 0x40 = true ∧ oneEn.active gB (word56 0x60 0x060002000000) = [(0, 0)] ∧
    memSpace (word56 0x60 0x060002000000) = 0 ∧ memFault (word56 0x60 0x060002000000) 0 4 gB (0, 0) = none ∧ gB.pend = [] ∧ gB.copies = [] ∧ memB.pend = [] ∧
    gAtom.accFind 0 (gAtom.em 0).nextId = none ∧ (gAtom.em 0).nextId = 1 ∧ (gAtom.vaNow (accId 0 1) 5 0x5010 .atomic).2 = some (.at_ 0x77010) ∧ gAtom.taLoc 0x77010 = .loc 0x77010 ∧ gAtom.locStatus (.loc 0x77010) = .ok ∧
    (holding outB).accFind 0 (9 : BitVec 32).toNat = some (2, outB, outA) ∧ outA.loc = some (.host 0) ∧ outA.acq = false ∧
    ((holding outB).pk? 7).map (·.err) = some 0 := by decide
theorem test_atom_caldera : at_ (.atomAdd 0 1 0x2060101000000) (holding memB) (fun t => (t.blk? 0 2).map (fun k => (k.calGet 4 1, k.rd (0, 0) 3))) =
    some (some ([16], 9)) := by decide
theorem test_atom_global : at_ (.atomAdd 0 1 0x060002000000) gAtom (fun t => (t.memNat 0x77010 4, (t.blk? 0 2).map (fun k => (k.rd (0, 0) 3, k.pend.length)))) =
    some (23, some (20, 0)) := by decide
theorem test_atom_returns : at_ (.atomicCompletion 0 9 0x55 true) (holding outB) (fun t => (t.blk? 0 2).map (fun k => (k.rd (0, 0) 4, k.pend.length))) =
    some (some (0x55, 0)) := by decide

theorem witness_BranchesExitsAndBarriers :
    IssuesB (holding runningB) 0 1 { w := word56 0x70 0x18000000, bad := badIf (bitsOf (word56 0x70 0x18000000) 0 3 ≠ 0) 2 } oneEn runningB 0x40 = true ∧
    (∀ op ∈ [0x71, 0x73], (IssuesB (holding gB) 0 1 { w := word56 op 0x4000000000000, ops := [{ sel := 0, n := 2 }] } oneEn gB 0x40 &&
      iA (word56 op 0x4000000000000) == 0 && gB.rdGroup (0, 0) 0 2 % 8 == 0 && iF (word56 op 0x4000000000000)) = true) ∧
    IssuesB (holding runningB) 0 1 { w := word56 0x72 0x4000000000000, ops := [{ sel := 0, n := 2 }] } oneEn runningB 0x40 = true ∧
    IssuesB (holding runningB) 0 1 { w := word56 0x74 0 } oneEn runningB 0x40 = true ∧ ((holding runningB).em 0).wants = [] ∧ runningB.bars = [] ∧
    IssuesB (holding runningB) 0 1 { w := word56 0x75 0x4000000000003 } oneEn runningB 0x40 = true ∧ runningB.pend = [] ∧
    oneEn.active runningB (word56 0x75 0x4000000000003) = oneEn.threads ∧ (runningB.coh 0).lane 0 = .run ∧ runningB.liveThreads = oneEn.threads ∧
    IssuesB (holding pairB) 0 1 { w := word56 0x75 0x4000000000003 } oneEn pairB 0x40 = true ∧ (0, 5) ∈ pairB.liveThreads ∧ (pairB.coh 0).lane 5 = .want ∧
    oneEn.active runningB (word56 0x77 0x4000000001234) = [(0, 0)] ∧ oneEn.active runningB (word56 0x77 0xC000000000012) = [(0, 0)] ∧
    oneEn.active runningB (word56 0x77 0x84000000000012) = [] := by decide
theorem test_bra : at_ (.bra 0 1 0x18000000) (holding runningB) (fun t => (t.blk? 0 2).map (fun k => k.pcOf (0, 0))) = some (some 0x60) := by decide
theorem test_barrier_completes : at_ (.barBlock 0 1 0x4000000000003) (holding runningB) (fun t => (t.blk? 0 2).map (fun k => ((k.coh 0).lane 0, k.pcOf (0, 0)))) =
    some (some (.run, 0x48)) := by decide
theorem test_trap : at_ (.trap 0 1 0x4000000001234) (holding runningB) (fun t => ((t.blk? 0 2).bind (·.term)).map (fun x => (x.cause, x.sub, x.aux))) =
    some (some (5, 0xD, 0x1234)) := by decide

theorem witness_SchedulersOfAnEmber :
    (holding joinB).blk? 0 2 = some joinB ∧ (joinB.coh 0).levels = [] ++ [{ addr := 0x80, sides := [1, 2] }] ∧ (holding joinB).embOn 0 = true ∧
    lanesOf (({ addr := 0x80, sides := [1, 2] } : Level).mask &&& (joinB.coh 0).live) = [0, 1] ∧ (joinB.coh 0).lane 1 = .recon ∧ (joinB.coh 0).pc 1 = 0x80 ∧
    packable.flag R.EMB_CTL_REPACK_EN 0 = true ∧ packable.embOn 0 = true ∧ (packable.em 0).wants = [] ∧
    (((packable.em 0).repackable 0).map fun c => (c.1, c.2.1.parts, c.2.2)) = [(0, [(0, 1)], 0x40), (1, [(4, 2)], 0x40)] ∧
    ((packOf ((packable.em 0).repackable 0)).map (·.1)) = [0, 1] ∧
    mergeParts ([(0, 1)] ++ [(4, 2)]) = [(0, 1), (4, 2)] ∧ (joinB.coh 0).deadlock = none ∧
    (deadB.coh 0).deadlock = some 0 ∧ (holding deadB).blk? 0 2 = some deadB := by decide
theorem test_reconverge : at_ (.reconvergence 0 2 0) (holding joinB) (fun t => (t.blk? 0 2).map (fun k => ((k.coh 0).levels.length, (k.coh 0).lane 0, (k.coh 0).lane 1))) =
    some (some (0, .run, .run)) := by decide
theorem test_repack : at_ (.repack 0 0) packable (fun t => ((t.em 0).entries.map (fun x => (x.1, x.2.parts)))) = some [(0, [(0, 1), (4, 2)])] := by decide

theorem witness_CollectivesOfACohort :
    IssuesB (ganging gangB) 0 1 (shflIns (word56 0x80 0x0601017FF000)) gangEn gangB 0x40 = true ∧
    IssuesB (ganging gangB) 0 1 (voteIns (word56 0x81 0x0400007FD000)) gangEn gangB 0x40 = true ∧
    IssuesB (ganging gangB) 0 1 (redIns (word56 0x83 0x0601007FC000)) gangEn gangB 0x40 = true ∧
    collMask (word56 0x83 0x0601007FC000) gangB (0, 1) = 2 ^ 32 - 1 ∧
    lanesOf ((2 ^ 32 - 1) &&& (gangB.coh 0).live) = lanesOf 3 ∧ gangEn.parts = [(0, 3)] ∧ (gangB.coh 0).lanes = [(0, .run), (1, .run)] := by decide
theorem witness_gathers : Gathers gangB gangEn (word56 0x83 0x0601007FC000) where
  once := by decide
  same q h := by
    obtain rfl : q = (0, 3) := by simpa [gangEn] using h
    exact ⟨2 ^ 32 - 1, by decide, by decide⟩
  alone q h l v m o := by
    obtain rfl : q = (0, 3) := by simpa [gangEn] using h
    by_cases h0 : 0 = l <;> by_cases h1 : 1 = l <;> simp [gangB, Block.coh, Cohort.lane, Cells.get, h0, h1]
theorem test_red : at_ (.red 0 1 0x0601007FC000) (ganging gangB) (fun t => (t.blk? 0 2).map fun k => (k.rd (0, 0) 3, k.rd (0, 1) 3, k.pcOf (0, 1))) =
    some (some (9, 9, 0x48)) := by decide
theorem test_shfl_xor : at_ (.shfl 0 1 0x0601017FF000) (ganging gangB) (fun t => (t.blk? 0 2).map fun k => (k.rd (0, 0) 3, k.rd (0, 1) 3)) =
    some (some (5, 4)) := by decide

theorem witness_FragmentsAndQueuedTiles :
    IssuesB (ganging gangB) 0 1 (fragLdIns (ganging gangB) (word56 0xDA 0x90080ffcc00)) gangEn gangB 0x40 = true ∧
    fragFault (word56 0xDA 0x90080ffcc00) gangB (0, 0) = none ∧ (gangEn.active gangB (word56 0xDA 0x90080ffcc00)).map (·.2) = [0, 1] ∧
    (∀ w ∈ [0x1000007ff000, 0x1000007ff200], IssuesB (ganging gangB) 0 1 (fragStIns (word56 0xDB (BitVec.ofNat 56 w))) gangEn gangB 0x40 = true) ∧
    basFault gangB 0 1 = none ∧ ((ganging gangB).em 0).basWait 2 [gangB.cpy 0 false] [] = false ∧
    IssuesB (ganging gangB) 0 1 (mmfIns (ganging gangB) (word56 0xD0 0x4047fccc0)) gangEn gangB 0x40 = true ∧ tphClass 3 = 1 ∧
    ((ganging gangB).em 0).charge = 0 ∧ ((ganging gangB).em 0).tq = [] ∧ ((ganging gangB).em 0).gq = [] ∧
    (IssuesB (ganging gangB) 0 1 (mmIns (ganging gangB) (word56 0xC0 0x7fffffff00660) 0xff0000000000001f) gangEn gangB 0x40 &&
      gangEn.threads.all fun y => mmFault (descOf (word56 0xC0 0x7fffffff00660) 0xff0000000000001f) gangB y == none) = true ∧
    (IssuesB (ganging gangB) 0 1 (drainIns (ganging gangB) (word56 0xC1 0x3ffff0003000) 0xff00000000000000) gangEn gangB 0x40 &&
      gangEn.threads.all fun y => drainFault (descOf (word56 0xC1 0x3ffff0003000) 0xff00000000000000) gangB y == none) = true ∧
    (IssuesB (ganging gangB) 0 1 (accCopyIns (word56 0xC2 0xff800) 0xff00000000000000) gangEn gangB 0x40 &&
      gangEn.threads.all fun y => accCopyFault (descOf (word56 0xC2 0xff800) 0xff00000000000000) gangB y == none) = true ∧
    ((fullQ gangB).em 0).tq.length ≥ 16 ∧ ((fullQ gangB).em 0).gq.length ≥ 8 := by decide
theorem test_mm_queues : at_ (.tmaMm 0 1 0x7fffffff00660 0xff0000000000001f) (ganging gangB) (fun t => ((t.em 0).tq.map fun o => (o.charge, o.id, o.lane))) =
    some [(32, 1, 0), (32, 2, 1)] := by decide

theorem witness_TheArrayAndTheDrain :
    (queued mmK).embOn 0 = true ∧ (((queued mmK).em 0).nextOp ((queued mmK).em 0).tq).map (·.k) = some mmK ∧ ((queued mmK).em 0).blocks.lookup 2 = some gangB ∧
    (∀ x ∈ [drK, cpK], (((queued x).em 0).nextOp ((queued x).em 0).gq).map (·.k) = some x) ∧
    2 * [[0]].length * outBits 12 ≤ 64 := by decide
theorem test_mm_starts : at_ (.tephraOpStart 0) (queued mmK) (fun t => ((t.em 0).tq.map (·.started), t.get R.TPH_MACS_COUNT 0)) =
    some ([true], 8192) := by decide +kernel

theorem witness_BasinInstructionsAndCompletion :
    IssuesB (ganging gangB) 0 1 (swapIns (word56 0xD1 0x3ffffff800000)) gangEn gangB 0x40 = true ∧ maskFault (iA (word56 0xD1 0x3ffffff800000)) gangB (0, 0) = none ∧
    maskFault (iA (word56 0xD1 0x3ffffff800000)) gangB (0, 1) = none ∧ ((ganging gangB).em 0).ops 2 = [] ∧
    IssuesB (ganging gangB) 0 1 (zeroIns (word56 0xD2 0x3ffffff800000)) gangEn gangB 0x40 = true ∧
    IssuesB (holding runningT) 0 1 (accLdIns (word56 0xD3 0x4ff800001)) oneEn runningT 0x40 = true ∧ basFault runningT 0 1 = none ∧ basFault runningT 1 1 = none ∧
    oneEn.active runningT (word56 0xD3 0x4ff800001) = [(0, 0)] ∧
    IssuesB (ganging gangB) 0 1 (accStIns (word56 0xD4 0x1000ff800000)) gangEn gangB 0x40 = true ∧
    IssuesB (ganging gangB) 0 1 (flagsIns (word56 0xD8 0x11ffff800001)) gangEn gangB 0x40 = true ∧ gangB.info.tiles ≤ 16 ∧
    (∀ z ∈ [0, 1, 2], IssuesB (holding runningT) 0 1 (reduceIns z (word56 (0xD5 + z) 0x200ff800031)) oneEn runningT 0x40 = true) ∧
    IssuesB (ganging gangB) 0 1 { w := word56 0xD9 0x4000000000001 } gangEn gangB 0x40 = true ∧
    (((fullQ gangB).em 0).ops 2).any (fun o => o.coh == 0 && bitB (word56 0xD9 0x4000000000001) o.grp) = true ∧
    ((fullQ gangB).em 0).basWait 2 [] [0] = true ∧ Served (up .m0 2) .m0 (0x100010C + 0x10000 * 3) = true := by decide
theorem test_tma_wait_waits : at_ (.tmaWait 0 1 0x4000000000001) (fullQ gangB) (fun t => t == fullQ gangB) = some true := by decide
theorem test_flags : at_ (.accFlags 0 1 0x11ffff800001) (ganging tsatB) (fun t => (t.blk? 0 2).map fun k => (k.rd (0, 0) 8, k.rd (0, 1) 8)) =
    some (some (0x20001, 0)) := by decide +kernel

theorem witness_TileAccessCopiesAndSpecialRegisters :
    (IssuesB (painting tileB) 0 1 (tileIns (word56 0xA0 0x80100000f00) .kernel) oneEn tileB 0x40 &&
      tileFault ((painting tileB).passBody 20) (word56 0xA0 0x80100000f00) tileB (0, 0) == none) = true ∧
    (IssuesB (painting tileB) 0 1 (tileIns (word56 0xA1 0x80100000f00) .kernel) oneEn tileB 0x40 &&
      tileFault ((painting tileB).passBody 20) (word56 0xA1 0x80100000f00) tileB (0, 0) == none) = true ∧
    oneEn.active tileB (word56 0xA1 0x80100000f00) = [(0, 0)] ∧ (tileAtt ((painting tileB).passBody 20) .kernel (word56 0xA1 0x80100000f00)).isSome = true ∧
    (IssuesB (painting fragB) 0 1 (tileIns (word56 0xA1 0x9ff00000f00) .fragment) oneEn fragB 0x40 &&
      tileFault ((painting fragB).passBody 20) (word56 0xA1 0x9ff00000f00) fragB (0, 0) == none) = true ∧
    IssuesB (painting fragB) 0 1 { w := word56 0xA4 0 } oneEn fragB 0x40 = true ∧ fragB.helper (0, 0) = false ∧ (fragB.coh 0).frag ≠ none ∧
    (IssuesB (holding copyB) 0 1 (xferIns (word56 0xA2 0x10081410000)) oneEn copyB 0x40 && xferFault (word56 0xA2 0x10081410000) copyB (0, 0) == none) = true ∧
    IssuesB (holding copyB) 0 1 { w := word56 0xA3 0x4000000000001 } oneEn copyB 0x40 = true ∧ copyB.copies.all (fun c => c.coh == 0 && bitB (word56 0xA3 0x4000000000001) c.grp) = true ∧
    (∀ w ∈ [0x4080000000010, 0x4080000000020], IssuesB (holding runningB) 0 1 { w := word56 0xB1 (BitVec.ofNat 56 w), ops := [{ sel := 4, n := 2 }] } oneEn runningB 0x40 = true) ∧
    (((holding copyB).em 0).blocks.findSome? fun p => (p.2.copies.find? fun c => c.id == (7 : BitVec 32).toNat).map fun _ => p.1) = some 2 ∧
    copyB.copyWaits copy7 = false := by decide
theorem test_tile_ld : at_ (.tileLd 0 1 0x80100000f00) (painting tileB) (fun t => (t.blk? 0 2).map fun k => [k.rd (0, 0) 4, k.rd (0, 0) 7]) =
    some (some [0x3F800000, 0]) := by decide +kernel
theorem test_rdsr : at_ (.rdsr 0 1 0x4080000000010) (holding pairB) (fun t => (t.blk? 0 2).map fun k => k.rd (0, 0) 4) = some (some 0) := by decide
theorem test_copy_row : ((holding copyB).copyRow 0 2 copy7 [] 0).2 = true ∧
    (((((holding copyB).memSet 0x77010 4 0x04030201).copyRow 0 2 copy7 [] 0).1.blk? 0 2).map fun k => k.calGet 0x20 4) = some [1, 2, 3, 4] := by decide +kernel

theorem witness_TextureAndSurfaceInstructions :
    (IssuesB (texing 1) 0 1 (texIns (word56 0x90 0x8010000000f)) oneEn texB 0x40 && texFault (word56 0x90 0x8010000000f) texB (0, 0) == none) = true ∧
    (IssuesB (texing 1) 0 1 (texIns (word56 0x90 0x801ff80006f)) oneEn texB 0x40 && texFault (word56 0x90 0x801ff80006f) texB (0, 0) == none) = true ∧
    (IssuesB (texing 1) 0 1 (texIns (word56 0x91 0x8010000000f)) oneEn texB 0x40 && texFault (word56 0x91 0x8010000000f) texB (0, 0) == none) = true ∧
    (IssuesB (texing 1) 0 1 (texIns (word56 0x92 0x8010000000f)) oneEn texB 0x40 && texFault (word56 0x92 0x8010000000f) texB (0, 0) == none) = true ∧
    oneEn.active texB (word56 0x92 0x8010000000f) = [(0, 0)] ∧ texB.helper (0, 0) = false ∧ texB.runOut (0, 0) 1 2 = false ∧ texB.pend = [] := by decide
theorem witness_texRead : (((texing 1).texRead 0 1 5 7 0x5000 32 []).2.map fun b => ((texDesc b).ok, (texDesc b).coords, (texDesc b).fetchAt 0 [1, 0])) =
      some (true, 2, .tex 0 1 0 0) ∧
    (((texing 7).texRead 0 1 5 7 0x5000 32 []).2.map fun b => (texDesc b).ok) = some false := by decide +kernel
theorem test_surf_ld : at_ (.surfLd 0 1 0x8010000000f []) (texing 1) (fun t => (t.blk? 0 2).map fun k => [4, 5, 6, 7].map fun r => k.rd (0, 0) r) =
    some (some [0x3F800000, 0, 0, 0x3F800000]) := by decide +kernel
theorem test_surf_type7 : at_ (.surfLd 0 1 0x8010000000f []) (texing 7) (fun t => (t.blk? 0 2).map fun k => [4, 5, 6, 7].map fun r => k.rd (0, 0) r) =
    some (some [0, 0, 0, 0]) := by decide +kernel
theorem test_tex_nearest : at_ (.tex 0 1 0x8010000000f []) (texing 1) (fun t => (t.blk? 0 2).map fun k => [4, 5, 6, 7].map fun r => k.rd (0, 0) r) =
    some (some [0, 0, 0, 0]) := by decide +kernel

theorem witness_PassesOpenDrawAndBin :
    Running (opening 0x20) 21 (passPk 0x20) = true ∧ (opening 0x20).pass? 21 = none ∧ (opening 0x20).domOn 1 = true ∧
    (opening 0x20).binPass = none ∧ (opening 0x20).inPlace (rpEmask (passPk 0x20).bytes) = [0] ∧
    ({ opening 0x20 with wsp := { (opening 0x20).wsp with outOf := [0] } }).inPlace (rpEmask (passPk 0x20).bytes) = [] ∧
    (∀ y ∈ [0x21, 0x22, 0x23], Running (drawing y) 21 (passPk y) = true) ∧ (drawing 0x21).pass? 20 = some passX ∧ passX.stop = false ∧ passX.done < passX.total ∧
    (drawing 0x20).binPass = some passX ∧ (drawing 0x20).passLive passX = true ∧ passX.draws[passX.draw]? = some drawX ∧ passX.batch = none ∧
    passX.prim + 3 ≤ drCount drawX.body ∧ ((drawing 0x20).drIndices passX drawX.body 0 128 []).2 = some [0, 1, 2] ∧
    batchGo drawX.body (2 ^ 16 - 1) 128 [0, 1, 2] 0 0 [] = ([[0, 1, 2]], 3, 0) ∧ (drawing 0x20).inPlace (rpEmask passX.body) = [0] ∧
    (binning 1).binReady = some (batchX 1, drawX, theBatch, [0, 1, 2]) ∧ (binning 0).binReady = some (batchX 0, drawX, theBatch, [0, 1, 2]) ∧ (binning 0).tiling = 0 := by
  decide
theorem witness_binning : ((((binning 1).sinAcquire true).batchVerts (batchX 1) drawX theBatch [0, 1, 2] []).2.map fun vs =>
      (((batchX 1).binStep drawX vs).fits, ((batchX 1).binStep drawX vs).culled)) = some (true, true) ∧
    ((binning 0).batchVerts (batchX 0) drawX theBatch [0, 1, 2] []).2.map (fun vs => ((batchX 0).binStep drawX vs).fits) = some false := by decide +kernel
theorem test_rp_draw : at_ (.rpDraw 21) (drawing 0x22) (fun t => (t.pass? 20).map fun x => x.draws.length) = some (some 2) := by decide
theorem test_bin_culled : at_ (.primitiveBinning []) (binning 1) (fun t => t.get R.GFX_CULLED_COUNT) = some 1 := by decide +kernel
theorem test_spill : at_ (.binSpill []) (binning 0) (fun t => (t.get R.GFX_SPILLS_COUNT, (t.pass? 20).map (·.phase))) = some (1, some .spill) := by decide +kernel

theorem witness_TilesAreShadedAndResolved :
    (tiling tileP []).domOn 1 = true ∧ (tiling tileP []).passOrder = [tileP] ∧ tileP.phase = .final ∧ tileP.tile < tileP.total ∧
    (tiling tileP []).passLive tileP = true ∧ (tiling tileP []).chooseTile tileP = some 0 ∧ tileP.tileAt 0 = (0, 0, 0) ∧ tileP.binDone = false ∧
    (tiling tileP [(2, segB)]).tileBlk 0 2 = some (segB, segT, tileP) ∧ tileP.stop = false ∧ segDone segB segT = true ∧ segT.kern = 0 ∧
    (((tileP.binOf 0).drop 0).filterMap fun i => (tileP.prims[i]?).map fun q => (i, q.draw)) = [(0, 0)] ∧
    (tiling tileP [(2, cohB)]).tileBlk 0 2 = some (cohB, cohT, tileP) ∧ cohT.quads.map (·.draw) = [0] ∧ tileP.draws[0]? = some drawX ∧
    (tiling tileP [(2, cohB)]).fragSlot 0 2 cohB = some 0 ∧ (tiling tileP [(2, cohB)]).embTakes 0 = true ∧
    (tiling kernP [(2, doneB)]).tileBlk 0 2 = some (doneB, doneT, kernP) ∧ kernP.kern ≠ [] ∧ tileShaded doneB doneT kernP = true ∧
    (tiling kernP [(2, doneB)]).fits 0 ((tiling kernP [(2, doneB)]).em 0) ((tiling kernP [(2, doneB)]).kernInfo kernP doneB) = true ∧
    (tiling tileP [(2, doneB)]).tileBlk 0 2 = some (doneB, doneT, tileP) ∧ tileShaded doneB doneT tileP = true ∧ doneB.pend = [] ∧ doneB.copies = [] ∧
    ((tiling tileP [(2, doneB)]).em 0).ops 2 = [] ∧ (rpLayout tileP.body).1.flatMap (resolveRuns tileP doneB) = [] ∧ tileP.done + 1 < tileP.total ∧
    (up .m0 2).rtiles = 0 ∧ (tiling tileP [(2, doneB)]).rtiles = 1 ∧ Served (up .m0 2) .m0 0xC00008 = true := by decide +kernel
theorem witness_tileLoad : ((((tiling tileP []).sinAcquire true).tileLoad tileP 0 0 0 []).2.isSome &&
    ((((tiling tileP []).sinAcquire true).tileLoad tileP 0 0 0 []).1.pass? 20 == some tileP)) = true := by decide +kernel
theorem test_edge_shared : edgeIn (0, 0) (512, 256) (256, 128) = !edgeIn (512, 256) (0, 0) (256, 128) ∧ edgeIn (0, 0) (512, 0) (100, 0) = true := by decide
theorem test_resolve : at_ (.tileResolve 0 2) (tiling tileP [(2, doneB)]) (fun t => ((t.blk? 0 2).isNone, t.get R.GFX_TILES_COUNT, (t.pass? 20).map (·.done))) =
    some (true, 1, some 1) := by decide +kernel
theorem test_fragment_cohort : at_ (.fragmentCohort 0 2) (tiling tileP [(2, cohB)]) (fun t => (t.blk? 0 2).map fun k => (k.rd (0, 0) 0, k.rd (0, 1) 0, (k.coh 0).live)) =
    some (some (0x80000001, 0x80000000, 0xF)) := by decide +kernel
theorem test_calres : at_ (.gfxCalresWrite .m0 9) (up .m0 2) (fun t => t.get R.GFX_CALRES_RES) = some 9 := by decide

theorem witness_DisplayChannelsScanFrames :
    Served showing .m0 0xA01000 = true ∧ showing.flag R.DCO_C_CTL_EN 0 = false ∧ showing.dcoCheck 0 = 0 ∧ (showing.dcoCh 0).next = none ∧
    (showing.set R.DCO_C_PASID_PASID 0 0).dcoCheck 0 = 9 ∧ (scanning false).flag R.DCO_C_CTL_EN 0 = true ∧
    Served (scanning false) .m0 0xA01000 = true ∧ ((scanning false).dcoCh 0).on = true ∧
    ((scanning false).dcoUpd 0 fun x => { x with on := false }).flag R.DCO_C_CTL_EN 0 = true ∧
    ((scanning true).dcoCh 0).stopping = true ∧ ((scanning false).dcoCh 0).next = some 1 ∧ (scanning false).dcoFrom 0 1 = 1 ∧
    (scanning false).dcoEpoch 0 1 = 900000 ∧ (startingF 900000).dcoFrom 0 900001 - 1 = 1 ∧ (startingF 900000).dcoEpoch 0 1 ≤ 900000 ∧
    (0 : Nat) < showing.get R.DCO_C_VTIM0_VACT 0 ∧ Served showing .m0 0xA01078 = true ∧ (showing.dcoCh 0).load = none ∧
    ((showing.dcoUpd 0 fun x => { x with load := some (0, 2, 2, 64) }).dcoCh 0).load.isSome = true ∧
    Served showing .m0 0xA01180 = true ∧ (showing.dcoCh 0).dcs = none ∧
    ((showing.dcoUpd 0 fun x => { x with dcs := some ([5, 0, 0], false) }).dcoCh 0).dcs.isSome = true := by decide +kernel
theorem test_dco_enable : at_ (.dcoChannelEnable .m0 0 true false 0) showing (fun t => (t.get R.DCO_C_CTL_EN 0, (t.dcoCh 0).next, t.dtu.pasid)) =
    some (1, some 1, [(64, 9)]) := by decide +kernel
theorem test_dco_refused : at_ (.dcoChannelEnable .m0 0 true false 0) (showing.set R.DCO_C_PASID_PASID 0 0) (fun t =>
    (t.get R.DCO_C_CTL_EN 0, t.get R.DCO_C_STAT_CFGERR 0)) = some (0, 9) := by decide +kernel
theorem test_mesh_refused : at_ (.dcoMeshLoadDone 0 []) (showing.dcoUpd 0 fun x => { x with load := some (0, 1, 2, 64) }) (fun t =>
    (t.get R.DCO_C_MESH_CFG_MERR 0, (t.dcoCh 0).load)) = some (1, none) := by decide +kernel

theorem witness_CommitsAreCheckedLatchedAndPaired :
    Served showing .m0 0xA01044 = true ∧ (showing.dcoCh 0).copy = none ∧
    ((showing.dcoUpd 0 fun x => { x with copy := some 0x4000 }).dcoCh 0).copy = some 0x4000 ∧
    ((showing.vaRead .dco (showing.dpaLoc 0x4000) 320 0 64 []).2.1).take 8 = [0, 0, 0, 0, 0, 0, 0, 0] ∧
    ((latching false).dcoCh 0).next = some 1 ∧ ((latching false).dcoCh 0).latch = 1 ∧ (latching false).tb = 850000 ∧
    (latching false).dcoFrom 0 (850000 + (latching false).dcoLead 0 + 1) - 1 = 1 ∧ (latching false).dcoEpoch 0 1 ≤ 850000 + (latching false).dcoLead 0 ∧
    (latching false).flag R.DCO_CTL_GENLOCK = false ∧ ((latching false).dcoCh 0).pend = some commitK ∧ commitK.acqen = false ∧
    (latching false).flag R.DCO_C_CTL_DLEN 0 = true ∧ (latching true).flag R.DCO_CTL_PAIR = true ∧ (latching true).flag R.DCO_CTL_GENLOCK = true ∧
    (latching true).dcoFind 0 1 = .ready ∧ (latching true).dcoFind 1 1 = .ready ∧ ((latching true).dcoCh 1).latch = 1 ∧
    ((latching true).dcoCh 1).pend = some { commitK with wait := 8 } ∧ ((latching true).dcoCh 1).next.isSome = true ∧
    ((latching false).dcoCh 1).next = none ∧ ((latching false).dcoCh 0).before ≠ 0x10 := by decide +kernel
theorem test_latch : at_ (.dcoLatch 0 []) (latching false) (fun t => ((t.dcoCh 0).incoming, (t.dcoCh 0).pend, (t.dcoCh 0).latch)) =
    some (some commitK, none, 2) := by decide +kernel
theorem test_latch_misses : at_ (.dcoLatch 0 []) ((latching false).dcoUpd 0 fun x => { x with pend := none }) (fun t =>
    (t.get R.DCO_C_MISS_COUNT 0, t.get R.DCO_C_STAT_LASTCAUSE 0, t.flt.staged.map (·.cause))) = some (1, 0x10, [0x10]) := by decide +kernel
theorem test_latch_pairs : at_ (.dcoLatch 0 []) ((latching true).dcoUpd 1 fun x => { x with pend := none }) (fun t =>
    ((t.dcoCh 0).pend, t.get R.DCO_C_STAT_LASTCAUSE 0, t.get R.DCO_C_STAT_LASTCAUSE 1)) = some (some commitK, 0x13, 0) := by decide +kernel

theorem witness_CameraPortsCaptureFrames :
    Served viewing .m0 0xB01000 = true ∧ viewing.flag R.CIF_P_CTL_EN 0 = false ∧ ((viewing.set R.CIF_P_CTL_OUTFMT 0 0).set R.CIF_P_CTL_DT 0x2A 0).cifCheck 0 = 0 ∧
    ((viewing.set R.CIF_P_CTL_OUTFMT 3 0).set R.CIF_P_CTL_DT 0x2A 0).cifCheck 0 = 3 ∧
    (camera []).flag R.CIF_P_CTL_EN 0 = true ∧ Served (camera []) .m0 0xB01000 = true ∧ (camera []).get R.CIF_P_CTL_DT 0 = (0x2A : BitVec 6).toNat ∧
    (camera []).cifOn 0 = true ∧ (camera []).cifFree 0 = true ∧ ((camera []).set R.CIF_P_REL_HANDLE 0x01000003 0).cifFree 0 = false ∧
    ((camera [shot]).cifPort 0).open_ = some shot ∧ shot.mute = false ∧ shot.fifo = [] ∧ shot.lines < 2 ∧
    (cifStoredLine 0 0x2A 0 4 [1, 2, 3, 4]).length ≤ 32768 ∧
    (((camera []).cifPut 0 { frames := [shot] }).cifStore 0 1 0x5000 [1, 2, 3, 4]).2 = .ok () ∧ (camera [shot]).wtAcked = true ∧
    ((camera [taken]).cifPort 0).frames = [taken] ∧ taken.closed = true ∧ hGen taken.sig = 0 ∧
    (((camera [taken]).cifDrain 0).cifStore 0 1 0x5100 (List.replicate 64 0)).2 = .ok () ∧
    (camera []).flag R.CIF_P_CTL_FSEN 0 = true ∧ (camera []).domLive 3 = true ∧ (camera []).cifSync 0 0 ≤ (camera []).tb ∧
    ((camera []).cifUpd 0 fun x => { x with pulse := some 5 }).tb = 200 := by decide +kernel
theorem test_cif_line : at_ (.csiLongPacket 0 0 0x2A 0 false false [1, 2, 3, 4]) (camera [shot]) (fun t =>
    (t.memNat 0x77000 4, (t.cifPort 0).frames.map (·.written))) = some (0x04030201, [1]) := by decide +kernel
theorem test_cif_deliver : at_ (.cifFrameComplete 0) (camera [taken]) (fun t =>
    (t.memNat 0x77100 4, t.get R.CIF_P_WCOUNT_COUNT 0, (t.cifPort 0).frames)) = some (1, 1, []) := by decide +kernel
theorem test_raw12 : cifStoredLine 2 0x2C 0 2 [0x12, 0x34, 0xAB] = [0x12, 0x34] := by decide

theorem witness_IslandCameraMotionAndInference :
    Served (up .m0 2) .m0 0x380000 = true ∧ (up .m0 2).engRuns 7 = false ∧ (up .m0 2).flag R.FUM_AOC_CTL_EN = false ∧
    watching.flag R.FUM_AOC_CTL_EN = true ∧ watching.fum.skip = 0 ∧ watching.fum.meBuf = none ∧ watching.fum.fie = none ∧
    { watching with fum := { watching.fum with skip := 2 } }.fum.skip = 2 ∧ { watching with fum := { watching.fum with meBuf := some 1 } }.fum.meBuf = some 1 ∧
    aoOut false false [[1, 2], [3, 4]] 0 0 1 1 = some 4 ∧ Served (up .m0 2) .m0 0x3800C0 = true ∧ (up .m0 2).flag R.FUM_STAT_MINIMAL = false ∧
    ((up .m0 2).set R.FUM_STAT_MINIMAL 1).flag R.FUM_STAT_MINIMAL = true ∧ inferring.fum.fie.isSome = true ∧
    (inferring.fieList 0 64 0x20000 false none).2.1 = false ∧ (inferring.fieList 0 64 0x20000 false none).2.2.2 = some 6 ∧
    (inferring.fieLayer 0x20000 0).op = 3 ∧ 6 ≤ (({ inferring with ao := putBytes 0 inferring.ao 0x20000 [7] } : State).fieLayer 0x20000 0).op ∧
    Served ((up .m0 2).set R.FUM_FIE_STAT_BUSY 1) .m0 0x3800C0 = true := by decide +kernel
theorem test_fie : at_ .fieRunDone inferring (fun t => (t.get R.FUM_FIE_SCORE_CODE, byteAt 0 t.ao 0x20200, t.get R.FUM_FIE_STAT_BUSY)) =
    some (134, 6, 0) := by decide +kernel
theorem test_aoc : at_ (.aocFrame [[9, 8], [7, 6]]) watching (fun t => (byteAt 0 t.ao 0x14000, t.get R.FUM_AOC_STAT_BUF, t.fum.meBuf)) =
    some (9, 1, some 1) := by decide +kernel

theorem witness_MicrocontrollerAndItsExtension :
    Served (up .m0 2) .m0 0x380008 = true ∧ (up .m0 2).flag R.FUM_MCU_CTL_RUN = false ∧ (up .m0 2).fum.bad = false ∧
    ({ up .m0 2 with fum := { bad := true } } : State).fum.bad = true ∧ extended.aoNat 0x30000 4 = 0x46585431 ∧ extended.aoNat 0x30004 4 = 2 ∧
    extended.fl (extended.boot.fumarole + 0x20) 4 = 0xFFFFFFFF ∧ extended.fl (extended.boot.fumarole + 0x1C) 4 = 0xFFFFFFFF ∧
    Served extended .m0 0x380008 = true ∧ extOn_.extOn = true ∧ (up .m0 2).extOn = false ∧ bitB (extOn_.get R.FUM_WAKE_EN_EN) 3 = false ∧
    bitB (wakeable.get R.FUM_WAKE_EN_EN) 3 = true ∧ wakeable.flag R.FUM_ACMP_CFG_SRC 3 = true ∧ wakeable.extOn = true ∧
    extOn_.flag R.FUM_FIE_STAT_BUSY = false ∧ (extOn_.set R.FUM_FIE_STAT_BUSY 1).extOn = true ∧ extOn_.flag R.FUM_MCU_CTL_RUN = true := by decide +kernel
theorem test_mcu_run_bad_generation : at_ (.mcuRun .m0 true 1) extended (fun t =>
    (t.get R.FUM_MCU_CTL_RUN, t.get R.FUM_MCU_CTL_EXT, t.flt.staged.map (·.d0))) = some (1, 0, [2]) := by decide +kernel
theorem test_ext_wake : at_ .extWake wakeable (fun t => (t.get R.FUM_WDAC_CODE, t.fum.holdOff)) = some (255, 400) := by decide +kernel

theorem witness_PowerStatesAreEnteredAndLeft :
    Served (up .m0 2) .m0 0x300000 = true ∧ Served (up .m3 2) .m3 0x38F010 = true ∧ (up .m0 2).pwr.tripped = false ∧
    (up .m0 2).get R.FUM_WAKE_EN_EN = 0 ∧ (up .m0 2).pwr.entry = none ∧ (up .m0 2).pwrQuiet % 128 = 127 ∧
    ((up .m0 2).set R.FUM_WAKE_EN_EN 1).get R.FUM_WAKE_EN_EN = 1 ∧ (entering 2).pwr.entry = some ⟨2, 0⟩ ∧ (entering 3).pwr.entry = some ⟨3, 0⟩ ∧
    (entering 3).flag R.FUM_WSRC_ENTRYWAKE = true ∧ ((entering 3).set R.PWR_CTL_RAILOFF 1).flag R.PWR_CTL_RAILOFF = true ∧
    (up .m0 2).flag R.PWR_CTL_S1EN = true ∧ (up .m0 2).get R.BOOT_STAT_PHASE = 3 ∧ (up .m0 2).s1Quiet = true ∧
    ((up .m0 2).set R.PWR_STAT_STATE 1).get R.PWR_STAT_STATE = 1 ∧ sleeping.tripCounts 0 = true ∧ bitB (sleeping.get R.FUM_WAKE_EN_EN) 0 = true ∧
    sleeping.get R.PWR_STAT_STATE = 2 ∧ sleeping.flag R.PWR_STAT_EXITING = false ∧ sleeping.pwr.s4 = false ∧ sleeping.flag R.PWR_STAT_EXITFAIL = false ∧
    waking.pwr.exit = some (0, 3) ∧ waking.resumeOk = true ∧ waking.domOn 0 = true ∧ waking.pwr.ramps = [] ∧
    ({ up .m0 2 with pwr := { waitGood := true } } : State).pwr.waitGood = true ∧ Served (up .m0 2) .m0 0x400F00 = true ∧
    (up .m0 2).flag R.PAD_HOLD_STAT_GEN = false ∧ ((up .m0 2).set R.PAD_HOLD_STAT_GEN 1).flag R.PAD_HOLD_STAT_GEN = true := by decide +kernel
theorem test_pwr_nowake : at_ (.pwrReqS2 .m0) (up .m0 2) (fun t => (t.get R.PWR_STAT_REFUSE, t.get R.PWR_STAT_ENTERING)) = some (2, 0) := by decide +kernel
theorem test_trip_wakes : at_ (.comparatorTrip 1 1) sleeping (fun t => (t.get R.FUM_WSRC_SRC, t.get R.PWR_STAT_EXITING, t.pwr.exit)) =
    some (1, 1, some (0, 2)) := by decide +kernel
theorem test_entry_s3 : at_ (.stateEntryComplete 5) (entering 3) (fun t => (t.get R.PWR_STAT_STATE, t.get R.PWR_STAT_EXITING, t.cru.latRtc)) =
    some (3, 1, 5) := by decide +kernel

theorem witness_DomainsCapsAndTemperature :
    Served (up .m0 2) .m0 0x300020 = true ∧ (up .m0 2).locked 1 = false ∧ ((up .m0 2).domPut 1 false).domOn 1 = false ∧
    Served ((up .m0 2).domPut 1 false) .m0 0x300020 = true ∧ (up .m0 2).domOn 1 = true ∧ draining.pwr.drains = [1, 17] ∧ draining.pwr.entry = none ∧
    bitB (draining.get R.PWR_DOM_REQ_REQ) 0 = true ∧ draining.locked 1 = false ∧ ({ draining with pwr := { draining.pwr with entry := some ⟨2, 0⟩ } } : State).pwr.entry.isSome = true ∧
    ramping.pwr.ramps = [0, 2, 17] ∧ ramping.locked 6 = false ∧ (ramping.domPut 6 false).domOn 6 = false ∧ (up .m0 2).get R.CHIP_ID_VARIANT = 2 ∧
    (up .m0 2).get R.PWR_LIMIT_CAPSTEP = 0 ∧ (hot 0).flag R.THM_MAX_VALID = true ∧ sgn 16 ((hot 1000).get R.THM_MAX_TEMP) = 1000 ∧
    (hot 0).get R.PWR_THERM_TRIP = 120 ∧ (hot 0).pwr.tripped = false ∧ (up .m0 2).get R.PWR_STAT_STATE < 2 ∧
    ((up .m0 2).set R.BOOT_DEF_MAP_MAP 0x80 0).physOf 0 = some 0 := by decide +kernel
theorem test_measure : at_ (.powerMeasurement 9500) (up .m0 2) (fun t => (t.get R.PWR_LIMIT_CAPSTEP, t.get R.PWR_EVT_CAP, t.pwr.bucket)) =
    some (1, 1, 500) := by decide +kernel
theorem test_crit : at_ .thermalControlRead (hot 890) (fun t => (t.get R.PWR_LIMIT_THSTEP, t.flt.staged.map (·.cause))) = some (7, [6]) := by decide +kernel
theorem test_ramp_abort : at_ (.rampWindowAbort 2) ramping (fun t => (t.locked 2, t.get R.PWR_ABORTLOG_DOMAIN, t.flt.staged.map (·.src))) =
    some (true, 2, [2]) := by decide +kernel

theorem witness_ResetsTakePlaceAndRelease :
    (up .m0 2).rst.asserted = none ∧ State.reset.rst.asserted = some .por ∧ ({ up .m0 2 with rst := { asserted := some .pin } } : State).rst.asserted = some .pin ∧
    (up .m0 2).flag R.HIF_STAT_LINKUP = false ∧ ((up .m0 2).set R.HIF_STAT_LINKUP 1).flag R.HIF_STAT_LINKUP = true ∧ (up .m0 2).rstReach = true ∧
    (((up .m0 2).set R.HIF_STAT_LINKUP 1).set R.PWR_STAT_STATE 2).rstReach = true ∧ Served (up .m0 2) .m0 0x200400 = true ∧
    ({ up .m0 2 with pwr := { tripped := true } } : State).rstReach = false ∧ Served ({ up .m0 2 with pwr := { tripped := true } } : State) .m0 0x200400 = true ∧
    ((up .m0 2).set R.WDT_STAT_STAGE 2).get R.WDT_STAT_STAGE = 2 ∧ (up .m0 2).domOn 7 = true ∧ (up .m0 2).engRuns 0 = false ∧
    ((up .m0 2).set R.CRU_RST_ENG_BLK 1).engRuns 0 = true ∧ Served (up .m0 2) .m0 0x200404 = true ∧ (up .m0 2).embCount = 16 ∧
    Served ((up .m0 2).set R.CRU_RST_ENG_BLK 2) .m0 0x200404 = true ∧ ((up .m0 2).set R.CRU_RST_ENG_BLK 2).engRuns 1 = true ∧
    fieldAt (0x300004 * 64 + 26) = some R.PWR_STAT_EXITFAIL ∧ R.PWR_STAT_EXITFAIL.kept &&& ResetKind.pin.bit ≠ 0 ∧ R.PWR_STAT_EXITFAIL.kept &&& ResetKind.por.bit = 0 ∧
    fieldAt (0xF00000 * 64 + 0x20 * 64 + 29) = some R.TXN_S_STAT_STATE ∧ engOf 0xF00020 = some 1 ∧ R.TXN_S_STAT_STATE.kept &&& 16 = 0 := by decide +kernel
theorem test_release_halt : at_ (.porRelease { straps := 2 }) State.reset (fun t => (t.get R.BOOT_STAT_PHASE, t.get R.CRU_RST_STAT_LAST, t.rst.asserted)) =
    some (5, 0, none) := by decide +kernel
theorem test_flr : at_ (.flr { flash := none }) ((up .m0 2).set R.HIF_STAT_LINKUP 1) (fun t =>
    (t.get R.CRU_RST_STAT_LAST, t.get R.CRU_RST_STAT_COUNT, t.get R.BOOT_STAT_ENTRY, t.get R.BOOT_STAT_PHASE)) = some (2, 1, 2, 4) := by decide +kernel
theorem test_eng_txn : at_ (.engResetTxn .m0) (slotUp 1) (fun t => (t.get R.TXN_S_STAT_STATE 0, t.get R.TXN_S_STAT_REASON 0, t.engRuns 1)) =
    some (0, 7, true) := by decide +kernel

theorem witness_WaitsOfTheBringUpEnd :
    (up .m0 2).boot.waitSlot = false ∧ (slotless 4).boot.waitSlot = true ∧ (up .m0 2).boot.waitChain = false ∧
    ({ (slotless 3) with boot := { (slotless 3).boot with waitChain := true } } : State).boot.waitChain = true ∧ (slotless 3).boot.env.hang = none := by decide +kernel
/-- R572, R576: the FAIL record of worked case A of spec/17_bringup.md; R579: what hangs is noted. -/
theorem test_interrupted : (let s := ({ (slotless 2) with boot := { (slotless 2).boot with inter := some (11, 0, 9600) } } : State).interrupted false;
    (s.boot.crumbs.lookup 0).map (·.1) = some 0x000025800400030B ∧ s.startVar 11 = 1) := by decide +kernel
theorem test_hang : (let s := ({ (slotless 2) with boot := { (slotless 2).boot with env := { hang := some 14, hangAt := (3, 5, 2) } } } : State).stepArray;
    s.boot.open_ = some (14, 0, 0) ∧ s.boot.hungAt = some (3, 5, 2) ∧ s.booting = false) := by decide +kernel
theorem test_slot_timeout : at_ .slotWaitTimeout (slotless 4) (fun t => (t.boot.waitSlot, t.boot.slotTmo, t.boot.crumbs.lookup 0)) =
    some (false, true, some (0x100050C, 0)) := by decide +kernel

theorem witness_MailboxBootControlAndTestPort :
    (up .m0 2).mbxServes = false ∧ (mail 1 []).mbxServes = true ∧ (mail 1 []).mbxNum 0 2 = 1 ∧ (mail 2 (toBytes 4 3 ++ toBytes 4 0 ++ [1, 2])).mbxNum 2 2 = 10 ∧
    (mail 2 (toBytes 4 1 ++ toBytes 4 0 ++ [1, 2])).mbxRegion 1 = none ∧ (mail 2 []).mbxRegion 9 = some none ∧
    (mail 4 [1]).mbxNum 16 4 = 1 ∧ (mail 4 [1]).get R.BOOT_STAT_SLOT = 0 ∧ (mail 4 [1]).dirEnt 2 = none ∧ (mail 9 []).mbxNum 0 2 = 9 ∧
    Served (up .m0 2) .m0 0x100014 = true ∧ (up .m0 2).flag R.BOOT_STAT_TRIAL = false ∧ ((up .m0 2).set R.BOOT_STAT_TRIAL 1).flag R.BOOT_STAT_TRIAL = true ∧
    State.reset.rst.asserted = some .por ∧ (up .m0 2).rst.asserted = none ∧ (up .m0 2).get R.BOOT_PROF_DBG = 0 ∧
    ((up .m0 2).set R.BOOT_PROF_DBG 3).get R.BOOT_PROF_DBG = 3 := by decide +kernel
theorem test_mbx_badop : at_ (.mbxDone true {}) (mail 9 []) (fun t => (t.rawGet 0x4800, t.rawGet 0x4804, t.rawGet 0x4808, t.rawGet 0x4FF4)) =
    some (9, 0x77, 1, 2 ^ 30) := by decide +kernel
theorem test_mbx_denied : at_ (.mbxSetTrial true) (mail 4 [0]) (fun t => t.rawGet 0x4808) = some 4 := by decide +kernel
theorem test_svnadv : at_ (.bootSvnadv .m0 0xB007) ((up .m0 2).set R.BOOT_SVN_IMG 3) (fun t => t.get R.BOOT_SVN_FUSED) = some 3 := by decide +kernel
theorem test_idcode : at_ .jtagIdcode ((up .m0 2).set R.CHIP_ID_REV 1) (fun t => t.out.getLast?) = some (some (.tdo 0x1C01656F)) := by decide +kernel

theorem witness_PinEventsAndSerialCommands :
    (up .m0 2).domOn 0 = true ∧ (up .m0 2).get R.PWR_STAT_STATE = 0 ∧ ((up .m0 2).set R.PAD_PIN_IMODE 1 20).get R.PAD_PIN_IMODE 20 = 1 ∧
    (up .m0 2).padLevel 20 = false ∧ ({ up .m0 2 with pad := { lvl := 2 ^ 20 } } : State).padLevel 20 = true ∧
    Served (up .m0 2) .m0 0x400404 = true ∧ Served (up .m0 2) .m0 0x400604 = true ∧ Served (up .m0 2) .m0 0x380404 = true ∧
    (up .m0 2).flag (serF 0 R.SER_CTL_EN) = false ∧ (serial 0 none).flag (serF 0 R.SER_CTL_EN) = true ∧ (serial 3 none).flag (serF 3 R.SER_CTL_EN) = true ∧
    (serial 0 none).flag (serF 0 R.SER_STAT_BUSY) = false ∧ (serial 0 none).serSt 0 = { dyn := [9] } ∧
    (serial 1 (some ⟨3, false, 0, true, 5, 0⟩)).serSt 1 = { dyn := [9], cmd := some ⟨3, false, 0, true, 5, 0⟩ } := by decide +kernel
theorem test_pin_event : at_ (.padPinEvent (2 ^ 20) (2 ^ 20)) ((up .m0 2).set R.PAD_PIN_IMODE 1 20) (fun t =>
    (t.get R.PAD_IRQSTAT_EVT 0, t.get R.PAD_GCNT_COUNT, t.padLevel 20)) = some (2 ^ 20, 1, true) := by decide +kernel
theorem test_serial_go : at_ (.serDirectCcc .m0 0 false 1 true 0x5A 0x8C) (serial 0 none) (fun t =>
    (t.get (serF 0 R.SER_STAT_BUSY), t.out.getLast?)) = some (1, some (.serial 0 [6, 0x5A, 0x8C, 0, 0])) := by decide +kernel
theorem test_serial_end : at_ (.serCmdEnd 3 0 2 [7, 8]) (serial 3 (some ⟨0, true, 1, false, 9, 0⟩)) (fun t =>
    (t.get (serF 3 R.SER_STAT_DONE), t.get (serF 3 R.SER_STAT_COUNT), t.get (serF 3 R.SER_DAT_DATA) 0 0, t.out.getLast?)) =
    some (1, 2, 0x807, some (.irqMcu 8)) := by decide +kernel
theorem test_ibi : at_ (.serIbi 1 9 [1, 2]) (serial 1 none) (fun t => (t.get (serF 1 R.SER_IBI_ADDR), t.get (serF 1 R.SER_IBI_PAYLOAD),
    t.get (serF 1 R.SER_STAT_IBI))) = some (9, 0x201, 1) := by decide +kernel

theorem witness_ChainPortsTrainAndRetrain :
    Served (up .m0 2) .m0 0x901000 = true ∧ Served (up .m0 2) .m0 0x902000 = true ∧ (linkAt 0 1).flag R.CHLP_CTL_EN 0 = true ∧ (up .m0 2).flag R.CHLP_CTL_EN 0 = false ∧
    Served (linkAt 0 5) .m0 0x901000 = true ∧ (linkAt 0 5).get R.CHLP_STAT_STATE 0 = 5 ∧ (linkAt 0 9).get R.CHLP_STAT_STATE 0 = 9 ∧ (linkAt 0 2).get R.CHLP_STAT_STATE 0 = 2 ∧
    ((linkAt 0 9).set R.CHLP_LANES_ACTIVE 255).get R.CHLP_LANES_ACTIVE 0 = 255 ∧ (linkAt 0 2).chlPort 0 = {} ∧ (up .m0 2).get R.CHLP_CTL_MAXRATE 0 = 0 ∧
    groupOf 0x3F 0 = none ∧ bestLanes [(0, 0x3F), (1, 0xFF)] 0 = some (1, 0, 0xFF) ∧ bestLanes [(2, 0x41)] 0 = none := by decide +kernel
theorem test_best_tie : bestLanes [(0, 0x0F), (1, 0xFF)] 0 = some (1, 0, 0xFF) ∧ bestLanes [(0, 0xF0), (1, 0x3F), (2, 0x3F)] 0 = some (0, 1, 0xF0) := by decide +kernel
theorem test_train : at_ (.chlTrainRate 0 0 0xFF 0 0 7 1 0 false) (linkAt 0 2) (fun t => (t.get R.CHLP_STAT_RATE 0, t.get R.CHLP_STAT_WIDTH 0,
    t.get R.CHLP_LANES_ACTIVE 0, (t.chlPort 0).flitup, t.out.length)) = some (0, 0, 255, true, 4) := by decide +kernel
theorem test_disable : at_ (.chlPortDisable .m0 0 false 0 0) (linkAt 0 5) (fun t => (t.get R.CHLP_STAT_STATE 0, t.get R.CHLP_STAT_DREASON 0,
    t.flt.staged.map (fun r => (r.cls, r.cause, r.src)))) = some (8, 9, [(7, 9, 0)]) := by decide +kernel
theorem test_los : at_ (.lossOfSignal 1) (linkAt 1 5) (fun t => (t.get R.CHLP_STAT_STATE 1, t.get R.CHLP_RETRAIN_COUNT 1, (t.chlPort 1).was)) =
    some (9, 1, 5) := by decide +kernel

theorem witness_ChainTimersAndTheEndOfS2 :
    (linkAt 0 2).get R.CHLP_STAT_STATE 0 = 2 ∧ ((linkAt 0 2).chlUpd 0 fun x => { x with flitup := true }).chlPort 0 = { flitup := true } ∧
    (linkAt 0 3).get R.CHLP_STAT_STATE 0 = 3 ∧ (linkAt 0 8).get R.CHLP_STAT_STATE 0 = 8 ∧ ((linkAt 0 8).set R.CHLP_STAT_DREASON 3 0).get R.CHLP_STAT_DREASON 0 = 3 ∧
    (linkAt 0 8).flag R.CHLP_CTL_EN 0 = true ∧ (replaying 5).get R.CHLP_STAT_STATE 1 = 5 ∧ (replaying 5).chlPort 1 =
      { replay := [⟨7, 1, 1, { op := 9, tag := 3 }⟩], q := [{ op := 1 }], cred := [0, 0, 0, 0], naked := true, rx := 12 } ∧
    (asking 1).chl.req.find? (fun r => r.msg.tag == 6) = some ⟨{ op := 1, tag := 6, dst := 1, arg := 2 }, 1, [], none, false⟩ ∧
    ({ up .m0 2 with pwr := { exit := some (4, 2) } } : State).pwr.exit = some (4, 2) ∧
    ({ up .m0 2 with rst := { held := [(4, {}), (1, {})] } } : State).rst.held = [(4, {}), (1, {})] := by decide +kernel
theorem test_auth_fail : at_ (.authTimeout 0) (linkAt 0 3) (fun t => (t.get R.CHLP_STAT_STATE 0, t.get R.CHLP_STAT_DREASON 0, (t.chlPort 0).tries)) =
    some (8, 3, 1) := by decide +kernel
theorem test_replay : at_ (.replayTimeout 1) (replaying 5) (fun t => (t.get R.CHLP_REPLAY_COUNT 1, t.out, (t.chlPort 1).replay.map (·.sends))) =
    some (1, [.chl 1 9 0 0 3 0 0 []], [2]) := by decide +kernel
theorem test_request_timeout : at_ (.requestTimeout 6) (asking 1) (fun t => (t.chl.req, t.flt.staged.map (fun r => (r.cls, r.cause)))) =
    some ([], [(7, 0x11), (3, 4)]) := by decide +kernel

theorem witness_ChainMessagesAreGatedForwardedAndSent :
    (chainAt 5).get R.CHLP_STAT_STATE 0 = 5 ∧ (chainAt 5).chlPort 0 = {} ∧ (chainAt 5).flag R.CHL_ROLL_VALID = true ∧ (chainAt 5).portTo 1 = 0 ∧ (chainAt 5).portTo 2 = 1 ∧
    (chainAt 5).die = 0 ∧ (ChlMsg.rx { op := 1, src := 1 }).bad = false ∧ (ChlMsg.rx { op := 6 }).bad = true ∧ (chainAt 5).memReach 2 = true ∧ (chainAt 5).memReach 5 = false ∧
    (chainAt 6).get R.CHLP_STAT_STATE 0 = 6 ∧ (chainAt 3).get R.CHLP_STAT_STATE 0 = 3 ∧ (ChlPort.fits {} { op := 1 }) = true ∧
    (chlMerge [{ op := 1, arg := 4 }] { op := 1, arg := 5 }) = some ([{ op := 2, arg := 4 + 2 ^ 37 }], 0) := by decide +kernel
theorem test_forward : at_ (.chlRd 0 1 2 7 3) (chainAt 5) (fun t => (t.out, t.chl.fwd)) =
    some ([.chl 1 1 1 2 7 0 3 [], .chl 0 0xF3 0 0 0 0 0x10000 []], [⟨1, 7, 1, 1⟩]) := by decide +kernel
theorem test_unroutable : at_ (.chlRd 0 1 5 7 3) (chainAt 5) (fun t => t.out) = some [.chl 0 8 0 1 7 6 0 [], .chl 0 0xF3 0 0 0 0 0x10000 []] := by decide +kernel

theorem witness_FlitsAndLinkControl :
    (chainAt 5).get R.CHLP_STAT_STATE 0 = 5 ∧ (chainAt 5).chlPort 0 = {} ∧ (replaying 5).get R.CHLP_STAT_STATE 1 = 5 ∧ (secretly true).flag R.CHLP_STAT_ENCON 0 = true ∧
    ((secretly true).chlPort 0).proved = true ∧ ((secretly true).chlPort 0).grp = [⟨{ op := 9 }, 1, 0, 0⟩] ∧ ((secretly true).chlPort 0).rxg = 3 ∧
    (ChlRx.mk { op := 8 } 1 2 2).need ≠ 0 ∧ ((linkAt 0 2).chlUpd 0 fun x => { x with flitup := true }).chlPort 0 = { flitup := true } := by decide +kernel
theorem test_flit : let body := ([1, 0x28, 7, 0, 0, 0, 3] ++ List.replicate 9 0 ++ (List.range 7).flatMap fun _ => 0xF0 :: List.replicate 15 0).map (BitVec.ofNat 8)
    at_ (.flitReceive 0 body (BitVec.ofNat 16 (flitCrc 0 (body.map BitVec.toNat))) [] {}) (chainAt 5) (fun t => (t.out, (t.chlPort 0).rx)) =
    some ([.chl 0 0xF1 0 0 0 0 0 [], .chl 1 1 1 2 7 0 3 [], .chl 0 0xF3 0 0 0 0 0x10000 []], 1) := by decide +kernel
theorem test_gtag : at_ (.chlGtag 0 4 {}) (secretly true) (fun t => (t.get R.CHLP_STAT_STATE 0, t.get R.CHLP_STAT_DREASON 0, (t.chlPort 0).held)) = some (8, 8, true) := by
  decide +kernel
theorem test_ack : at_ (.chlAck 1 7) (replaying 5) (fun t => (t.chlPort 1).replay) = some [] := by decide +kernel
theorem test_credit : at_ (.chlCredit 1 0 500) (replaying 5) (fun t => ((t.chlPort 1).cred, t.out.length)) = some ([127, 0, 0, 0], 1) := by decide +kernel

theorem witness_ChainMemoryMessagesAreServed :
    let s := dramChain
    s.dpaLoc 0x1000 = .loc 0x1000 ∧ s.locStatus (.loc 0x1000) = .ok ∧ (∀ e < 16, s.flag R.SIN_POISON_VALID e = false) ∧ s.get R.CHLP_STAT_STATE 0 = 5 ∧ s.get R.PWR_STAT_STATE = 0 ∧
    s.die = 0 ∧ s.portTo 1 = 0 ∧ s.chlPort 0 = {} ∧ 0x1000 + 128 ≤ s.dramBytes ∧ s.dpaLoc (2 ^ 40) = .bad (2 ^ 40) ∧
    s.chl.req.find? (fun r => r.msg.tag == 6 && r.msg.dst == 1 && decide (r.msg.op < 3) == true) = some ⟨{ op := 1, tag := 6, dst := 1, arg := 2 }, 1, [], none, false⟩ ∧
    s.chl.req.find? (fun r => r.msg.tag == 8 && r.msg.dst == 1 && decide (r.msg.op < 3) == false) = some ⟨{ op := 3, tag := 8, dst := 1, arg := 2 }, 1, [], none, false⟩ := by decide +kernel
theorem test_home_write : at_ (.chlWrp 0 1 0 9 0x20 0x5 [7, 8, 9] false) dramChain (fun t => (bytesAt 0 t.mem 0x1000 3, t.out)) =
    some ([7, 0, 9], [.chl 0 9 0 1 9 0 0 [], .chl 0 0xF3 0 0 0 0 (3 * 2 ^ 16) []]) := by decide +kernel
theorem test_home_atom : at_ (.chlAtm 0 1 0 9 0x1000 0 false false 5 0) dramChain (fun t => (bytesAt 0 t.mem 0x1000 4, t.out.head?)) =
    some ([5, 0, 0, 0], some (.chl 0 9 0 1 9 0 0 [])) := by decide +kernel
theorem test_rdr_asleep : at_ (.chlRdr 0 1 0 6 3 1 [] false) dramChain (fun t => t.chl.req.map (·.wait)) = some [true, false] := by decide +kernel

theorem witness_ChainSynMessagesAct :
    let s := syncChain
    s.get R.CHLP_STAT_STATE 0 = 5 ∧ s.get R.PWR_STAT_STATE = 0 ∧ s.die = 0 ∧ s.portTo 1 = 0 ∧ s.memReach 1 = true ∧ s.chlPort 0 = {} ∧ s.objCheck 0 0x01000003 = 0 ∧ hDie 0x01000003 = 0 ∧
    s.objCheck 0 0x02000003 ≠ 0 ∧ (s.synObj 3).value = 7 ∧ (s.syn.remote.any fun x => x.2.2 == 77) = true ∧ s.isDie0 = true ∧ s.dtu.prx = [] ∧
    (s.set R.PWR_STAT_STATE 2).get R.PWR_STAT_STATE = 2 := by decide +kernel
theorem test_chl_sig : at_ (.chlSig 0 1 0 0x01000003 0 12) syncChain (fun t => (t.synObj 3).value) = some 12 := by decide +kernel
theorem test_chl_wait : at_ (.chlWait 0 1 0 0x01000003 5 4) syncChain (fun t => (t.out.length, t.syn.waits)) = some (2, syncChain.syn.waits) := by decide +kernel
theorem test_objchk : at_ (.objchk 0 1 0 0x02000003 0) syncChain (fun t => t.out.head?.map fun o => match o with | .chl _ _ _ _ _ _ _ bs => bs.take 6 | _ => []) =
    some (some [3, 0, 0, 2, 0, 2]) := by decide +kernel

theorem witness_DiesJoinSleepAndAreNumbered :
    (chainAt 3).get R.CHLP_STAT_STATE 0 = 3 ∧ (chainAt 3).chlPort 0 = {} ∧ (chainAt 3).get R.PWR_STAT_STATE = 0 ∧ (greeted true).get R.CHLP_STAT_STATE 0 = 3 ∧
    ((greeted true).chlPort 0).hello ≠ [] ∧ helloUid ((greeted true).chlPort 0).hello = ((greeted true).chlPort 0).uid ∧ ((greeted false).chlPort 0).asleep = false ∧
    (chainAt 5).get R.CHLP_STAT_STATE 0 = 5 ∧ (chainAt 7).get R.CHLP_STAT_STATE 0 = 7 ∧ (up .m0 2).flag R.CHL_STAT_ROOT = true ∧ (up .m0 2).domLive 0 = true ∧
    (up .m0 2).rst.asserted = none ∧ State.reset.rst.asserted ≠ none ∧
    rollNumbers [(0, 9), (3, 50)] [{ uid := 40, held := some 2 }, { uid := 50 }, { uid := 60, held := some 2 }] = [2, 3, 1] := by decide +kernel
theorem test_rollset : at_ (.rollset 0 2 false 3 0x33330120 0x1012 7 0 0) (chainAt 4) (fun t =>
    (t.die, t.get R.CHL_ROLL_COUNT, t.route 2, t.hops 1, t.get R.CHLP_STAT_STATE 0, t.get R.CHLP_STAT_STATE 1)) = some (2, 3, 1, 1, 5, 4) := by decide +kernel
theorem test_rollcall : at_ (.rollCall [{ uid := 7 }, { uid := 8, side := true }] false) (((chainAt 4).set R.CHIP_ID_VARIANT 2).set R.BOOT_WGENMAX_VALUE 5) (fun t =>
    ((List.range 3).map fun d => (t.route d, t.hops d), t.get R.CHL_ROLL_COUNT)) = some ([(2, 0), (0, 1), (5, 1)], 2) := by decide +kernel
theorem test_sleep : at_ (.chlSleep 0) (chainAt 5) (fun t => (t.get R.CHLP_STAT_STATE 0, t.route 1, t.route 2)) = some (7, 8, 1) := by decide +kernel

theorem witness_ChainManagementActs :
    let s := chainAt 5
    s.portTo 1 = 0 ∧ s.mgmtReach 1 = true ∧ s.isDie0 = true ∧ (s.set R.CHL_ROLL_DIE 1).isDie0 = false ∧ (s.set R.CHL_ROLL_DIE 1).die = 1 ∧
    ({ s with chl := { s.chl with win := [(1, false, 0)] } } : State).chl.win.find? (fun w => w.1 == 1) = some (1, false, 0) ∧
    receiver.receiving = true ∧ receiver.boot.recvPort = none ∧ receiver.get R.CHLP_STAT_STATE 0 = 5 ∧ s.rstReach = true ∧ (s.set R.HIF_CTL_FWD 1).flag R.HIF_CTL_FWD = true ∧
    s.boot.slots = [] ∧ s.boot.slotQ = [] ∧ s.boot.testconc = 4 ∧ (slotless 4).boot.waitSlot = true ∧ s.isChainDie = false ∧ s.dirEnt 7 = none ∧
    (s.set R.PWR_STAT_STATE 2).rstReach = true ∧ bundleLen [] = 1 := by decide +kernel
theorem test_regreq_write : at_ (.regreq 0 1 0 0xD00014 true 5 {}) (chainAt 5) (fun t => t.out) =
    some [.chl 0 0x20 0 1 0 1 (6 + 65536 * (0xD00014 + 2 ^ 25)) (List.replicate 128 0), .chl 0 0xF3 0 0 0 0 (2 + 2 * 2 ^ 16) []] := by decide +kernel
theorem test_irq : at_ (.chlIrq 0 1 0 9 1) (((chainAt 5).set R.HIF_CTL_FWD 1).rawSet (0x8000 + 16 * 9 + 12) 0) (fun t => (t.get R.HIF_IDIE_BYTES 2, t.out.head?)) =
    some (2 ^ 9, some (.msix 9)) := by decide +kernel
theorem test_report : at_ (.bootrepReport 0 1 0 3 0 0 0 0) (chainAt 5) (fun t => t.get R.BOOT_CHAIN_READY) = some 2 := by decide +kernel
theorem test_block : at_ (.fwblk 0 3 [7] {}) receiver (fun t => (t.boot.recvPort, t.boot.blocks.map fun b => (b.1, b.2.take 2))) = some (some 0, [(3, [7, 0])]) := by decide +kernel

theorem witness_RegisterWritesFollowTheirCodes :
    findReg 0x1000004 = some (R.EMB_CTL, 0, 0) ∧ R.EMB_CTL.off ∉ actingOffs ∧ R.EMB_CTL.wide = false ∧ Served (up .m0 2) .m0 0x1000004 = true ∧
    Served (up .m3 2) .m3 0x38000C = true ∧
    (up .m0 2).lockHolds 0x1000004 = false ∧ findReg 0xD00004 = some (R.WDT_S1TMO, 0, 0) ∧ R.WDT_S1TMO.off ∉ actingOffs ∧
    ((up .m0 2).set R.WDT_CTL_LOCK 1).lockHolds 0xD00004 = true ∧ ((up .m0 2).set R.WDT_CTL_LOCK 1).changesLocked R.WDT_S1TMO 0 0 9 = true ∧
    findReg 0x1000040 = some (R.EMB_PERF, 0, 0) ∧ findReg 0x1000044 = none ∧ R.EMB_PERF.wide = true ∧ R.EMB_PERF.off ∉ actingOffs ∧
    (Cells.get {} ({ up .m0 2 with latch := [(0, { wr := some (0x1000040, 5) })] } : State).latch Master.m0.idx).wr = some (0x1000044 - 4, 5) ∧
    Admitted (up .m0 2) .m1 0x1000004 = true ∧ (up .m0 2).owns .m1 = false ∧ Admitted (up .m0 2) .m2 0x20000 = true ∧ (up .m0 2).txnHolder 0x20000 = none ∧
    (((up .m0 2).set R.TXN_S_STAT_STATE 1 2).set R.TXN_S_BLK_MASK 0x10000 2).txnHolder 0x1000004 = some 2 ∧
    Served (up .m0 2) .m0 0x900000 = true ∧ (up .m0 2).isDie0 = true ∧ chained.isDie0 = false ∧ Served chained .m0 0x900000 = true := by decide +kernel
theorem test_write_w1c : at_ (.registerWrite .m0 0x1000010 4 6 {}) (((up .m0 2).set R.EMB_ERR_COLL_DIVERGED 1).set R.EMB_ERR_ILLEGAL 1)
    (fun t => (t.get R.EMB_ERR_COLL_DIVERGED, t.get R.EMB_ERR_ILLEGAL)) = some (0, 1) := by decide +kernel
theorem test_write_wide : at_ (.registerWrite .m0 0x1000044 4 6 {}) ({ up .m0 2 with latch := [(0, { wr := some (0x1000040, 5) })] } : State)
    (fun t => (t.get R.EMB_PERF_COUNT, t.latch.length)) = some (6 * 2 ^ 32 + 5, 0) := by decide +kernel

theorem witness_WindowsAperturesDebugPortAndApply :
    let s := (chainAt 5).set R.CHIP_RWIN_EN 1
    s.get R.BOOT_STAT_PHASE = 3 ∧ s.get R.PWR_STAT_STATE = 0 ∧ s.domLive 0 = true ∧ s.isDie0 = true ∧ s.flag R.CHIP_RWIN_EN = true ∧ s.get R.CHIP_RWIN_DIE = 0 ∧
    (s.set R.CHIP_RWIN_DIE 1).mgmtReach 1 = true ∧ s.get R.CHLP_STAT_STATE (s.portTo 1) = 5 ∧ s.mgmtReach 4 = false ∧ (chainAt 5).get R.CHIP_RWIN_EN = 0 ∧
    (s.set R.CHIP_RWIN_SEG 3).get R.CHIP_RWIN_SEG = 3 ∧ Served (up .m0 2) .m0 (0x1104 + 8 * 2) = true ∧
    (aperture.begun .m0).objCheck 3 0x01000004 = 0 ∧ hDie 0x01000004 = aperture.die ∧ bitB (aperture.recNat 3 4 8 4) 22 = true ∧ bitsOf (aperture.recNat 3 4 4 4) 0 20 = 2 ∧
    (aperture.begun .m0).objCheck 3 0x02000004 = 3 ∧ aperture.hostOpen = true ∧ aperture.ap.lookup 1 = some { base := 0x100, limit := 0x1000 } ∧
    aperture.dpaLoc (0x100 + 0x40) = .loc 0x140 ∧ aperture.locStatus (.loc 0x140) = .ok ∧ (∀ e < 16, aperture.flag R.SIN_POISON_VALID e = false) ∧
    aperture.tapLive = true ∧ aperture.get R.BOOT_PROF_DBG ≤ 1 ∧ aperture.jtag.dapStat ≠ 1 ∧ aperture.rst.asserted = none ∧ State.reset.domOn 0 = false ∧
    (applying 5).get R.TXN_S_STAT_STATE 1 = 2 ∧ (applying 5).txnDue 1 = true ∧ (applying 5).staged = [⟨1, 0x1000004, 5, false⟩] ∧ findReg 0x1000004 = some (R.EMB_CTL, 0, 0) ∧
    (applying 5).lockHolds 0x1000004 = false ∧ ((applying 5).set R.CRU_RST_ENG_EMB 1).txnRefuses ⟨1, 0x1000004, 5, false⟩ {} = true := by decide +kernel
theorem test_fetch_add : at_ (.bar4Atomicop 0x1000040 0 false 5 0) (aperture.memSet 0x140 4 7) (fun t => (t.memNat 0x140 4, t.out)) = some (12, [.reply true 7]) := by decide +kernel
theorem test_aperture_limit : at_ (.bar4Access 0x1000FFF true 2 [1, 2] false) aperture (fun t => (t.get R.CHIP_ELOG_KIND, t.mem == aperture.mem)) = some (ElogKind.aperture.code, true) := by decide +kernel
theorem test_dap_read : at_ (.dapregRead 0x1000000 {}) ((up .m0 2).set R.EMB_ID_LNUM 3) (fun t => (t.jtag.dapStat, t.jtag.dapData)) = some (2, 0x10003) := by decide +kernel
theorem test_apply : at_ (.txnBoundaryApply 1 {}) (applying 5) (fun t => (t.get R.EMB_CTL_REPACK_EN, t.get R.TXN_S_STAT_REASON 1, t.get R.TXN_EVT_APPLIED)) = some (1, 1, 2) := by decide +kernel

theorem witness_StepRunsFrontCommand :
    State.reset.pending = [] ∧ State.reset.rst.asserted ≠ none ∧ (up .m0 2).pending = [] ∧ (up .m0 2).rst.asserted = none ∧ (up .m0 2).get R.PWR_STAT_STATE < 3 ∧
    ((up .m0 2).set R.CRU_RPLL_STAT_LOCK 1).get R.CRU_RPLL_STAT_LOCK ≠ 0 ∧ (up .m0 2).cru.holdTo = none := by decide

theorem witness_ResetLeavesResetValues : R.PWR_RAMP_WIN.rstAt 1 0 < 2 ^ 64 := by decide

theorem witness_EveryStepKeepsStorageAndQueue :
    Memory.wf 0 (dram.memSet 8 2 0x0500).mem = true ∧ Memory.wf 0xFF dram.flash = true ∧ Memory.wf 0 dram.ao = true ∧
    step { dram with pending := [.chlRollreq .m0, .tapReset] } = exec (.chlRollreq .m0) { dram with pending := [.tapReset] } := ⟨by decide, by decide, by decide, rfl⟩

end Sys2Proof.Tests
end

