-- ==== Sys2Proof/Proofs/Scope.lean ====
section
/-!
Proofs of the family 00_scope: the Reset values of the register tables (R17, R18), and register writes by access code (R14).
-/

namespace Sys2Proof.Machine

/-! ## The machine under power-on reset -/

/-- No register cell is stored at reset, so a field shows its Reset value (R17) at each place, where its cell can hold that value. -/
theorem reset_get (f : Field) (i k : Nat) (h : f.rstAt i k < 2 ^ 64) : State.reset.get f i k = f.rstAt i k := by
  have unstored : State.reset.get f i k = (BitVec.ofNat 64 (f.rstAt i k)).toNat := rfl
  rw [unstored, BitVec.toNat_ofNat, Nat.mod_eq_of_lt h]

/-- A field for which the tables list no exception shows one Reset value at every place. -/
theorem reset_get_uniform (f : Field) (i : Nat) (he : f.exc = []) (h : f.rst < 2 ^ 64) : State.reset.get f i = f.rst := by
  have hr : f.rstAt i 0 = f.rst := by simp [Field.rstAt, he]
  rw [reset_get f i 0 (hr ▸ h), hr]

/-- Settles O59: the register file at reset is empty, so every field reads its Reset value; each other store is empty by the
definition of `State.reset`. -/
theorem resetLeavesResetValues : Obligations.ResetLeavesResetValues := by
  unfold Obligations.ResetLeavesResetValues
  refine ⟨reset_get, ?_, ?_, ?_, ?_, ?_, ?_, ?_, ?_, ?_, ?_, ?_, ?_, ?_, ?_, ?_, ?_, fun c _ => ?_, fun p _ => ?_, ?_, fun n _ => ?_,
    fun e _ => ⟨?_, ?_, ?_⟩, reset_canonical, rfl, rfl, rfl, rfl, rfl, rfl, rfl, rfl, rfl, rfl, rfl, rfl⟩ <;>
    exact reset_get_uniform _ _ rfl (by decide)

/-! ## A register write that does more than store fields -/

theorem findReg_CIF_P_REL : findReg 0xB01030 = some (R.CIF_P_REL, 0, 0) := by decide

/-- A served write of CIF_P0_REL stores the handle, and then the port waits anew for a buffer (R391). -/
theorem registerWrite_CIF_P_REL (s : State) (m : Master) (val : Word) (e : BusEnv) (h : s.Serves m 0xB01030) :
    exec (.registerWrite m 0xB01030 4 val e) s = .next (((s.begun m).putReg R.CIF_P_REL 0 0 val.toNat).cifArm 0) := by
  have arm : ∀ b : State, b.liveWrite m 0xB01030 val.toNat R.CIF_P_REL 0 0 e = (b.putReg R.CIF_P_REL 0 0 val.toNat).cifArm 0 :=
    fun _ => rfl
  have own : s.regWrite m 0xB01030 4 val.toNat e =
      s.ownerWrite m 0xB01030 val.toNat false fun b => b.liveWrite m 0xB01030 val.toNat R.CIF_P_REL 0 0 e := by
    simp [State.regWrite, mirrorOff, State.rawWrite, findReg_CIF_P_REL, show R.CIF_P_REL.wide = false from rfl]
  calc exec (.registerWrite m 0xB01030 4 val e) s = .next (s.busWrite m 0xB01030 4 val.toNat e) := rfl
    _ = .next (s.regWrite m 0xB01030 4 val.toNat e) := by simp [State.busWrite]
    _ = _ := by rw [own, s.ownerWrite_serves m _ _ _ _ h, arm]

/-- M0 owns a die that is up; camera port 0 is enabled and waits for the sync object 0x01000005 to reach 1 before it reuses a buffer. -/
def cameraAwaitingRelease : State :=
  let s : State := { State.reset with rst := {}, cif := { port := [(0, { wait := some (0x01000005, 1, 2 ^ 61) })], seq := 1 } }
  ((((((s.set R.BOOT_STAT_PHASE 3).set R.PWR_DOM_ON_ON_DOM 0xFF).set R.OWN_STAT_STATE 2).set R.OWN_STAT_OWNER 0).set R.CIF_CTL_EN 1).set
    R.CIF_P_CTL_EN 1).set R.CIF_P_REL_HANDLE 0x01000005

theorem cameraAwaitingRelease_serves : cameraAwaitingRelease.Serves .m0 0xB01030 where
  reach := by decide
  ready := by decide
  active := by decide
  fabric := by decide
  domain := by decide
  noEng := by decide
  owner := by decide
  unheld := by decide

/-- With the null handle the port gives its wait up (R391). -/
theorem cameraAwaitingRelease_null : (((cameraAwaitingRelease.begun .m0).putReg R.CIF_P_REL 0 0 0).cifArm 0).cif.port = [] := by decide

/-- Refutes O56: CIF_Pp_REL is not among the registers a write of which acts (`actingOffs`), and its write does more than store the
handle: the port's wait is armed anew (R391). Port 0 waits for a release; M0 writes the null handle, and the wait is gone from the
port's state, of which the statement says that it stands. -/
theorem not_registerWritesFollowTheirCodes : ¬ Obligations.RegisterWritesFollowTheirCodes := by
  unfold Obligations.RegisterWritesFollowTheirCodes
  rintro ⟨low, -⟩
  have served := cameraAwaitingRelease_serves
  have written := ((low cameraAwaitingRelease .m0 0xB01030 0 {} R.CIF_P_REL 0 0 findReg_CIF_P_REL (by decide)).1 rfl served).1
    fun _ => rfl
  obtain ⟨t, runs, -, -, frame⟩ := written
  rw [registerWrite_CIF_P_REL _ _ _ _ served] at runs
  obtain rfl : _ = t := Host.Outcome.next.inj runs
  have kept := congrArg (fun u : State => u.cif.port) frame
  exact absurd (cameraAwaitingRelease_null.symm.trans kept) (by decide)

end Sys2Proof.Machine
end
